-- ==== Sys2Proof/Word.lean ====
section
/-!
DEFINITION. Sys2Proof/Word.lean: the word types of the machine (spec/03_encoding_and_assembly.md R45, spec/02_execution_model.md R17)
and nothing else; every helper over them stands in a file under Machine/.
-/

namespace Sys2Proof

/-- A byte of memory. -/
abbrev Byte := BitVec 8
/-- An instruction word, an extension word, a lane register (R19, R45). -/
abbrev W32 := BitVec 32
/-- A uniform register, a lane mask, an address while it is computed (R17). -/
abbrev W64 := BitVec 64

end Sys2Proof
end

