-- ==== Sys2Proof/Syntax.lean ====
section
/-!
DEFINITION. Sys2Proof/Syntax.lean: the instruction set. One constructor per row of spec/opcode_table.json. A row with an
encoding carries the fields of its format as the spec lays them out (spec/03_encoding_and_assembly.md R45, R46), each
with its opcode word `x` and operand word `ow` (R53; 0 where there is none). A row without an encoding (an event:
something a core, a unit or the outside does) carries what identifies its occasion.
-/

namespace Sys2Proof

/-- The fields of format LR (R46), with the extension words. `v1` is the V field, 0 or 1 (R33). -/
structure LR where
  s : Bool
  v1 : Bool
  g : BitVec 3
  d : BitVec 6
  a : BitVec 6
  b : BitVec 6
  x : W32
  ow : W32
  deriving DecidableEq, Repr

/-- The fields of format LB (R46). -/
structure LB where
  s : Bool
  v1 : Bool
  g : BitVec 3
  off : BitVec 18
  deriving DecidableEq, Repr

/-- The fields of format GR (R46), with the extension words. -/
structure GR where
  s : Bool
  v1 : Bool
  d : BitVec 6
  a : BitVec 6
  b : BitVec 9
  x : W32
  ow : W32
  deriving DecidableEq, Repr

/-- The fields of format GJ (R46). -/
structure GJ where
  s : Bool
  v1 : Bool
  off : BitVec 21
  deriving DecidableEq, Repr

/-- The fields of format GC (R46). -/
structure GC where
  s : Bool
  v1 : Bool
  a : BitVec 6
  off : BitVec 15
  deriving DecidableEq, Repr

/-- The pages of one grant of a message as the sender's leaves (spec/15_ports_grants_names.md R314, R320). -/
structure PageGrant where
  first : Nat
  leaves : List W64
  deriving DecidableEq, Repr

/-- A port message on its way or queued (R314, R319): inline bytes, tag, source, grants and handles with their rights. A fault
record is a message too (spec/21_fault_architecture.md R401). -/
structure PortMsg where
  inl : List Byte
  tag : W64 := 0
  tenant : Nat := 0
  node : Nat := 0
  die : Nat := 0
  proc : Nat := 0
  grants : List PageGrant := []
  handles : List (W64 × BitVec 8) := []
  record : Bool := false
  crew : Nat := 0
  /-- Sending wave, for the order of its sends (R310). -/
  wave : Nat := 0
  /-- Generation of the sending process's entry. -/
  pgen : Nat := 0
  /-- An entry of the port is reserved for it (R316). -/
  res : Bool := false
  /-- Its release is at .die scope: sender and port are on one die (R202). -/
  near : Bool := false
  deriving DecidableEq, Repr

/-- A refusal of an earlier store or no-return atomic on its way to its wave (spec/21_fault_architecture.md R489): the issue
number of the instruction, the cause, and the instruction's place and words. -/
structure Refused where
  order : Nat
  cause : Nat
  sub : Nat
  tval : W64
  lanes : W64
  pc : BitVec 48
  word : W32
  x1 : W32
  x2 : W32
  deriving DecidableEq, Repr

/-- Future instructions (spec/07_memory_instructions.md R173). -/
inductive FutOp where
  | init
  | rd
  | wr (v : W64)
  deriving DecidableEq, Repr

/-- Name operations (spec/15_ports_grants_names.md R324): publication of a port with its generation, drop, lookup; and those of other
packages' waves: publication of a port by its handle, drop, and a lookup by a fabric interface (R325). -/
inductive NameOp where
  | pub (port gen : Nat) (isPublic : Bool)
  | drop
  | look (tenant : Nat) (other : Bool)
  | farPub (die tenant : Nat) (handle : W64) (proc : Nat) (isPublic : Bool)
  | farDrop (tenant proc : Nat)
  | farLook (tenant iface : Nat) (other : Bool)
  deriving DecidableEq, Repr


/-- The instructions, then the events of the device: one constructor per row of spec/opcode_table.json. -/
inductive Instr where
  /-- ADD: Adds two 32-bit lane operands with wrap for each active fibre (R97). -/
  | add (f : LR)
  /-- SUB: Subtracts two 32-bit lane operands with wrap for each active fibre (R97). -/
  | sub (f : LR)
  /-- MUL_LO: Writes the low 32 bits of the product of two lane operands (R97). -/
  | mulLo (f : LR)
  /-- MUL_HI_I32: Writes the high 32 bits of the signed 64-bit product (R97). -/
  | mulHiI32 (f : LR)
  /-- MUL_HI_N32: Writes the high 32 bits of the unsigned 64-bit product (R97). -/
  | mulHiN32 (f : LR)
  /-- MAD_LO: Writes the low 32 bits of a times b plus c, with c from the X-OP4 word (R98). -/
  | madLo (f : LR)
  /-- MIN_I32: Writes the signed minimum of two lane operands (R97). -/
  | minI32 (f : LR)
  /-- MIN_N32: Writes the unsigned minimum of two lane operands (R97). -/
  | minN32 (f : LR)
  /-- MAX_I32: Writes the signed maximum of two lane operands (R97). -/
  | maxI32 (f : LR)
  /-- MAX_N32: Writes the unsigned maximum of two lane operands (R97). -/
  | maxN32 (f : LR)
  /-- ABS: Writes the wrapping absolute value of a signed 32-bit operand (R98). -/
  | abs (f : LR)
  /-- AND: Writes the bitwise and of two lane operands (R97). -/
  | and (f : LR)
  /-- OR: Writes the bitwise or of two lane operands (R97). -/
  | or (f : LR)
  /-- XOR: Writes the bitwise exclusive or of two lane operands (R97). -/
  | xor (f : LR)
  /-- ANDN: Writes a and not b (R97). -/
  | andn (f : LR)
  /-- SHL: Shifts left, giving zero for shift counts of 32 or more (R97). -/
  | shl (f : LR)
  /-- SHR: Shifts right with zero fill, giving zero for counts of 32 or more (R97). -/
  | shr (f : LR)
  /-- SRA: Shifts right with sign fill (R97). -/
  | sra (f : LR)
  /-- ROT: Rotates a left by b[4:0] places (R97). -/
  | rot (f : LR)
  /-- BFE: Extracts a zero-extended bit field of a given by position and length in b (R98). -/
  | bfe (f : LR)
  /-- BFI: Inserts bits of a into c at the field given by b (R98). -/
  | bfi (f : LR)
  /-- POPC: Counts the one bits of a (R98). -/
  | popc (f : LR)
  /-- CLZ: Counts the leading zero bits of a (R98). -/
  | clz (f : LR)
  /-- BREV: Reverses the bit order of a (R98). -/
  | brev (f : LR)
  /-- ADD_I64: Adds two 64-bit register pairs with wrap (R99). -/
  | addI64 (f : LR)
  /-- SUB_I64: Subtracts two 64-bit register pairs with wrap (R99). -/
  | subI64 (f : LR)
  /-- MUL_WIDE_I32: Writes the exact signed 64-bit product to a pair (R99). -/
  | mulWideI32 (f : LR)
  /-- MUL_WIDE_N32: Writes the exact unsigned 64-bit product to a pair (R99). -/
  | mulWideN32 (f : LR)
  /-- DIV_I32: Signed division truncating toward zero, defined for every operand (R100). -/
  | divI32 (f : LR)
  /-- DIV_N32: Unsigned division, giving all ones for a zero divisor (R100). -/
  | divN32 (f : LR)
  /-- REM_I32: Signed remainder with the sign of the dividend (R100). -/
  | remI32 (f : LR)
  /-- REM_N32: Unsigned remainder, giving a for a zero divisor (R100). -/
  | remN32 (f : LR)
  /-- CMP_I32: Compares signed 32-bit operands and writes a predicate (R102). -/
  | cmpI32 (f : LR)
  /-- CMP_N32: Compares unsigned 32-bit operands and writes a predicate (R102). -/
  | cmpN32 (f : LR)
  /-- CMP_F32: Compares binary32 operands under IEEE rules and writes a predicate (R102). -/
  | cmpF32 (f : LR)
  /-- CMP_F64: Compares binary64 pairs and writes a predicate (R102). -/
  | cmpF64 (f : LR)
  /-- PR: Combines two predicates with a logic function into a predicate (R103). -/
  | pr (f : LR)
  /-- SEL: Selects a or b per fibre by a predicate named in X-SEL (R104). -/
  | sel (f : LR)
  /-- MOV: Copies a lane operand or constant into a register (R105). -/
  | mov (f : LR)
  /-- ADD_F32: Adds binary32 values rounded to nearest even (R106). -/
  | addF32 (f : LR)
  /-- SUB_F32: Subtracts binary32 values rounded to nearest even (R106). -/
  | subF32 (f : LR)
  /-- MUL_F32: Multiplies binary32 values rounded to nearest even (R106). -/
  | mulF32 (f : LR)
  /-- FMA_F32: Fused multiply-add in binary32 with a single rounding (R106). -/
  | fmaF32 (f : LR)
  /-- MIN_F32: Writes the lesser binary32 value with NaN and signed-zero rules (R107). -/
  | minF32 (f : LR)
  /-- MAX_F32: Writes the greater binary32 value with NaN and signed-zero rules (R107). -/
  | maxF32 (f : LR)
  /-- ABS_F32: Clears the sign bit of a binary32 value (R106). -/
  | absF32 (f : LR)
  /-- NEG_F32: Inverts the sign bit of a binary32 value (R106). -/
  | negF32 (f : LR)
  /-- ADD_F64: Adds binary64 pairs (R108). -/
  | addF64 (f : LR)
  /-- MUL_F64: Multiplies binary64 pairs (R108). -/
  | mulF64 (f : LR)
  /-- FMA_F64: Fused multiply-add on binary64 pairs (R108). -/
  | fmaF64 (f : LR)
  /-- MIN_F64: Writes the lesser binary64 pair value (R108). -/
  | minF64 (f : LR)
  /-- MAX_F64: Writes the greater binary64 pair value (R108). -/
  | maxF64 (f : LR)
  /-- ADD2_BF16: Adds two packed BF16 halves separately (R109). -/
  | add2Bf16 (f : LR)
  /-- MUL2_BF16: Multiplies two packed BF16 halves separately (R109). -/
  | mul2Bf16 (f : LR)
  /-- FMA2_BF16: Fused multiply-add on packed BF16 halves (R109). -/
  | fma2Bf16 (f : LR)
  /-- ADD2_F16: Adds two packed binary16 halves separately (R109). -/
  | add2F16 (f : LR)
  /-- MUL2_F16: Multiplies two packed binary16 halves separately (R109). -/
  | mul2F16 (f : LR)
  /-- FMA2_F16: Fused multiply-add on packed binary16 halves (R109). -/
  | fma2F16 (f : LR)
  /-- CVT: Converts a value between any two element formats under a rounding mode and saturation (R110). -/
  | cvt (f : LR)
  /-- PACK_P8: Rounds two binary32 values into binary8 or binary4 codes packed into part of D (R111). -/
  | packP8 (f : LR)
  /-- UNPACK_P8: Converts packed binary8 or binary4 elements to f32, bf16 or f16 (R112). -/
  | unpackP8 (f : LR)
  /-- RCP_F32: Correctly rounded reciprocal, variable latency (R113). -/
  | rcpF32 (f : LR)
  /-- RSQ_F32: Correctly rounded reciprocal square root (R113). -/
  | rsqF32 (f : LR)
  /-- SQRT_F32: Correctly rounded square root (R113). -/
  | sqrtF32 (f : LR)
  /-- EX2_F32: Correctly rounded power of two (R113). -/
  | ex2F32 (f : LR)
  /-- LG2_F32: Correctly rounded base-2 logarithm (R113). -/
  | lg2F32 (f : LR)
  /-- SIN_PI_F32: Correctly rounded sine of pi times a (R113). -/
  | sinPiF32 (f : LR)
  /-- COS_PI_F32: Correctly rounded cosine of pi times a (R113). -/
  | cosPiF32 (f : LR)
  /-- TANH_F32: Correctly rounded hyperbolic tangent (R113). -/
  | tanhF32 (f : LR)
  /-- SHFL_IDX: Arrives at a cross-lane instance that hands each member the value of lane b (R116). -/
  | shflIdx (f : LR)
  /-- SHFL_UP: Arrives at a shuffle from lane l minus b (R116). -/
  | shflUp (f : LR)
  /-- SHFL_DOWN: Arrives at a shuffle from lane l plus b (R116). -/
  | shflDown (f : LR)
  /-- SHFL_XOR: Arrives at a shuffle from lane l xor b (R116). -/
  | shflXor (f : LR)
  /-- VOTE_ANY: Arrives at a vote that writes 1 if any member counts as true (R117). -/
  | voteAny (f : LR)
  /-- VOTE_ALL: Arrives at a vote that writes 1 if every member counts as true (R117). -/
  | voteAll (f : LR)
  /-- VOTE_BALLOT: Arrives at a ballot that writes a 64-bit mask of true members (R117). -/
  | voteBallot (f : LR)
  /-- REDUX_ADD: Arrives at a reduction summing member contributions in lane order (R118). -/
  | reduxAdd (f : LR)
  /-- REDUX_MIN: Arrives at a minimum reduction over members (R118). -/
  | reduxMin (f : LR)
  /-- REDUX_MAX: Arrives at a maximum reduction over members (R118). -/
  | reduxMax (f : LR)
  /-- MATCH: Arrives at an instance that writes the mask of members with equal values (R119). -/
  | matchB32 (f : LR)
  /-- HIST_ADD: Increments a lane-private bin chosen by a (R120). -/
  | histAdd (f : LR)
  /-- HIST_MERGE: Sums bins across the batch's active fibres into lane j (R121). -/
  | histMerge (f : LR)
  /-- LD: Loads from the generic address space per active fibre, variable latency (R154). -/
  | ld (f : LR)
  /-- ST: Stores per active fibre to the generic address space (R154). -/
  | st (f : LR)
  /-- LD_POLL: Reads a word repeatedly until it differs from b, at most 16 reads (R158). -/
  | ldPoll (f : LR)
  /-- ATOM: Performs a returning atomic per active fibre at its scope's point (R160). -/
  | atom (f : LR)
  /-- ATOM_NR: Performs a no-return atomic per active fibre (R160). -/
  | atomNr (f : LR)
  /-- CAS128: Performs a lane compare-and-swap of 32, 64 or 128 bits (R161). -/
  | cas128 (f : LR)
  /-- LDP: Reads a bound parameter window, zero-filling beyond its size (R157). -/
  | ldp (f : LR)
  /-- PF: Prefetches a line into the L1 or the L2/RDC without fault (R156). -/
  | pf (f : LR)
  /-- BRP: Branches each fibre whose guard reads 1 and ends the run (R122). -/
  | brp (f : LB)
  /-- WIN_ADV: Moves each active fibre's register window base from the next run (R123). -/
  | winAdv (f : LR)
  /-- VGET: Reads the lane operand whose code is given per fibre by b (R124). -/
  | vget (f : LR)
  /-- VSET: Writes the lane operand whose code is given per fibre by b (R124). -/
  | vset (f : LR)
  /-- S_ADD: Adds 64-bit uniform operands (R127). -/
  | sAdd (f : GR)
  /-- S_SUB: Subtracts 64-bit uniform operands (R127). -/
  | sSub (f : GR)
  /-- S_MUL: Multiplies 64-bit uniform operands, low half (R127). -/
  | sMul (f : GR)
  /-- S_AND: Bitwise and of uniform operands (R127). -/
  | sAnd (f : GR)
  /-- S_OR: Bitwise or of uniform operands (R127). -/
  | sOr (f : GR)
  /-- S_XOR: Bitwise exclusive or of uniform operands (R127). -/
  | sXor (f : GR)
  /-- S_SHL: Shifts a uniform operand left (R127). -/
  | sShl (f : GR)
  /-- S_SHR: Shifts a uniform operand right with zero fill (R127). -/
  | sShr (f : GR)
  /-- S_SRA: Shifts a uniform operand right with sign fill (R127). -/
  | sSra (f : GR)
  /-- S_MIN_I64: Signed 64-bit minimum (R127). -/
  | sMinI64 (f : GR)
  /-- S_MIN_N64: Unsigned 64-bit minimum (R127). -/
  | sMinN64 (f : GR)
  /-- S_MAX_I64: Signed 64-bit maximum (R127). -/
  | sMaxI64 (f : GR)
  /-- S_MAX_N64: Unsigned 64-bit maximum (R127). -/
  | sMaxN64 (f : GR)
  /-- S_MOV: Writes a register, imm8 or XW operand to a uniform register (R128). -/
  | sMov (f : GR)
  /-- S_CMP_I64: Signed 64-bit compare writing 1 or 0 (R129). -/
  | sCmpI64 (f : GR)
  /-- S_CMP_N64: Unsigned 64-bit compare writing 1 or 0 (R129). -/
  | sCmpN64 (f : GR)
  /-- S_SEL: Selects a or b by a uniform selector register (R130). -/
  | sSel (f : GR)
  /-- BR: Moves the batch to the branch target and ends the run (R132). -/
  | br (f : GJ)
  /-- BZ: Branches the batch when a uniform register is zero (R133). -/
  | bz (f : GC)
  /-- BNZ: Branches the batch when a uniform register is nonzero (R133). -/
  | bnz (f : GC)
  /-- BNEG: Branches the batch when bit 63 of a uniform register is set (R133). -/
  | bneg (f : GC)
  /-- CALL: Writes the return address to s59 and branches (R132). -/
  | call (f : GJ)
  /-- JMP: Jumps the batch to the address in a uniform register (R132). -/
  | jmp (f : GR)
  /-- FIB_SPAWN: Creates one fibre in the lowest free lane and returns its lane and thread (R134). -/
  | fibSpawn (f : GC)
  /-- FIB_END: Ends every fibre of the batch, freeing lanes and possibly ending the wave (R135). -/
  | fibEnd (f : GR)
  /-- MK_JOIN: Sets the batch's lanes in a reconvergence mask (R136). -/
  | mkJoin (f : GR)
  /-- MK_LEAVE: Clears the batch's lanes in a reconvergence mask (R136). -/
  | mkLeave (f : GR)
  /-- MK_WAIT: Holds the batch until every live lane of the mask is held on it (R139). -/
  | mkWait (f : GR)
  /-- MK_MOV_TO_MASK: Copies a uniform register into a reconvergence mask (R137). -/
  | mkMovToMask (f : GR)
  /-- MK_MOV_FROM_MASK: Copies a reconvergence mask into a uniform register (R137). -/
  | mkMovFromMask (f : GR)
  /-- MK_CUR: Writes the issuing batch's mask to a uniform register (R138). -/
  | mkCur (f : GR)
  /-- SLD: Loads once for the batch into uniform registers (R154). -/
  | sld (f : GR)
  /-- SST: Stores once for the batch from a uniform operand (R154). -/
  | sst (f : GR)
  /-- SATOM: Performs one atomic for the batch and returns a status and the old value (R162). -/
  | satom (f : GR)
  /-- FENCE_REL: Completes the wave's earlier accesses at a scope, writing back lines and awaiting acknowledgements (R167). -/
  | fenceRel (f : GR)
  /-- FENCE_ACQ: Writes back and invalidates the core's global L1 lines at die scope or wider (R167). -/
  | fenceAcq (f : GR)
  /-- FENCE_AR: Performs fence.rel then fence.acq at one scope (R167). -/
  | fenceAr (f : GR)
  /-- EC_BIND: Adds a region-to-object binding to the process's binding table (R170). -/
  | ecBind (f : GR)
  /-- EC_DROP: Removes a region binding by index (R170). -/
  | ecDrop (f : GR)
  /-- WAIT_ADDR: Holds the batch until a scratchpad word equals a value (R171). -/
  | waitAddr (f : GR)
  /-- FUT_INIT: Empties a future at its home (R173). -/
  | futInit (f : GR)
  /-- FUT_RD: Reads a full future or blocks on its deferred-read list (R173). -/
  | futRd (f : GR)
  /-- FUT_WR: Fills an empty future and wakes its readers, or returns FULL (R173). -/
  | futWr (f : GR)
  /-- CREW_JOIN: Moves the wave into a new or named crew after draining tokens and fencing (R227). -/
  | crewJoin (f : GR)
  /-- CREW_LEAVE: Leaves the crew and forms a new crew of one (R229). -/
  | crewLeave (f : GR)
  /-- NB_ARRIVE: Arrives at a named barrier without waiting (R231). -/
  | nbArrive (f : GR)
  /-- NB_SYNC: Arrives at a named barrier and waits for its phase (R231). -/
  | nbSync (f : GR)
  /-- NB_WAIT: Waits on the phase of the wave's last nb.arrive (R231). -/
  | nbWait (f : GR)
  /-- PL_CFG: Configures or releases a step region of the crew (R233). -/
  | plCfg (f : GR)
  /-- PL_JOIN: Adds the wave to a step region's group (R234). -/
  | plJoin (f : GR)
  /-- PL_JOIN_DROP: Removes the wave from a step region's group (R234). -/
  | plJoinDrop (f : GR)
  /-- STEP: Arrives at a step of a region and holds until the commit (R236). -/
  | step (f : GR)
  /-- LK_ACQ: Requests a line lock at its home, waiting with optional timeout (R238). -/
  | lkAcq (f : GR)
  /-- LK_TRY: Requests a line lock without queueing (R238). -/
  | lkTry (f : GR)
  /-- LK_REL: Releases a held line lock and starts its background release (R240). -/
  | lkRel (f : GR)
  /-- MX_GANG: Binds the crew into a cluster gang, or leaves it (R261). -/
  | mxGang (f : GR)
  /-- MX_ISSUE: Copies a parameter block and queues a matrix operation (R256). -/
  | mxIssue (f : GR)
  /-- MX_DRAIN: Copies a drain block and queues a drain (R259). -/
  | mxDrain (f : GR)
  /-- MX_ZERO: Queues a zeroing of named accumulators (R249). -/
  | mxZero (f : GR)
  /-- OM_CLAIM: Claims operand slots and accumulators, holding until they are free (R246). -/
  | omClaim (f : GR)
  /-- OM_REL: Releases named slots and accumulators of the holder (R247). -/
  | omRel (f : GR)
  /-- CP_ISSUE: Copies a copy command block and enqueues it on a copy queue or collective staging (R269). -/
  | cpIssue (f : GR)
  /-- TOK_WAIT: Holds the batch until every masked token's count is zero (R277). -/
  | tokWait (f : GR)
  /-- TOK_TEST: Reads token state, optionally clearing sticky flags (R278). -/
  | tokTest (f : GR)
  /-- Q_BIND: Binds a stream register to a scratchpad ring (R282). -/
  | qBind (f : GR)
  /-- Q_POP: Holds until the next tile is filled, then returns its address (R283). -/
  | qPop (f : GR)
  /-- Q_FREE: Releases and frees the oldest popped tile of a stream (R284). -/
  | qFree (f : GR)
  /-- EQ_FENCE: Places a fence entry in the named engine queues (R279). -/
  | eqFence (f : GR)
  /-- WV_NEW: Creates a wave from a descriptor in a named or new crew (R297). -/
  | wvNew (f : GR)
  /-- WV_EXIT: Ends every fibre of the wave (R297). -/
  | wvExit (f : GR)
  /-- WV_JOIN: Returns when a named wave is dead, blocking otherwise (R297). -/
  | wvJoin (f : GR)
  /-- WV_YIELD: Deschedules the crew when an equal-or-higher priority crew needs its space (R297). -/
  | wvYield (f : GR)
  /-- WV_PRIO: Sets a wave's priority, limited by the tenant cap (R297). -/
  | wvPrio (f : GR)
  /-- H_DUP: Duplicates a handle slot with reduced rights (R301). -/
  | hDup (f : GR)
  /-- H_CLOSE: Empties a handle slot and decrements its object's references (R301). -/
  | hClose (f : GR)
  /-- H_INFO: Returns an object's kind, state, rights and detail (R302). -/
  | hInfo (f : GR)
  /-- WS_NEW: Creates a wait set (R296). -/
  | wsNew (f : GR)
  /-- WS_ADD: Adds a port, timer, wave or future to a wait set (R303). -/
  | wsAdd (f : GR)
  /-- WS_DEL: Removes a key from a wait set (R303). -/
  | wsDel (f : GR)
  /-- WS_WAIT: Selects a ready member or blocks in FIFO order (R305). -/
  | wsWait (f : GR)
  /-- WS_POLL: Makes one selection without blocking (R305). -/
  | wsPoll (f : GR)
  /-- TM_NEW: Creates a die-local timer (R296). -/
  | tmNew (f : GR)
  /-- TM_ARM: Arms a timer with delay and period at its home (R306). -/
  | tmArm (f : GR)
  /-- TM_STOP: Disarms a timer and clears its count (R306). -/
  | tmStop (f : GR)
  /-- PT_NEW: Creates a port, optionally a launch port (R313). -/
  | ptNew (f : GR)
  /-- PT_SEND: Sends a message with inline bytes, page grants and handles (R316). -/
  | ptSend (f : GR)
  /-- PT_RECV: Takes the head message, blocking when the port is empty (R320). -/
  | ptRecv (f : GR)
  /-- PT_TRY: Takes the head message or returns EMPTY (R320). -/
  | ptTry (f : GR)
  /-- PG_PULL: Migrates remote-frame pages into local frames one at a time (R322). -/
  | pgPull (f : GR)
  /-- NM_PUB: Binds a name to a port at the name's authority (R324). -/
  | nmPub (f : GR)
  /-- NM_DROP: Removes the process's binding of a name (R324). -/
  | nmDrop (f : GR)
  /-- NM_LOOK: Looks up a name and returns a port handle (R324). -/
  | nmLook (f : GR)
  /-- TQ_PUSH: Pushes a task record onto a registered task queue (R334). -/
  | tqPush (f : GR)
  /-- SYS_CALL: Sends a system-call descriptor to the service port and blocks for the reply (R307). -/
  | sysCall (f : GR)
  /-- SR_RD: Reads a special register at issue (R140). -/
  | srRd (f : GR)
  /-- SR_WR: Writes a special register at issue (R140). -/
  | srWr (f : GR)
  /-- NOP: Issues and counts toward commitment with no other effect (R146). -/
  | nop (f : GR)
  /-- TRAP: Enters the process's trap handler with a software cause (R147). -/
  | trap (f : GR)
  /-- BRK: Enters the debug handler, or raises MODE when debug is disabled (R148). -/
  | brk (f : GR)
  /-- RFE: Returns from the trap or debug handler, restoring s60-s63 (R397). -/
  | rfe (f : GR)
  /-- DBG_RD: Reads a debug register of the core in debug mode (R364). -/
  | dbgRd (f : GR)
  /-- DBG_WR: Writes a debug register of the core in debug mode (R364). -/
  | dbgWr (f : GR)
  /-- RUN_START: The core groups ready fibres into batches and starts the next run of a wave (R25). -/
  | runStart (w : Nat)
  /-- VAR_RESULT_RETURN: A variable-latency result returns to the core (R29). -/
  | varResultReturn (w : Nat) (n : Nat)
  /-- UNASSIGNED_OPCODE: A batch reaches a word whose opcode is unassigned or whose V field is 2 or 3 and raises ILLEGAL (R407). -/
  | unassignedOpcode (w0 : W32) (w1 : W32) (w2 : W32)
  /-- WRITE_REFUSAL_ARRIVAL: A refusal of an earlier store or no-return atomic reaches the core (R489). -/
  | writeRefusalArrival (w : Nat) (run : Nat) (r : Refused)
  /-- LD_POLL_REREAD: An ld.poll backoff wait expires and the word is read again (R158). -/
  | ldPollReread (w : Nat) (n : Nat)
  /-- ACK_ARRIVAL: An acknowledgement arrives and decrements ACKCNT (R215). -/
  | ackArrival (id : Nat)
  /-- PORT_MESSAGE_ENQUEUE: A message arrives at the port's home and is enqueued, waking receivers (R310). -/
  | portMessageEnqueue (port : Nat) (gen : Nat) (msg : PortMsg) (ret : Option (Nat × Nat × Nat))
  /-- FUTURE_OP_AT_HOME: A future instruction is performed by the home die's Muhan unit (R172). -/
  | futureOpAtHome (w : Nat) (seq : Nat) (d : Nat) (op : FutOp) (key : Nat) (scope : Nat) (addr : Nat) (pc : BitVec 48) (word : W32) (x1 : W32) (x2 : W32)
  /-- LOCK_REQUEST_AT_HOME: A lock request arrives at the line's home and is granted, queued or refused (R239). -/
  | lockRequestAtHome (w : Nat) (seq : Nat) (d : Nat) (line : Nat) (try_ : Bool) (timeout : Nat)
  /-- LOCK_RELEASE_AT_HOME: A release applies dirty bytes and held writes and hands the lock off (R239). -/
  | lockReleaseAtHome (w : Nat) (line : Nat)
  /-- LOCK_GRANT_ARRIVAL: A lock grant reaches the waiter, resident or saved (R242). -/
  | lockGrantArrival (w : Nat) (line : Nat) (status : Nat)
  /-- NONHOLDER_WRITE_AT_HOME: A non-holder write to a locked line is held at the home (R241). -/
  | nonholderWriteAtHome (w : Nat) (key : Nat) (bytes : List Byte)
  /-- NAME_OP_AT_AUTHORITY: A name publication, drop or lookup is performed at its authority (R323). -/
  | nameOpAtAuthority (w : Nat) (seq : Nat) (d : Nat) (name : W64) (op : NameOp)
  /-- NAME_CACHE_INVALIDATE: A name invalidation reaches a caching fabric interface (R325). -/
  | nameCacheInvalidate (die : Nat) (name : W64) (tenant : Nat)
  /-- SHOOTDOWN_REQUEST: A core, cluster or die receives a shootdown and removes matching entries (R198). -/
  | shootdownRequest (id : Nat) (die : Nat)
  /-- SHOOTDOWN_COMPLETE: Every unit in scope has finished a shootdown (R198). -/
  | shootdownComplete (id : Nat)
  /-- SHADOW_SWAP_DONE: A context exchange with the shadow bank completes (R12). -/
  | shadowSwapDone (crew : Nat)
  /-- CAVE_RESTORE_DONE: A crew context restore from the cave completes (R299). -/
  | caveRestoreDone (crew : Nat)
  /-- SAMPLE_RECORD_WRITE: A sampled memory instruction's results return and its record is written (R372). -/
  | sampleRecordWrite (core : Nat) (rec_ : BitVec 512)
  /-- WATCH_REMOTE_ENTRY: A remote watchpoint hit enters the owning crew's lowest live member (R368). -/
  | watchRemoteEntry (w : Nat) (index : Nat) (src : Nat) (lane : Nat) (addr : Nat) (kind : Nat)
  /-- STOP_EFFECT: A stop takes effect on a core of the cluster (R369). -/
  | stopEffect (core : Nat)
  /-- SNAPSHOT_LATCH: A die latches its snapshot block after the trigger arrives (R375). -/
  | snapshotLatch (die : Nat)
  /-- TASK_COMPLETE: After a task crew dissolves and its release completes, successor and graph counts are decremented (R331). -/
  | taskComplete (die : Nat) (kind : Nat) (ix : Nat) (node : Nat) (succ : Nat) (proc : Nat) (crew : Nat)
  /-- ZERO_LENGTH_READ_COMPLETION: A zero-length read issued on a host port by a .sys release completes, letting the release finish (R167). -/
  | zeroLengthReadCompletion (w : Nat) (port : Nat)
  /-- BISNP_RESPONSE: The host's back-invalidation snoop response arrives (R225). -/
  | bisnpResponse (line : Nat)
  /-- WRITE_BACK: An RDC write-back arrives at the home and is accepted or cancelled (R219). -/
  | writeBack (die : Nat) (line : Nat)
  /-- WRITE_BACK_ACK: A write-back acknowledgement frees the evicting die's buffer (R220). -/
  | writeBackAck (die : Nat) (line : Nat)
  /-- PASS_BROADCAST: Another die's PASS result arrives for the election (R354). -/
  | passBroadcast (src : Nat) (die : Nat) (pass : Bool)
  /-- LAPSE_BROADCAST: A lapse report from another die arrives, possibly electing a new stroke die (R467). -/
  | lapseBroadcast (src : Nat) (die : Nat)
  /-- PG_PULL_PAGE_DONE: One page of a pull finishes copying and its PTE is switched (R322). -/
  | pgPullPageDone (w : Nat)
  /-- QUEUE_RECORD_TAKE: The distributor copies a running queue's head record into the candidate table (R333). -/
  | queueRecordTake (id : Nat)
  /-- ON_READY: A record enters the candidate table and the on_ready hook runs (R337). -/
  | onReady (die : Nat)
  /-- ON_SLOT_FREE: A crew dissolves or is descheduled and the on_slot_free hook runs (R337). -/
  | onSlotFree (die : Nat)
  /-- ON_PREEMPT_REQUEST: A pre-emption request or lowered tenant limit runs the on_preempt_request hook (R337). -/
  | onPreemptRequest (die : Nat) (crew : Nat) (reason : Nat)
  /-- ON_BALANCE: Every BALPER ticks the on_balance hook runs (R337). -/
  | onBalance (die : Nat)
  /-- LAUNCH_PORT_RECORD_LAUNCH: A queued launch-port record launches as INFLIGHT falls (R326). -/
  | launchPortRecordLaunch (port : Nat)
  /-- DEBUG_ENTRY_BPC: A PC comparator match enters the debug handler before the instruction issues (R365). -/
  | debugEntryBpc (w : Nat)
  /-- OM_CLAIM_GRANT: A waiting storage claim is granted once slots and accumulators free (R246). -/
  | omClaimGrant (w : Nat)
  /-- READ_FOR_OWNERSHIP: An RDC read-for-ownership request is performed at the home L2 (R219). -/
  | readForOwnership (die : Nat) (line : Nat)
  /-- UPGRADE: An RDC upgrade request is performed at the home L2 (R219). -/
  | upgrade (die : Nat) (line : Nat)
  /-- DIE_RESET: A die reset starts its reference counter and ROM boot (R353). -/
  | dieReset (die : Nat)
  /-- CREW_PLACEMENT: The Muhan unit places the first fitting runnable crew on a core with room (R298). -/
  | crewPlacement (core : Nat)
  /-- CREW_DESCHEDULE: A crew whose live members all waited WAITSPIN cycles is descheduled (R42). -/
  | crewDeschedule (crew : Nat)
  /-- GRAPH_REPLAY_START: A waiting graph kick starts its replay once the previous replay completes (R336). -/
  | graphReplayStart (die : Nat) (g : Nat)
  /-- TIMER_EXPIRY: A timer's deadline is reached and its count increments (R306). -/
  | timerExpiry (id : Nat)
  /-- PAGE_WALK_COMPLETE: A page-table walk completes, installing a leaf and setting A or D (R195). -/
  | pageWalkComplete (core : Nat) (proc : Nat) (addr : Nat)
  /-- L1_EARLY_WRITEBACK: The L1 writes back or evicts a line at a time of its choosing (R184). -/
  | l1EarlyWriteback (core : Nat) (line : Nat) (evict : Bool)
  /-- CLUSTER_WINDOW_ACCESS: A cluster-window access arrives at the target scratchpad through the router (R183). -/
  | clusterWindowAccess (src : Nat) (core : Nat) (x : Nat) (bytes : List Byte)
  /-- ROUTER_ATOMIC_ARRIVAL: A no-return reduction reaches the cluster router and may be merged (R165). -/
  | routerAtomicArrival (key : Nat) (size : Nat) (op : Nat) (vals : List Nat)
  /-- ACK_TIMEOUT: A missing acknowledgement times out, resending or reporting ACKLOST (R450). -/
  | ackTimeout (id : Nat)
  /-- READ_SHARED: An RDC read-shared request is performed at the home L2 (R219). -/
  | readShared (die : Nat) (line : Nat)
  /-- RECALL: A recall reaches the owning die and is answered from the RDC or write-back buffer (R220). -/
  | recallArrival (line : Nat)
  /-- HOST_SNOOP: A host CXL.cache snoop is answered from the RDC (R225). -/
  | hostSnoop (die : Nat) (line : Nat)
  /-- HOST_CXL_MEM_READ: A host CXL.mem read is performed at the home L2 and sets HOST (R225). -/
  | hostCxlMemRead (addr : Nat) (n : Nat)
  /-- HOST_CXL_MEM_WRITE: A host CXL.mem write is performed at the home L2 (R225). -/
  | hostCxlMemWrite (addr : Nat) (bytes : List Byte)
  /-- HOST_BAR2_READ: A host read through BAR2 is performed at the home L2 (R226). -/
  | hostBar2Read (port : Nat) (addr : Nat) (n : Nat)
  /-- HOST_BAR2_WRITE: A host write through BAR2 is performed at the home L2 (R226). -/
  | hostBar2Write (port : Nat) (addr : Nat) (bytes : List Byte)
  /-- HOST_ATOMICOP: A host PCI Express AtomicOp through BAR2 is completed at the home L2 (R345). -/
  | hostAtomicop (port : Nat) (addr : Nat) (op : Nat) (size : Nat) (b : Nat) (cmp : Nat)
  /-- REMOTE_PAGE_READ: A remote read of a page reaches the home package's fabric interface (R222). -/
  | remotePageRead (node : Nat) (key : Nat)
  /-- REMOTE_PAGE_WRITE: A remote write of a page changes its page state to exclusive-remote (R222). -/
  | remotePageWrite (node : Nat) (key : Nat) (bytes : List Byte)
  /-- REMOTE_PAGE_ATOMIC: An atomic from another package is performed at the home L2 (R222). -/
  | remotePageAtomic (node : Nat) (key : Nat) (op : Nat) (size : Nat) (b : Nat) (cmp : Nat)
  /-- PAGE_INVALIDATE: A page invalidation or recall reaches a holding package (R222). -/
  | pageInvalidate (node : Nat) (page : Nat)
  /-- PAGE_PIN_WINDOW_END: A pin window ends and a quiet page is unpinned (R224). -/
  | pagePinWindowEnd (page : Nat)
  /-- PAGE_INVAL_TIMEOUT: An unacknowledged page invalidation times out and the node is removed (R452). -/
  | pageInvalTimeout (node : Nat) (page : Nat)
  /-- LOCK_TIMEOUT: A lock waiter's timeout expires at the home and it receives TIMEOUT (R239). -/
  | lockTimeout (w : Nat) (line : Nat)
  /-- WS_WAIT_TIMEOUT: A wait-set wait's timeout expires with TIMEOUT (R305). -/
  | wsWaitTimeout (w : Nat)
  /-- STARVE_AGING: A crew runnable for STARVELIM ticks sends STARVE and is boosted (R464). -/
  | starveAging (crew : Nat)
  /-- MX_OPERATION_START: A queued matrix operation starts, reading slots and index lists (R256). -/
  | mxOperationStart (core : Nat)
  /-- MX_OPERATION_PERFORMED: A matrix operation has written its region and its token falls (R256). -/
  | mxOperationPerformed (core : Nat)
  /-- MX_ZERO_PERFORM: A queued mx.zero clears accumulators, marks and row maps (R249). -/
  | mxZeroPerform (core : Nat)
  /-- DRAIN_START: A queued drain starts converting and writing accumulator elements (R259). -/
  | drainStart (core : Nat)
  /-- DRAIN_PERFORMED: A drain's writes are performed and its token and flags update (R260). -/
  | drainPerformed (core : Nat)
  /-- COPY_COMMAND_START: A copy command reaches its queue head and starts (R268). -/
  | copyCommandStart (core : Nat) (q : Nat)
  /-- COPY_COMMAND_PERFORMED: A copy's payload writes are performed at its token scope (R271). -/
  | copyCommandPerformed (core : Nat) (q : Nat)
  /-- COPY_SIGNAL_WRITE: A copy's signal word is written after its payload is performed (R274). -/
  | copySignalWrite (core : Nat) (q : Nat)
  /-- PLACE: The microcode places a candidate on a core, subject to hardware limits (R340). -/
  | place (die : Nat) (cand : Nat) (core : Nat)
  /-- MIGRATE: The microcode moves up to count crews between cores (R340). -/
  | migrate (die : Nat) (src : Nat) (dst : Nat) (count : Nat)
  /-- PREEMPT: The microcode pre-empts a named crew (R343). -/
  | preempt (die : Nat) (crew : Nat) (reason : Nat)
  /-- PREEMPT_PARTITION: The microcode pre-empts a core partition and exchanges it with the shadow banks (R340). -/
  | preemptPartition (die : Nat) (cluster : Nat) (mask : Nat)
  /-- DISTWDOG: A distributor hook exceeds WDOG cycles and the die is contained (R462). -/
  | distwdog (die : Nat)
  /-- DISTFAULT: The distributor core takes an exception and halts (R462). -/
  | distfault (die : Nat) (sub : Nat) (mepc : Nat)
  /-- MICROCODE_INSTALL: A verified microcode image installs at the next hook boundary (R356). -/
  | microcodeInstall (die : Nat) (ok : Bool) (image : List Byte)
  /-- PNEW: Command-window command creating a process from an entry image (R308). -/
  | pnew (who : Nat) (die : Nat) (arg0 : W64)
  /-- SUSPEND: Command-window command suspending a wave, crew or process (R308). -/
  | suspend (who : Nat) (die : Nat) (h : W64)
  /-- RESUME: Command-window command resuming suspended waves and lifting process containment (R398). -/
  | resume (who : Nat) (die : Nat) (h : W64)
  /-- KILL: Command-window command ending a wave or crew (R308). -/
  | kill (who : Nat) (die : Nat) (h : W64)
  /-- SHOOT: Command-window command issuing a shootdown (R308). -/
  | shoot (who : Nat) (die : Nat) (asn : W64) (addr : W64) (pages : W64) (flags : W64)
  /-- READ: Command-window command writing an object entry to memory (R308). -/
  | readCmd (who : Nat) (die : Nat) (h : W64) (pa : W64)
  /-- POOL: Command-window command adding frames to the pull frame pool (R308). -/
  | pool (who : Nat) (die : Nat) (pa : W64) (n : W64)
  /-- ORPHAN: Command-window command taking the oldest orphaned frame (R308). -/
  | orphan (who : Nat) (die : Nat)
  /-- UNKNOWN_COMMAND: A command code not in the table completes at once with BADDESC (R308). -/
  | unknownCommand (who : Nat) (die : Nat) (code : Nat)
  /-- GKICK: A write queues a replay of a graph, optionally patched (R336). -/
  | gkick (who : Nat) (die : Nat) (v : W64)
  /-- GLOAD: A write uploads a graph image into distributor SRAM (R335). -/
  | gload (who : Nat) (die : Nat) (v : W64)
  /-- TQREG: A write registers a QCB as a task-queue object (R333). -/
  | tqreg (who : Nat) (die : Nat) (v : W64)
  /-- LEASE_TAKE: A LEASE[1] write with TERM takes or renews an expiring lease (R350). -/
  | leaseTake (port : Nat) (term : Nat)
  /-- LEASE_TAKE_NOEXP: A LEASE[1] write with TERM 0 takes a lease without expiry when the other link is down (R350). -/
  | leaseTakeNoexp (port : Nat)
  /-- LEASE_RELEASE: A LEASE[1] write with RELEASE gives the lease up (R350). -/
  | leaseRelease (port : Nat)
  /-- LEASE_EXPIRY: The lease reaches EXPIRY or its holder's link drops and VALID clears (R466). -/
  | leaseExpiry (linkDown : Bool)
  /-- FMTWIN_WRITE: A format-window write checks the setting, flushes affected L2 lines and takes effect (R437). -/
  | fmtwinWrite (who : Nat) (die : Nat) (off : Nat) (v : W64)
  /-- PLIMIT_WRITE: A write of the package power limit, clamped and shared package-wide (R361). -/
  | plimitWrite (who : Nat) (die : Nat) (v : W64)
  /-- TRLOGN_WRITE: A write of the trace-ring size, clamped to 4 to 20 (R344). -/
  | trlognWrite (who : Nat) (die : Nat) (v : W64)
  /-- DLOAD: A write starts loading and verifying signed distributor microcode (R356). -/
  | dload (who : Nat) (die : Nat) (v : W64)
  /-- STROKE_WRITE: The elected die writes STROKE and dies adopt it (R354). -/
  | strokeWrite (who : Nat) (die : Nat) (v : W64)
  /-- HEARTBEAT_WRITE: A heartbeat write from the stroke die, dropped from any other die (R467). -/
  | heartbeatWrite (die : Nat) (src : Nat) (count : W32)
  /-- QREQ: A write requests a signed attestation quote (R357). -/
  | qreq (who : Nat) (die : Nat)
  /-- QUOTE_COMPLETE: The quote signature is ready in QBUF and DONE sets (R358). -/
  | quoteComplete (die : Nat) (sig : List Byte)
  /-- CONTCLR: A write ends the named containments and placement resumes (R469). -/
  | contclr (who : Nat) (die : Nat) (v : W64)
  /-- DIERESET: A write of 0xD1E5 resets the die, staling every handle (R482). -/
  | diereset (who : Nat) (die : Nat) (v : W64)
  /-- SAMPCTL_WRITE: A sampler control write restarts the sampling count (R373). -/
  | sampctlWrite (who : Nat) (core : Nat) (v : W64)
  /-- WDATA_ACCESS: A read or write of the wave state that WSEL selects (R371). -/
  | wdataAccess (who : Nat) (core : Nat) (write : Bool) (v : W64)
  /-- STOPREL: A DBGCTL write releasing the stop on every core of the cluster (R363). -/
  | stoprel (who : Nat) (core : Nat)
  /-- DBGCTL_RESUME: A DBGCTL write releasing named stopped wave slots (R363). -/
  | dbgctlResume (who : Nat) (core : Nat) (v : W32)
  /-- SNAPGO: A write pulls the common snapshot trigger (R374). -/
  | snapgo (who : Nat) (die : Nat)
  /-- SNAPCLR: A write frees the latched snapshot values (R374). -/
  | snapclr (who : Nat) (die : Nat)
  /-- REGISTER_WRITE: A write to a register with no behaviour of its own, checked against its writers (R347). -/
  | registerWrite (who : Nat) (die : Nat) (off : Nat) (v : W64)
  /-- ENTDAA: The I3C controller assigns the package's dynamic address (R359). -/
  | entdaa (addr : Nat)
  /-- SNAPTRIG: An I3C write of register 0x20 pulls the snapshot trigger (R359). -/
  | snaptrig 
  /-- QUOTE: An I3C access giving a nonce and returning quotes for each die (R359). -/
  | quote (nonce : List Byte)
  /-- FUNDAMENTAL_RESET: PERST# on a host port resets the package (R354). -/
  | fundamentalReset (port : Nat)
  /-- SELF_TEST_DONE: A die's self-test finishes (R353). -/
  | selfTestDone (die : Nat) (err : Nat)
  /-- FIRMWARE_VERIFY_DONE: A die finishes verifying its firmware copy and broadcasts PASS (R353). -/
  | firmwareVerifyDone (die : Nat) (err : Nat) (body : List Byte)
  /-- ELECTION_TIMEOUT: 20 ms after reset the die elects from the results received (R354). -/
  | electionTimeout (die : Nat)
  /-- HEARTBEAT_LAPSE: HEARTBEAT has not changed for HBLIM ticks and the lapse is broadcast (R467). -/
  | heartbeatLapse (die : Nat)
  /-- POWER_STEP_CHANGE: The service pairs change a die's PSTATE to hold average power within PLIMIT (R360). -/
  | powerStepChange (die : Nat) (step : Nat)
  /-- HOST_LINK_DOWN: A host port's link goes down (R477). -/
  | hostLinkDown (port : Nat)
  /-- SCRUB_TICK: The patrol scrubber reads the next granule every SCRUBINT ticks (R471). -/
  | scrubTick (die : Nat) (structure_ : Nat) (corrected : Bool) (addr : Nat)
  /-- RFPOISON: An uncorrectable register-file error poisons the word (R472). -/
  | rfpoison (w : Nat) (lane : Nat) (row : Nat)
  /-- SRAMUE: An uncorrectable SRAM error contains the cluster (R475). -/
  | sramue (die : Nat) (cluster : Nat) (structure_ : Nat) (bank : Nat)
  /-- LOCKSTEP: The two cores of a service pair disagree and the die is contained (R476). -/
  | lockstep (die : Nat) (sub : Nat)
  /-- LINKDOWN: An Odyohal link fails to retrain within the limit and is down (R477). -/
  | linkdown (die : Nat) (link : Nat)
  /-- MESH_EDGE_FAILURE: A die-to-die mesh edge fails and traffic is rerouted (R478). -/
  | meshEdgeFailure (die : Nat) (edge : Nat)
  /-- HBM_STACK_FAILURE: An HBM stack fails during operation and its die is contained (R479). -/
  | hbmStackFailure (die : Nat) (stack : Nat)
  /-- SYSTEM_CALL_REPLY: The operating service's reply to a sys.call arrives and unblocks the batch with OK and the reply value (R307). -/
  | systemCallReply (w : Nat) (value : W64)
  /-- LINK_FAILURE: An Odyohal link fails and begins retraining (R477). -/
  | linkFailure (link : Nat)
  /-- LINK_BROUGHT_UP: An Odyohal link is brought up again, and the node's RDC copies of pages removed from page state are invalidated (R452). -/
  | linkBroughtUp (link : Nat) (node : Nat)
  /-- THERMAL_POWER_ALERT: A thermal or power condition makes the package raise an I3C in-band interrupt (R359). -/
  | thermalPowerAlert 
  deriving DecidableEq, Repr

end Sys2Proof
end

