-- ==== Sys2Proof/Decode.lean ====
section
/-!
DEFINITION. Sys2Proof/Decode.lean: reading instruction words and writing them (spec/03_encoding_and_assembly.md R45-R57).
Decoding is total. It refuses only a V field of 2 or 3 and an unassigned opcode (R407); every other check is made when the
instruction issues.
-/

namespace Sys2Proof

/-- Why a word is no instruction (R407). -/
inductive Reject where
  /-- The V field is 2 or 3: ILLEGAL with SUB 1. -/
  | badV
  /-- The opcode is a dash of R56 or R57: ILLEGAL with SUB 0. -/
  | unassigned
  deriving DecidableEq, Repr

/-- A bit field of a word as a number. -/
def fieldN (w : W32) (lo width : Nat) : Nat := w.toNat / 2 ^ lo % 2 ^ width

/-- The common fields SET, S, V and OP of an instruction word (R45, R46). -/
def wordSet (w : W32) : Nat := fieldN w 31 1
def wordS (w : W32) : Bool := fieldN w 30 1 == 1
def wordV (w : W32) : Nat := fieldN w 28 2
def wordOp (w : W32) : Nat := fieldN w 21 7

/-- A lane operand field that reads the operand word (R53). -/
def laneUsesOw (c : BitVec 6) : Bool := c == 0x3A#6 || c == 0x3B#6

/-- Whether an LR instruction carries an operand word (R53): its A and B codes decide, whatever its opcode makes of those fields, and D never
does. For a field that is unused, or names a predicate, that is the model's reading (log 74). -/
def LR.usesOw (f : LR) : Bool := laneUsesOw f.a || laneUsesOw f.b

/-- Whether a GR instruction carries an operand word: B selects XW (R52, R53). -/
def GR.usesOw (f : GR) : Bool := f.b == 0x080#9

/-- The top bits of an instruction word. -/
def headN (set : Nat) (s v1 : Bool) (op : Nat) : Nat :=
  set * 2 ^ 31 + s.toNat * 2 ^ 30 + v1.toNat * 2 ^ 28 + op * 2 ^ 21

/-- The words of an instruction's formats (R46). -/
def LR.pack (f : LR) (op : Nat) : W32 :=
  BitVec.ofNat 32 (headN 0 f.s f.v1 op + f.g.toNat * 2 ^ 18 + f.d.toNat * 2 ^ 12 + f.a.toNat * 2 ^ 6 + f.b.toNat)
def LB.pack (f : LB) (op : Nat) : W32 :=
  BitVec.ofNat 32 (headN 0 f.s f.v1 op + f.g.toNat * 2 ^ 18 + f.off.toNat)
def GR.pack (f : GR) (op : Nat) : W32 :=
  BitVec.ofNat 32 (headN 1 f.s f.v1 op + f.d.toNat * 2 ^ 15 + f.a.toNat * 2 ^ 9 + f.b.toNat)
def GJ.pack (f : GJ) (op : Nat) : W32 :=
  BitVec.ofNat 32 (headN 1 f.s f.v1 op + f.off.toNat)
def GC.pack (f : GC) (op : Nat) : W32 :=
  BitVec.ofNat 32 (headN 1 f.s f.v1 op + f.a.toNat * 2 ^ 15 + f.off.toNat)

/-- The fields of a word; the extension words are the words after it where the instruction has them (R53). -/
def LR.unpack (w w1 w2 : W32) (hasX : Bool) : LR :=
  let a := BitVec.ofNat 6 (fieldN w 6 6)
  let b := BitVec.ofNat 6 (fieldN w 0 6)
  let o := laneUsesOw a || laneUsesOw b
  { s := wordS w, v1 := wordV w == 1, g := BitVec.ofNat 3 (fieldN w 18 3), d := BitVec.ofNat 6 (fieldN w 12 6)
    a := a, b := b
    x := if hasX then w1 else 0#32
    ow := if o then (if hasX then w2 else w1) else 0#32 }
def LB.unpack (w : W32) : LB :=
  { s := wordS w, v1 := wordV w == 1, g := BitVec.ofNat 3 (fieldN w 18 3), off := BitVec.ofNat 18 (fieldN w 0 18) }
def GR.unpack (w w1 w2 : W32) (hasX : Bool) : GR :=
  let b := BitVec.ofNat 9 (fieldN w 0 9)
  { s := wordS w, v1 := wordV w == 1, d := BitVec.ofNat 6 (fieldN w 15 6), a := BitVec.ofNat 6 (fieldN w 9 6), b := b
    x := if hasX then w1 else 0#32
    ow := if b == 0x080#9 then (if hasX then w2 else w1) else 0#32 }
def GJ.unpack (w : W32) : GJ := { s := wordS w, v1 := wordV w == 1, off := BitVec.ofNat 21 (fieldN w 0 21) }
def GC.unpack (w : W32) : GC :=
  { s := wordS w, v1 := wordV w == 1, a := BitVec.ofNat 6 (fieldN w 15 6), off := BitVec.ofNat 15 (fieldN w 0 15) }

/-- The lane opcodes that carry an opcode word (R54, R59). -/
def laneHasX (op : Nat) : Bool :=
  [0x05, 0x14, 0x25, 0x2B, 0x32, 0x3A, 0x3D, 0x40, 0x41, 0x42, 0x50, 0x51, 0x52, 0x53, 0x54, 0x55, 0x56, 0x57, 0x58, 0x59, 0x5A, 0x5B, 0x5C, 0x60, 0x61, 0x62, 0x63, 0x64, 0x65, 0x66, 0x67].contains op

/-- The uniform opcodes that carry an opcode word (R54, R59). -/
def uniHasX (op : Nat) : Bool :=
  [0x0E, 0x0F, 0x10, 0x28, 0x29, 0x2A, 0x30, 0x31, 0x32, 0x33, 0x66, 0x68, 0x69, 0x6B, 0x6E, 0x70].contains op

/-- The lane instruction of an opcode other than brp (R56). -/
def laneInstr (op : Nat) (f : LR) : Option Instr :=
  match op with
  | 0x00 => some (.add f)
  | 0x01 => some (.sub f)
  | 0x02 => some (.mulLo f)
  | 0x03 => some (.mulHiI32 f)
  | 0x04 => some (.mulHiN32 f)
  | 0x05 => some (.madLo f)
  | 0x06 => some (.minI32 f)
  | 0x07 => some (.minN32 f)
  | 0x08 => some (.maxI32 f)
  | 0x09 => some (.maxN32 f)
  | 0x0A => some (.abs f)
  | 0x0B => some (.and f)
  | 0x0C => some (.or f)
  | 0x0D => some (.xor f)
  | 0x0E => some (.andn f)
  | 0x0F => some (.shl f)
  | 0x10 => some (.shr f)
  | 0x11 => some (.sra f)
  | 0x12 => some (.rot f)
  | 0x13 => some (.bfe f)
  | 0x14 => some (.bfi f)
  | 0x15 => some (.popc f)
  | 0x16 => some (.clz f)
  | 0x17 => some (.brev f)
  | 0x18 => some (.addI64 f)
  | 0x19 => some (.subI64 f)
  | 0x1A => some (.mulWideI32 f)
  | 0x1B => some (.mulWideN32 f)
  | 0x1C => some (.divI32 f)
  | 0x1D => some (.divN32 f)
  | 0x1E => some (.remI32 f)
  | 0x1F => some (.remN32 f)
  | 0x20 => some (.cmpI32 f)
  | 0x21 => some (.cmpN32 f)
  | 0x22 => some (.cmpF32 f)
  | 0x23 => some (.cmpF64 f)
  | 0x24 => some (.pr f)
  | 0x25 => some (.sel f)
  | 0x26 => some (.mov f)
  | 0x28 => some (.addF32 f)
  | 0x29 => some (.subF32 f)
  | 0x2A => some (.mulF32 f)
  | 0x2B => some (.fmaF32 f)
  | 0x2C => some (.minF32 f)
  | 0x2D => some (.maxF32 f)
  | 0x2E => some (.absF32 f)
  | 0x2F => some (.negF32 f)
  | 0x30 => some (.addF64 f)
  | 0x31 => some (.mulF64 f)
  | 0x32 => some (.fmaF64 f)
  | 0x33 => some (.minF64 f)
  | 0x34 => some (.maxF64 f)
  | 0x38 => some (.add2Bf16 f)
  | 0x39 => some (.mul2Bf16 f)
  | 0x3A => some (.fma2Bf16 f)
  | 0x3B => some (.add2F16 f)
  | 0x3C => some (.mul2F16 f)
  | 0x3D => some (.fma2F16 f)
  | 0x40 => some (.cvt f)
  | 0x41 => some (.packP8 f)
  | 0x42 => some (.unpackP8 f)
  | 0x48 => some (.rcpF32 f)
  | 0x49 => some (.rsqF32 f)
  | 0x4A => some (.sqrtF32 f)
  | 0x4B => some (.ex2F32 f)
  | 0x4C => some (.lg2F32 f)
  | 0x4D => some (.sinPiF32 f)
  | 0x4E => some (.cosPiF32 f)
  | 0x4F => some (.tanhF32 f)
  | 0x50 => some (.shflIdx f)
  | 0x51 => some (.shflUp f)
  | 0x52 => some (.shflDown f)
  | 0x53 => some (.shflXor f)
  | 0x54 => some (.voteAny f)
  | 0x55 => some (.voteAll f)
  | 0x56 => some (.voteBallot f)
  | 0x57 => some (.reduxAdd f)
  | 0x58 => some (.reduxMin f)
  | 0x59 => some (.reduxMax f)
  | 0x5A => some (.matchB32 f)
  | 0x5B => some (.histAdd f)
  | 0x5C => some (.histMerge f)
  | 0x60 => some (.ld f)
  | 0x61 => some (.st f)
  | 0x62 => some (.ldPoll f)
  | 0x63 => some (.atom f)
  | 0x64 => some (.atomNr f)
  | 0x65 => some (.cas128 f)
  | 0x66 => some (.ldp f)
  | 0x67 => some (.pf f)
  | 0x71 => some (.winAdv f)
  | 0x72 => some (.vget f)
  | 0x73 => some (.vset f)
  | _ => none

/-- The uniform instruction of an opcode in format GR (R57); pairs on one opcode are told apart by the opcode word or by B. -/
def uniInstr (op : Nat) (f : GR) : Option Instr :=
  match op with
  | 0x00 => some (.sAdd f)
  | 0x01 => some (.sSub f)
  | 0x02 => some (.sMul f)
  | 0x03 => some (.sAnd f)
  | 0x04 => some (.sOr f)
  | 0x05 => some (.sXor f)
  | 0x06 => some (.sShl f)
  | 0x07 => some (.sShr f)
  | 0x08 => some (.sSra f)
  | 0x09 => some (.sMinI64 f)
  | 0x0A => some (.sMinN64 f)
  | 0x0B => some (.sMaxI64 f)
  | 0x0C => some (.sMaxN64 f)
  | 0x0D => some (.sMov f)
  | 0x0E => some (.sCmpI64 f)
  | 0x0F => some (.sCmpN64 f)
  | 0x10 => some (.sSel f)
  | 0x1D => some (.jmp f)
  | 0x1F => some (.fibEnd f)
  | 0x20 => some (.mkJoin f)
  | 0x21 => some (.mkLeave f)
  | 0x22 => some (.mkWait f)
  | 0x23 => if f.b == 0x101#9 then some (.mkMovFromMask f) else some (.mkMovToMask f)
  | 0x24 => some (.mkCur f)
  | 0x28 => some (.sld f)
  | 0x29 => some (.sst f)
  | 0x2A => some (.satom f)
  | 0x2B => some (.fenceRel f)
  | 0x2C => some (.fenceAcq f)
  | 0x2D => some (.fenceAr f)
  | 0x2E => some (.ecBind f)
  | 0x2F => some (.ecDrop f)
  | 0x30 => some (.waitAddr f)
  | 0x31 => some (.futInit f)
  | 0x32 => some (.futRd f)
  | 0x33 => some (.futWr f)
  | 0x38 => some (.crewJoin f)
  | 0x39 => some (.crewLeave f)
  | 0x3A => some (.nbArrive f)
  | 0x3B => some (.nbSync f)
  | 0x3C => some (.nbWait f)
  | 0x3D => some (.plCfg f)
  | 0x3E => if 0x104 ≤ f.b.toNat ∧ f.b.toNat ≤ 0x107 then some (.plJoinDrop f) else some (.plJoin f)
  | 0x3F => some (.step f)
  | 0x40 => some (.lkAcq f)
  | 0x41 => some (.lkTry f)
  | 0x42 => some (.lkRel f)
  | 0x48 => some (.mxGang f)
  | 0x49 => some (.mxIssue f)
  | 0x4A => some (.mxDrain f)
  | 0x4B => some (.mxZero f)
  | 0x4C => some (.omClaim f)
  | 0x4D => some (.omRel f)
  | 0x58 => some (.cpIssue f)
  | 0x59 => some (.tokWait f)
  | 0x5A => some (.tokTest f)
  | 0x5B => some (.qBind f)
  | 0x5C => some (.qPop f)
  | 0x5D => some (.qFree f)
  | 0x5E => some (.eqFence f)
  | 0x60 => some (.wvNew f)
  | 0x61 => some (.wvExit f)
  | 0x62 => some (.wvJoin f)
  | 0x63 => some (.wvYield f)
  | 0x64 => some (.wvPrio f)
  | 0x65 => some (.hDup f)
  | 0x66 => if f.x.getLsbD 0 then some (.hInfo f) else some (.hClose f)
  | 0x67 => some (.wsNew f)
  | 0x68 => if f.x.getLsbD 0 then some (.wsDel f) else some (.wsAdd f)
  | 0x69 => if f.x.getLsbD 0 then some (.wsPoll f) else some (.wsWait f)
  | 0x6A => some (.tmNew f)
  | 0x6B => if f.x.getLsbD 0 then some (.tmStop f) else some (.tmArm f)
  | 0x6C => some (.ptNew f)
  | 0x6D => some (.ptSend f)
  | 0x6E => if f.x.getLsbD 0 then some (.ptTry f) else some (.ptRecv f)
  | 0x6F => some (.pgPull f)
  | 0x70 => if f.x.getLsbD 0 then some (.nmDrop f) else some (.nmPub f)
  | 0x71 => some (.nmLook f)
  | 0x72 => some (.tqPush f)
  | 0x73 => some (.sysCall f)
  | 0x74 => some (.srRd f)
  | 0x75 => some (.srWr f)
  | 0x76 => some (.nop f)
  | 0x77 => some (.trap f)
  | 0x78 => some (.brk f)
  | 0x79 => some (.rfe f)
  | 0x7A => some (.dbgRd f)
  | 0x7B => some (.dbgWr f)
  | _ => none

/-- The uniform instruction of an opcode in format GJ or GC (R46, R57). -/
def branchInstr (op : Nat) (w : W32) : Option Instr :=
  match op with
  | 0x18 => some (.br (GJ.unpack w))
  | 0x19 => some (.bz (GC.unpack w))
  | 0x1A => some (.bnz (GC.unpack w))
  | 0x1B => some (.bneg (GC.unpack w))
  | 0x1C => some (.call (GJ.unpack w))
  | 0x1E => some (.fibSpawn (GC.unpack w))
  | _ => none

/-- The instruction of a word and the two words after it. -/
def decode (w w1 w2 : W32) : Except Reject Instr :=
  if wordV w ≥ 2 then .error .badV
  else
    let op := wordOp w
    let r :=
      if wordSet w = 0 then
        (if op = 0x70 then some (.brp (LB.unpack w)) else laneInstr op (LR.unpack w w1 w2 (laneHasX op)))
      else
        match branchInstr op w with
        | some i => some i
        | none => uniInstr op (GR.unpack w w1 w2 (uniHasX op))
    match r with
    | some i => .ok i
    | none => .error .unassigned

/-- An instruction as its format, opcode and fields; an event has none. -/
inductive Raw where
  | lr (op : Nat) (f : LR)
  | lb (op : Nat) (f : LB)
  | gr (op : Nat) (f : GR)
  | gj (op : Nat) (f : GJ)
  | gc (op : Nat) (f : GC)
  | event
  deriving DecidableEq, Repr

/-- The format and opcode of every instruction (R46, R56, R57). -/
def Instr.raw : Instr → Raw
  | .add f => .lr 0x00 f
  | .sub f => .lr 0x01 f
  | .mulLo f => .lr 0x02 f
  | .mulHiI32 f => .lr 0x03 f
  | .mulHiN32 f => .lr 0x04 f
  | .madLo f => .lr 0x05 f
  | .minI32 f => .lr 0x06 f
  | .minN32 f => .lr 0x07 f
  | .maxI32 f => .lr 0x08 f
  | .maxN32 f => .lr 0x09 f
  | .abs f => .lr 0x0A f
  | .and f => .lr 0x0B f
  | .or f => .lr 0x0C f
  | .xor f => .lr 0x0D f
  | .andn f => .lr 0x0E f
  | .shl f => .lr 0x0F f
  | .shr f => .lr 0x10 f
  | .sra f => .lr 0x11 f
  | .rot f => .lr 0x12 f
  | .bfe f => .lr 0x13 f
  | .bfi f => .lr 0x14 f
  | .popc f => .lr 0x15 f
  | .clz f => .lr 0x16 f
  | .brev f => .lr 0x17 f
  | .addI64 f => .lr 0x18 f
  | .subI64 f => .lr 0x19 f
  | .mulWideI32 f => .lr 0x1A f
  | .mulWideN32 f => .lr 0x1B f
  | .divI32 f => .lr 0x1C f
  | .divN32 f => .lr 0x1D f
  | .remI32 f => .lr 0x1E f
  | .remN32 f => .lr 0x1F f
  | .cmpI32 f => .lr 0x20 f
  | .cmpN32 f => .lr 0x21 f
  | .cmpF32 f => .lr 0x22 f
  | .cmpF64 f => .lr 0x23 f
  | .pr f => .lr 0x24 f
  | .sel f => .lr 0x25 f
  | .mov f => .lr 0x26 f
  | .addF32 f => .lr 0x28 f
  | .subF32 f => .lr 0x29 f
  | .mulF32 f => .lr 0x2A f
  | .fmaF32 f => .lr 0x2B f
  | .minF32 f => .lr 0x2C f
  | .maxF32 f => .lr 0x2D f
  | .absF32 f => .lr 0x2E f
  | .negF32 f => .lr 0x2F f
  | .addF64 f => .lr 0x30 f
  | .mulF64 f => .lr 0x31 f
  | .fmaF64 f => .lr 0x32 f
  | .minF64 f => .lr 0x33 f
  | .maxF64 f => .lr 0x34 f
  | .add2Bf16 f => .lr 0x38 f
  | .mul2Bf16 f => .lr 0x39 f
  | .fma2Bf16 f => .lr 0x3A f
  | .add2F16 f => .lr 0x3B f
  | .mul2F16 f => .lr 0x3C f
  | .fma2F16 f => .lr 0x3D f
  | .cvt f => .lr 0x40 f
  | .packP8 f => .lr 0x41 f
  | .unpackP8 f => .lr 0x42 f
  | .rcpF32 f => .lr 0x48 f
  | .rsqF32 f => .lr 0x49 f
  | .sqrtF32 f => .lr 0x4A f
  | .ex2F32 f => .lr 0x4B f
  | .lg2F32 f => .lr 0x4C f
  | .sinPiF32 f => .lr 0x4D f
  | .cosPiF32 f => .lr 0x4E f
  | .tanhF32 f => .lr 0x4F f
  | .shflIdx f => .lr 0x50 f
  | .shflUp f => .lr 0x51 f
  | .shflDown f => .lr 0x52 f
  | .shflXor f => .lr 0x53 f
  | .voteAny f => .lr 0x54 f
  | .voteAll f => .lr 0x55 f
  | .voteBallot f => .lr 0x56 f
  | .reduxAdd f => .lr 0x57 f
  | .reduxMin f => .lr 0x58 f
  | .reduxMax f => .lr 0x59 f
  | .matchB32 f => .lr 0x5A f
  | .histAdd f => .lr 0x5B f
  | .histMerge f => .lr 0x5C f
  | .ld f => .lr 0x60 f
  | .st f => .lr 0x61 f
  | .ldPoll f => .lr 0x62 f
  | .atom f => .lr 0x63 f
  | .atomNr f => .lr 0x64 f
  | .cas128 f => .lr 0x65 f
  | .ldp f => .lr 0x66 f
  | .pf f => .lr 0x67 f
  | .brp f => .lb 0x70 f
  | .winAdv f => .lr 0x71 f
  | .vget f => .lr 0x72 f
  | .vset f => .lr 0x73 f
  | .sAdd f => .gr 0x00 f
  | .sSub f => .gr 0x01 f
  | .sMul f => .gr 0x02 f
  | .sAnd f => .gr 0x03 f
  | .sOr f => .gr 0x04 f
  | .sXor f => .gr 0x05 f
  | .sShl f => .gr 0x06 f
  | .sShr f => .gr 0x07 f
  | .sSra f => .gr 0x08 f
  | .sMinI64 f => .gr 0x09 f
  | .sMinN64 f => .gr 0x0A f
  | .sMaxI64 f => .gr 0x0B f
  | .sMaxN64 f => .gr 0x0C f
  | .sMov f => .gr 0x0D f
  | .sCmpI64 f => .gr 0x0E f
  | .sCmpN64 f => .gr 0x0F f
  | .sSel f => .gr 0x10 f
  | .br f => .gj 0x18 f
  | .bz f => .gc 0x19 f
  | .bnz f => .gc 0x1A f
  | .bneg f => .gc 0x1B f
  | .call f => .gj 0x1C f
  | .jmp f => .gr 0x1D f
  | .fibSpawn f => .gc 0x1E f
  | .fibEnd f => .gr 0x1F f
  | .mkJoin f => .gr 0x20 f
  | .mkLeave f => .gr 0x21 f
  | .mkWait f => .gr 0x22 f
  | .mkMovToMask f => .gr 0x23 f
  | .mkMovFromMask f => .gr 0x23 f
  | .mkCur f => .gr 0x24 f
  | .sld f => .gr 0x28 f
  | .sst f => .gr 0x29 f
  | .satom f => .gr 0x2A f
  | .fenceRel f => .gr 0x2B f
  | .fenceAcq f => .gr 0x2C f
  | .fenceAr f => .gr 0x2D f
  | .ecBind f => .gr 0x2E f
  | .ecDrop f => .gr 0x2F f
  | .waitAddr f => .gr 0x30 f
  | .futInit f => .gr 0x31 f
  | .futRd f => .gr 0x32 f
  | .futWr f => .gr 0x33 f
  | .crewJoin f => .gr 0x38 f
  | .crewLeave f => .gr 0x39 f
  | .nbArrive f => .gr 0x3A f
  | .nbSync f => .gr 0x3B f
  | .nbWait f => .gr 0x3C f
  | .plCfg f => .gr 0x3D f
  | .plJoin f => .gr 0x3E f
  | .plJoinDrop f => .gr 0x3E f
  | .step f => .gr 0x3F f
  | .lkAcq f => .gr 0x40 f
  | .lkTry f => .gr 0x41 f
  | .lkRel f => .gr 0x42 f
  | .mxGang f => .gr 0x48 f
  | .mxIssue f => .gr 0x49 f
  | .mxDrain f => .gr 0x4A f
  | .mxZero f => .gr 0x4B f
  | .omClaim f => .gr 0x4C f
  | .omRel f => .gr 0x4D f
  | .cpIssue f => .gr 0x58 f
  | .tokWait f => .gr 0x59 f
  | .tokTest f => .gr 0x5A f
  | .qBind f => .gr 0x5B f
  | .qPop f => .gr 0x5C f
  | .qFree f => .gr 0x5D f
  | .eqFence f => .gr 0x5E f
  | .wvNew f => .gr 0x60 f
  | .wvExit f => .gr 0x61 f
  | .wvJoin f => .gr 0x62 f
  | .wvYield f => .gr 0x63 f
  | .wvPrio f => .gr 0x64 f
  | .hDup f => .gr 0x65 f
  | .hClose f => .gr 0x66 f
  | .hInfo f => .gr 0x66 f
  | .wsNew f => .gr 0x67 f
  | .wsAdd f => .gr 0x68 f
  | .wsDel f => .gr 0x68 f
  | .wsWait f => .gr 0x69 f
  | .wsPoll f => .gr 0x69 f
  | .tmNew f => .gr 0x6A f
  | .tmArm f => .gr 0x6B f
  | .tmStop f => .gr 0x6B f
  | .ptNew f => .gr 0x6C f
  | .ptSend f => .gr 0x6D f
  | .ptRecv f => .gr 0x6E f
  | .ptTry f => .gr 0x6E f
  | .pgPull f => .gr 0x6F f
  | .nmPub f => .gr 0x70 f
  | .nmDrop f => .gr 0x70 f
  | .nmLook f => .gr 0x71 f
  | .tqPush f => .gr 0x72 f
  | .sysCall f => .gr 0x73 f
  | .srRd f => .gr 0x74 f
  | .srWr f => .gr 0x75 f
  | .nop f => .gr 0x76 f
  | .trap f => .gr 0x77 f
  | .brk f => .gr 0x78 f
  | .rfe f => .gr 0x79 f
  | .dbgRd f => .gr 0x7A f
  | .dbgWr f => .gr 0x7B f
  | .runStart _ => .event
  | .varResultReturn _ _ => .event
  | .unassignedOpcode _ _ _ => .event
  | .writeRefusalArrival _ _ _ => .event
  | .ldPollReread _ _ => .event
  | .ackArrival _ => .event
  | .portMessageEnqueue _ _ _ _ => .event
  | .futureOpAtHome _ _ _ _ _ _ _ _ _ _ _ => .event
  | .lockRequestAtHome _ _ _ _ _ _ => .event
  | .lockReleaseAtHome _ _ => .event
  | .lockGrantArrival _ _ _ => .event
  | .nonholderWriteAtHome _ _ _ => .event
  | .nameOpAtAuthority _ _ _ _ _ => .event
  | .nameCacheInvalidate _ _ _ => .event
  | .shootdownRequest _ _ => .event
  | .shootdownComplete _ => .event
  | .shadowSwapDone _ => .event
  | .caveRestoreDone _ => .event
  | .sampleRecordWrite _ _ => .event
  | .watchRemoteEntry _ _ _ _ _ _ => .event
  | .stopEffect _ => .event
  | .snapshotLatch _ => .event
  | .taskComplete _ _ _ _ _ _ _ => .event
  | .zeroLengthReadCompletion _ _ => .event
  | .bisnpResponse _ => .event
  | .writeBack _ _ => .event
  | .writeBackAck _ _ => .event
  | .passBroadcast _ _ _ => .event
  | .lapseBroadcast _ _ => .event
  | .pgPullPageDone _ => .event
  | .queueRecordTake _ => .event
  | .onReady _ => .event
  | .onSlotFree _ => .event
  | .onPreemptRequest _ _ _ => .event
  | .onBalance _ => .event
  | .launchPortRecordLaunch _ => .event
  | .debugEntryBpc _ => .event
  | .omClaimGrant _ => .event
  | .readForOwnership _ _ => .event
  | .upgrade _ _ => .event
  | .dieReset _ => .event
  | .crewPlacement _ => .event
  | .crewDeschedule _ => .event
  | .graphReplayStart _ _ => .event
  | .timerExpiry _ => .event
  | .pageWalkComplete _ _ _ => .event
  | .l1EarlyWriteback _ _ _ => .event
  | .clusterWindowAccess _ _ _ _ => .event
  | .routerAtomicArrival _ _ _ _ => .event
  | .ackTimeout _ => .event
  | .readShared _ _ => .event
  | .recallArrival _ => .event
  | .hostSnoop _ _ => .event
  | .hostCxlMemRead _ _ => .event
  | .hostCxlMemWrite _ _ => .event
  | .hostBar2Read _ _ _ => .event
  | .hostBar2Write _ _ _ => .event
  | .hostAtomicop _ _ _ _ _ _ => .event
  | .remotePageRead _ _ => .event
  | .remotePageWrite _ _ _ => .event
  | .remotePageAtomic _ _ _ _ _ _ => .event
  | .pageInvalidate _ _ => .event
  | .pagePinWindowEnd _ => .event
  | .pageInvalTimeout _ _ => .event
  | .lockTimeout _ _ => .event
  | .wsWaitTimeout _ => .event
  | .starveAging _ => .event
  | .mxOperationStart _ => .event
  | .mxOperationPerformed _ => .event
  | .mxZeroPerform _ => .event
  | .drainStart _ => .event
  | .drainPerformed _ => .event
  | .copyCommandStart _ _ => .event
  | .copyCommandPerformed _ _ => .event
  | .copySignalWrite _ _ => .event
  | .place _ _ _ => .event
  | .migrate _ _ _ _ => .event
  | .preempt _ _ _ => .event
  | .preemptPartition _ _ _ => .event
  | .distwdog _ => .event
  | .distfault _ _ _ => .event
  | .microcodeInstall _ _ _ => .event
  | .pnew _ _ _ => .event
  | .suspend _ _ _ => .event
  | .resume _ _ _ => .event
  | .kill _ _ _ => .event
  | .shoot _ _ _ _ _ _ => .event
  | .readCmd _ _ _ _ => .event
  | .pool _ _ _ _ => .event
  | .orphan _ _ => .event
  | .unknownCommand _ _ _ => .event
  | .gkick _ _ _ => .event
  | .gload _ _ _ => .event
  | .tqreg _ _ _ => .event
  | .leaseTake _ _ => .event
  | .leaseTakeNoexp _ => .event
  | .leaseRelease _ => .event
  | .leaseExpiry _ => .event
  | .fmtwinWrite _ _ _ _ => .event
  | .plimitWrite _ _ _ => .event
  | .trlognWrite _ _ _ => .event
  | .dload _ _ _ => .event
  | .strokeWrite _ _ _ => .event
  | .heartbeatWrite _ _ _ => .event
  | .qreq _ _ => .event
  | .quoteComplete _ _ => .event
  | .contclr _ _ _ => .event
  | .diereset _ _ _ => .event
  | .sampctlWrite _ _ _ => .event
  | .wdataAccess _ _ _ _ => .event
  | .stoprel _ _ => .event
  | .dbgctlResume _ _ _ => .event
  | .snapgo _ _ => .event
  | .snapclr _ _ => .event
  | .registerWrite _ _ _ _ => .event
  | .entdaa _ => .event
  | .snaptrig => .event
  | .quote _ => .event
  | .fundamentalReset _ => .event
  | .selfTestDone _ _ => .event
  | .firmwareVerifyDone _ _ _ => .event
  | .electionTimeout _ => .event
  | .heartbeatLapse _ => .event
  | .powerStepChange _ _ => .event
  | .hostLinkDown _ => .event
  | .scrubTick _ _ _ _ => .event
  | .rfpoison _ _ _ => .event
  | .sramue _ _ _ _ => .event
  | .lockstep _ _ => .event
  | .linkdown _ _ => .event
  | .meshEdgeFailure _ _ => .event
  | .hbmStackFailure _ _ => .event
  | .systemCallReply _ _ => .event
  | .linkFailure _ => .event
  | .linkBroughtUp _ _ => .event
  | .thermalPowerAlert => .event

/-- The words of an instruction: the instruction word, the opcode word, the operand word (R53). -/
def Raw.words : Raw → List W32
  | .lr op f => f.pack op :: ((if laneHasX op then [f.x] else []) ++ (if f.usesOw then [f.ow] else []))
  | .lb op f => [f.pack op]
  | .gr op f => f.pack op :: ((if uniHasX op then [f.x] else []) ++ (if f.usesOw then [f.ow] else []))
  | .gj op f => [f.pack op]
  | .gc op f => [f.pack op]
  | .event => []

/-- The encoder: the words of an instruction; an event has none. -/
def encode (i : Instr) : List W32 := i.raw.words

/-- Decode a list of words; missing words read 0. -/
def decodeWords (ws : List W32) : Except Reject Instr := decode (ws.getD 0 0#32) (ws.getD 1 0#32) (ws.getD 2 0#32)

/-- Whether the row has an encoding. -/
def Instr.encodable (i : Instr) : Bool := i.raw != .event

/-- The S bit of an instruction word (R45). -/
def Instr.sBit (i : Instr) : Bool :=
  match i.raw with
  | .lr _ f => f.s
  | .lb _ f => f.s
  | .gr _ f => f.s
  | .gj _ f => f.s
  | .gc _ f => f.s
  | .event => false

/-- Whether the V field is 1: interlocked (R33). -/
def Instr.v1 (i : Instr) : Bool :=
  match i.raw with
  | .lr _ f => f.v1
  | .lb _ f => f.v1
  | .gr _ f => f.v1
  | .gj _ f => f.v1
  | .gc _ f => f.v1
  | .event => false

/-- The host's numbering of an instruction's bits: bit 0 is the lowest bit of the first word. -/
def decodeTableWord (_nbits w : Nat) : Option Instr :=
  match decode (BitVec.ofNat 32 w) (BitVec.ofNat 32 (w / 2 ^ 32)) (BitVec.ofNat 32 (w / 2 ^ 64)) with
  | .ok i => some i
  | .error _ => none

end Sys2Proof
end

