-- ==== Sys2Proof/Machine/Table.lean ====
section
/-!
DEFINITION. Sys2Proof/Machine/Table.lean: sparse tables of plain data, keyed by a number. The state keeps every
collection of the spec (register files, waves, crews, lock tables ...) in one of these: an entry that is not
listed reads as the caller's default.
-/

namespace Sys2Proof.Machine

/-- A sparse table: a list of (key, value), the first entry of a key counts. -/
abbrev Tab (α : Type) := List (Nat × α)

/-- The entry of a key. -/
def Tab.get? {α : Type} : Tab α → Nat → Option α
  | [], _ => none
  | (k, v) :: t, n => if k = n then some v else Tab.get? t n

/-- The entry of a key, or a default. -/
def Tab.getD {α : Type} (t : Tab α) (n : Nat) (d : α) : α := (Tab.get? t n).getD d

/-- Write the entry of a key: replaced where it stands, otherwise added at the end. -/
def Tab.set {α : Type} : Tab α → Nat → α → Tab α
  | [], n, a => [(n, a)]
  | (k, v) :: t, n, a => if k = n then (n, a) :: t else (k, v) :: Tab.set t n a

/-- Remove every entry of a key. -/
def Tab.del {α : Type} : Tab α → Nat → Tab α
  | [], _ => []
  | (k, v) :: t, n => if k = n then Tab.del t n else (k, v) :: Tab.del t n

/-- Change the entry of a key, if there is one. -/
def Tab.mod {α : Type} (t : Tab α) (n : Nat) (f : α → α) : Tab α :=
  match Tab.get? t n with
  | none => t
  | some v => Tab.set t n (f v)

/-- Change the entry of a key, starting from a default if there is none. -/
def Tab.modD {α : Type} (t : Tab α) (n : Nat) (d : α) (f : α → α) : Tab α :=
  Tab.set t n (f (Tab.getD t n d))

/-- The keys of a table. -/
def Tab.keys {α : Type} (t : Tab α) : List Nat := t.map (fun e => e.1)

/-- Insert a number into a set of numbers kept without repeats. -/
def insertSet (l : List Nat) (n : Nat) : List Nat := if l.contains n then l else l ++ [n]

/-- The lowest number from `lo`, among `n` candidates, that passes a test. -/
def lowest (lo : Nat) (test : Nat → Bool) : Nat → Option Nat
  | 0 => none
  | n + 1 => if test lo then some lo else lowest (lo + 1) test n

/-- The least element of a list of numbers. -/
def minList : List Nat → Option Nat
  | [] => none
  | a :: t => match minList t with
    | none => some a
    | some b => some (if a ≤ b then a else b)

/-- The first element whose image is least. -/
def minBy {α : Type} (f : α → Nat) : List α → Option α
  | [] => none
  | a :: t => match minBy f t with
    | none => some a
    | some b => some (if f a ≤ f b then a else b)

/-- Bits [hi:lo] of a number. -/
def bits (n hi lo : Nat) : Nat := (n >>> lo) % 2 ^ (hi + 1 - lo)

/-- One bit of a number. -/
def bitOf (n i : Nat) : Bool := n.testBit i

/-- Replace the bits of `old` that `mask` names by those of `new`. -/
def mergeBits (old new mask : Nat) : Nat := (old ^^^ (old &&& mask)) ||| (new &&& mask)

/-- The smallest multiple count: n divided by d, rounded up. -/
def ceilDiv (n d : Nat) : Nat := (n + d - 1) / d

/-- Sign-extend the low `w` bits of a number to an integer. -/
def sextN (n w : Nat) : Int :=
  let m := n % 2 ^ w
  if m.testBit (w - 1) then (m : Int) - (2 ^ w : Nat) else (m : Int)

/-- A 0/1 number of a truth value. -/
def b2n (b : Bool) : Nat := if b then 1 else 0

/-- Set bit `i` of a mask. -/
def setBit64 (m : W64) (i : Nat) : W64 := m ||| (1#64 <<< i)

/-- Clear bit `i` of a mask. -/
def clearBit64 (m : W64) (i : Nat) : W64 := m &&& ~~~(1#64 <<< i)

/-- The mask of a list of lanes. -/
def maskOf (l : List Nat) : W64 := l.foldl setBit64 0#64

/-- The lanes of a mask, ascending, below a width. -/
def lanesOf (m : W64) (w : Nat) : List Nat := (List.range w).filter (fun l => m.getLsbD l)

/-- The mask of the lanes below a width (R17). -/
def laneMask (w : Nat) : W64 := if w ≥ 64 then BitVec.allOnes 64 else BitVec.ofNat 64 (2 ^ w - 1)

end Sys2Proof.Machine
end

