-- ==== Sys2Proof/Machine/Num.lean ====
section
/-!
DEFINITION. Sys2Proof/Machine/Num.lean: element formats, exact values and the one rounding
(spec/04_number_formats.md R72-R86, format codes R55). A value is held exactly as sign, magnitude and power of two.
-/

namespace Sys2Proof.Machine

/-- An element format (R55). -/
inductive Fmt
  | int (signed : Bool) (width : Nat)
  | ieee (ebits p : Nat)
  | b8 (p : Nat) (unsigned finite : Bool)
  | b4 (p : Nat)
  deriving DecidableEq, Repr

/-- The format of a code; none for a reserved code (R55). -/
def Fmt.ofCode (c : Nat) : Option Fmt :=
  if c < 8 then some (.int (c % 2 == 0) (8 * 2 ^ (c / 2)))
  else if c = 8 then some (.ieee 11 53)
  else if c = 9 then some (.ieee 8 24)
  else if c = 10 then some (.ieee 5 11)
  else if c = 11 then some (.ieee 8 8)
  else if 0x11 ≤ c ∧ c ≤ 0x13 then some (.b4 (c - 0x10))
  else if 0x20 ≤ c ∧ c < 0x40 ∧ c % 8 ≠ 0 then some (.b8 (c % 8) (c.testBit 4) (c.testBit 3))
  else none

def Fmt.f32 : Fmt := .ieee 8 24
def Fmt.f64 : Fmt := .ieee 11 53
def Fmt.f16 : Fmt := .ieee 5 11
def Fmt.bf16 : Fmt := .ieee 8 8

/-- The width of an element in bits (R55, R72-R80). -/
def Fmt.width : Fmt → Nat
  | .int _ w => w
  | .ieee e p => e + p
  | .b8 _ _ _ => 8
  | .b4 _ => 4

def Fmt.isInt : Fmt → Bool
  | .int _ _ => true
  | _ => false

def Fmt.isNarrow : Fmt → Bool
  | .b8 _ _ _ => true
  | .b4 _ => true
  | _ => false

def Fmt.isB8 : Fmt → Bool
  | .b8 _ _ _ => true
  | _ => false

def Fmt.isB4 : Fmt → Bool
  | .b4 _ => true
  | _ => false

/-- An exact value: (-1)^neg * m * 2^e, an infinity or NaN. -/
inductive FVal
  | nan
  | inf (neg : Bool)
  | fin (neg : Bool) (m : Nat) (e : Int)
  deriving DecidableEq, Repr

/-- Precision P(F) of a floating or narrow format. -/
def Fmt.prec : Fmt → Nat
  | .int _ w => w
  | .ieee _ p => p
  | .b8 p _ _ => p
  | .b4 p => p

/-- Bias B of a floating or narrow format (R73, R75, R77, R78). -/
def Fmt.bias : Fmt → Nat
  | .int _ _ => 0
  | .ieee e _ => 2 ^ (e - 1) - 1
  | .b8 p u _ => if u then 2 ^ (8 - p) else 2 ^ (7 - p)
  | .b4 p => 2 ^ (3 - p)

/-- Exponent of the smallest normal value. -/
def Fmt.emin (f : Fmt) : Int := 1 - (f.bias : Int)

def Fmt.unsigned : Fmt → Bool
  | .b8 _ u _ => u
  | .int s _ => !s
  | _ => false

/-- Whether the format has infinities (R84). -/
def Fmt.hasInf : Fmt → Bool
  | .int _ _ => false
  | .ieee _ _ => true
  | .b8 _ _ f => !f
  | .b4 _ => true

def Fmt.isIeee : Fmt → Bool
  | .ieee _ _ => true
  | _ => false

/-- Bit position of the sign of a signed format. -/
def Fmt.signPos : Fmt → Nat
  | .int _ w => w - 1
  | .ieee e p => e + p - 1
  | .b8 _ _ _ => 7
  | .b4 _ => 3

/-- The NaN of a format: canonical (R74), 0x80 (R75), 0xFF (R77), 0x8 (R78). -/
def Fmt.nanCode : Fmt → Nat
  | .int _ _ => 0
  | .ieee e p => (2 ^ e - 1) * 2 ^ (p - 1) + 2 ^ (p - 2)
  | .b8 _ u _ => if u then 0xFF else 0x80
  | .b4 _ => 0x8

/-- The positive infinity of a format that has one. -/
def Fmt.infCode : Fmt → Nat
  | .int _ _ => 0
  | .ieee e p => (2 ^ e - 1) * 2 ^ (p - 1)
  | .b8 _ u _ => if u then 0xFE else 0x7F
  | .b4 _ => 0x7

/-- The largest finite positive code (R76, R77, R78). -/
def Fmt.maxCode : Fmt → Nat
  | .int s w => if s then 2 ^ (w - 1) - 1 else 2 ^ w - 1
  | .ieee e p => (2 ^ e - 1) * 2 ^ (p - 1) - 1
  | .b8 _ u f => if u then (if f then 0xFE else 0xFD) else (if f then 0x7F else 0x7E)
  | .b4 _ => 0x6

/-- The code of a format with the sign added. -/
def Fmt.signed (f : Fmt) (neg : Bool) (c : Nat) : Nat := if neg then c + 2 ^ f.signPos else c

/-- The value of a positive code that is neither special nor an infinity (R75, R77, R78). -/
def Fmt.magnitude (f : Fmt) (c : Nat) : Nat × Int :=
  let t := c % 2 ^ (f.prec - 1)
  let e := c / 2 ^ (f.prec - 1)
  if e = 0 then (t, 1 - (f.bias : Int) - ((f.prec : Int) - 1))
  else (t + 2 ^ (f.prec - 1), (e : Int) - (f.bias : Int) - ((f.prec : Int) - 1))

/-- The exact value of a code (R72-R78). Bits above the width are ignored. -/
def Fmt.decode (f : Fmt) (code : Nat) : FVal :=
  let c := code % 2 ^ f.width
  match f with
  | .int s w =>
    if s then (let v := sextN c w; .fin (v < 0) v.natAbs 0) else .fin false c 0
  | .ieee e p =>
    let neg := c.testBit (e + p - 1)
    let mag := c % 2 ^ (e + p - 1)
    if mag > f.infCode then .nan else if mag = f.infCode then .inf neg
    else (let v := f.magnitude mag; .fin neg v.1 v.2)
  | .b8 _ u fin =>
    if u then
      if c = 0xFF then .nan else if !fin && c == 0xFE then .inf false
      else (let v := f.magnitude c; .fin false v.1 v.2)
    else
      if c = 0x80 then .nan
      else (let neg := c.testBit 7; let mag := c % 128
            if !fin && mag == 0x7F then .inf neg else (let v := f.magnitude mag; .fin neg v.1 v.2))
  | .b4 _ =>
    if c = 0x8 then .nan
    else (let neg := c.testBit 3; let mag := c % 8
          if mag = 7 then .inf neg else (let v := f.magnitude mag; .fin neg v.1 v.2))

/-- Sticky floating-point flags of R89, in the order of FPFLAGS. -/
structure FFlags where
  nv : Bool := false
  dz : Bool := false
  ovf : Bool := false
  unf : Bool := false
  nx : Bool := false
  deriving DecidableEq, Repr

def FFlags.none : FFlags := {}
def FFlags.or (a b : FFlags) : FFlags :=
  { nv := a.nv || b.nv, dz := a.dz || b.dz, ovf := a.ovf || b.ovf, unf := a.unf || b.unf, nx := a.nx || b.nx }
/-- The FPFLAGS word (R89). -/
def FFlags.toNat (f : FFlags) : Nat := b2n f.nv + 2 * b2n f.dz + 4 * b2n f.ovf + 8 * b2n f.unf + 16 * b2n f.nx

/-- Rounding mode codes of X-CVT (R54, R83). -/
inductive RMode | rne | rz | ru | rd | sr
  deriving DecidableEq, Repr

def RMode.ofCode : Nat → Option RMode
  | 0 => some .rne
  | 1 => some .rz
  | 2 => some .ru
  | 3 => some .rd
  | 4 => some .sr
  | _ => none

/-- One rounding of m * 2^e to a multiple of 2^u: the quotient in units of 2^u and whether it is inexact.
`oddIsEven` reports, for the lower candidate q, whether it is the even one on a tie (R83). -/
def roundUnits (m : Nat) (e u : Int) (mode : RMode) (neg : Bool) (d : Nat) (loEven : Nat → Bool) : Nat × Bool :=
  if u ≤ e then (m * 2 ^ (e - u).toNat, false)
  else
    let sh := (u - e).toNat
    let lo := m / 2 ^ sh
    let rem := m % 2 ^ sh
    if rem = 0 then (lo, false)
    else
      let up := match mode with
        | .rne => if 2 * rem = 2 ^ sh then !(loEven lo) else decide (2 * rem > 2 ^ sh)
        | .rz => false
        | .ru => !neg
        | .rd => neg
        | .sr => decide (256 * rem / 2 ^ sh + d ≥ 256)
      (if up then lo + 1 else lo, true)

/-- floor(log2 m) for m > 0. -/
def log2N (m : Nat) : Nat := Nat.log2 m

/-- Whether the lower candidate of a tie is the even one: last significand bit, or for P = 1 the biased exponent (R83). -/
def Fmt.tieEven (f : Fmt) (u : Int) (lo : Nat) : Bool :=
  if f.isInt then lo % 2 == 0
  else if f.prec = 1 then (if lo = 0 then true else (u + (f.bias : Int)) % 2 == 0)
  else lo % 2 == 0

/-- The code of q * 2^u, q at most 2^P(F), not above the largest finite value. -/
def Fmt.encodeUnits (f : Fmt) (q : Nat) (u : Int) : Nat :=
  if q = 0 then 0
  else
    let p := f.prec
    let (q', u') := if q = 2 ^ p then (2 ^ (p - 1), u + 1) else (q, u)
    if q' < 2 ^ (p - 1) then q'
    else (u' + ((p : Int) - 1) + (f.bias : Int)).toNat * 2 ^ (p - 1) + (q' - 2 ^ (p - 1))

/-- Whether q * 2^u lies above the largest finite value of the format. -/
def Fmt.beyondMax (f : Fmt) (q : Nat) (u : Int) : Bool :=
  let (mm, me) := f.magnitude f.maxCode
  if u ≥ me then decide (q * 2 ^ (u - me).toNat > mm) else decide (q > mm * 2 ^ (me - u).toNat)

/-- Overflow results (R84). -/
def Fmt.overflow (f : Fmt) (neg sat : Bool) (mode : RMode) : Nat :=
  let toMax := match mode with
    | .rne => sat
    | .sr => sat
    | .rz => true
    | .ru => sat || neg
    | .rd => sat || !neg
  if toMax then f.signed neg f.maxCode
  else if f.hasInf then f.signed neg f.infCode else f.nanCode

/-- round() of R83 into a floating or narrow format: the code and the flags it raises (R84, R85, R89). `d` is the
draw under SR. An infinity that becomes NaN in a finite format under SAT = 0 raises no flag: the model's reading, since R89 names none
for it (log 72). -/
def Fmt.round (f : Fmt) (x : FVal) (mode : RMode) (sat : Bool) (d : Nat) : Nat × FFlags :=
  match x with
  | .nan => (f.nanCode, .none)
  | .inf neg =>
    if f.unsigned && neg then
      (if sat then (0, { nx := true }) else (f.nanCode, { nv := true }))
    else if sat then (f.signed neg f.maxCode, { nx := true })
    else if f.hasInf then (f.signed neg f.infCode, .none)
    else (f.nanCode, .none)
  | .fin neg m e =>
    if m = 0 then (if f.isIeee then f.signed neg 0 else 0, .none)
    else
      let e2 : Int := (log2N m : Int) + e
      let p : Int := f.prec
      let u : Int := (if e2 < f.emin then f.emin else e2) - (p - 1)
      let (q, inexact) := roundUnits m e u mode neg d (f.tieEven u)
      let tiny : Bool :=
        if e2 ≥ f.emin then false
        else
          let u' : Int := e2 - (p - 1)
          let (q', _) := roundUnits m e u' mode neg d (f.tieEven u')
          !(e2 + 1 == f.emin && q' == 2 ^ f.prec)
      let small : FFlags := { unf := tiny && inexact, nx := inexact }
      if f.unsigned && neg then
        (if q = 0 then (0, small) else if sat then (0, { nx := true }) else (f.nanCode, { nv := true }))
      else if f.beyondMax q u then (f.overflow neg sat mode, { ovf := true, nx := true })
      else if q = 0 then (if f.isIeee then f.signed neg 0 else 0, small)
      else (f.signed neg (f.encodeUnits q u), small)

/-- Clamp an integer into the range of an integer format. -/
def clampInt (signed : Bool) (w : Nat) (v : Int) : Int :=
  let lo : Int := if signed then -(2 ^ (w - 1) : Nat) else 0
  let hi : Int := if signed then (2 ^ (w - 1) : Nat) - 1 else (2 ^ w : Nat) - 1
  if v < lo then lo else if v > hi then hi else v

/-- The low `w` bits of an integer. -/
def intBits (v : Int) (w : Nat) : Nat := (v % ((2 ^ w : Nat) : Int)).toNat

/-- Conversion of a floating or narrow value to an integer format (R86, flags R89). -/
def toInt (x : FVal) (mode : RMode) (signed : Bool) (w : Nat) (d : Nat) : Nat × FFlags :=
  match x with
  | .nan => (0, { nv := true })
  | .inf neg =>
    (if neg then (if signed then 2 ^ (w - 1) else 0) else (if signed then 2 ^ (w - 1) - 1 else 2 ^ w - 1),
      { nv := true })
  | .fin neg m e =>
    let (q, inexact) := roundUnits m e 0 mode neg d (fun lo => lo % 2 == 0)
    let v : Int := if neg then -(q : Int) else (q : Int)
    let c := clampInt signed w v
    if c = v then (intBits v w, { nx := inexact }) else (intBits c w, { nv := true })

/-- Conversion between element formats (R110): the destination code and the flags. A value outside the range of an integer destination
raises NV, of an integer source too (R89). -/
def convert (src dst : Fmt) (mode : RMode) (sat : Bool) (d : Nat) (code : Nat) : Nat × FFlags :=
  let c := code % 2 ^ src.width
  if src = dst then
    (match src.decode c with
      | .nan => if src.isInt then (c, .none) else (src.nanCode, .none)
      | _ => (c, .none))
  else
    match src, dst with
    | .int ss sw, .int ds dw =>
      let v : Int := if ss then sextN c sw else (c : Int)
      (if sat then intBits (clampInt ds dw v) dw else intBits v dw, if clampInt ds dw v = v then .none else { nv := true })
    | _, .int ds dw => toInt (src.decode c) mode ds dw d
    | _, _ => dst.round (src.decode c) mode sat d

/-- Exact sum of two values, with the IEEE sign of an exact zero under round to nearest (R83). The flag is NV. -/
def FVal.add (a b : FVal) : FVal × Bool :=
  match a, b with
  | .nan, _ => (.nan, false)
  | _, .nan => (.nan, false)
  | .inf x, .inf y => if x = y then (.inf x, false) else (.nan, true)
  | .inf x, _ => (.inf x, false)
  | _, .inf y => (.inf y, false)
  | .fin n1 m1 e1, .fin n2 m2 e2 =>
    let e := if e1 ≤ e2 then e1 else e2
    let v1 : Int := ((m1 * 2 ^ (e1 - e).toNat : Nat) : Int)
    let v2 : Int := ((m2 * 2 ^ (e2 - e).toNat : Nat) : Int)
    let v := (if n1 then -v1 else v1) + (if n2 then -v2 else v2)
    if v = 0 then (.fin (n1 && n2) 0 0, false) else (.fin (v < 0) v.natAbs e, false)

def FVal.neg : FVal → FVal
  | .nan => .nan
  | .inf n => .inf (!n)
  | .fin n m e => .fin (!n) m e

def FVal.isNan : FVal → Bool
  | .nan => true
  | _ => false

def FVal.isNeg : FVal → Bool
  | .nan => false
  | .inf n => n
  | .fin n _ _ => n

/-- Exact product; the flag is NV (0 times infinity). -/
def FVal.mul (a b : FVal) : FVal × Bool :=
  match a, b with
  | .nan, _ => (.nan, false)
  | _, .nan => (.nan, false)
  | .inf x, .inf y => (.inf (x != y), false)
  | .inf x, .fin n m _ => if m = 0 then (.nan, true) else (.inf (x != n), false)
  | .fin n m _, .inf y => if m = 0 then (.nan, true) else (.inf (n != y), false)
  | .fin n1 m1 e1, .fin n2 m2 e2 => (.fin (n1 != n2) (m1 * m2) (e1 + e2), false)

/-- Exact a * b + c; 0 times infinity is invalid whatever c holds (R107). -/
def FVal.fma (a b c : FVal) : FVal × Bool :=
  let (p, nv) := a.mul b
  if nv then (.nan, true) else p.add c

/-- Three-way comparison of two values that are not NaN; -0 equals +0. -/
def FVal.cmp (a b : FVal) : Ordering :=
  match a, b with
  | .inf x, .inf y => if x = y then .eq else if x then .lt else .gt
  | .inf x, _ => if x then .lt else .gt
  | _, .inf y => if y then .gt else .lt
  | .fin n1 m1 e1, .fin n2 m2 e2 =>
    let e := if e1 ≤ e2 then e1 else e2
    let v1 : Int := ((m1 * 2 ^ (e1 - e).toNat : Nat) : Int)
    let v2 : Int := ((m2 * 2 ^ (e2 - e).toNat : Nat) : Int)
    compare (if n1 then -v1 else v1) (if n2 then -v2 else v2)
  | _, _ => .eq

/-- The lesser operand of min (R107): -0 below +0, one NaN gives the other operand. `a` and `b` are codes. -/
def Fmt.minCode (f : Fmt) (a b : Nat) : Nat :=
  match f.decode a, f.decode b with
  | .nan, .nan => f.nanCode
  | .nan, _ => b
  | _, .nan => a
  | x, y => match x.cmp y with
    | .lt => a
    | .gt => b
    | .eq => if x.isNeg then a else b

/-- The greater operand of max (R107). -/
def Fmt.maxOf (f : Fmt) (a b : Nat) : Nat :=
  match f.decode a, f.decode b with
  | .nan, .nan => f.nanCode
  | .nan, _ => b
  | _, .nan => a
  | x, y => match x.cmp y with
    | .lt => b
    | .gt => a
    | .eq => if x.isNeg then b else a

/-- A rounded sum in a floating format (R106, R108, R109), RNE with SAT = 0. -/
def Fmt.addOp (f : Fmt) (a b : Nat) : Nat × FFlags :=
  let (x, nv) := (f.decode a).add (f.decode b)
  let (c, fl) := f.round x .rne false 0
  (c, fl.or { nv := nv })

/-- A rounded difference. -/
def Fmt.subOp (f : Fmt) (a b : Nat) : Nat × FFlags :=
  let (x, nv) := (f.decode a).add (f.decode b).neg
  let (c, fl) := f.round x .rne false 0
  (c, fl.or { nv := nv })

/-- A rounded product. -/
def Fmt.mulOp (f : Fmt) (a b : Nat) : Nat × FFlags :=
  let (x, nv) := (f.decode a).mul (f.decode b)
  let (c, fl) := f.round x .rne false 0
  (c, fl.or { nv := nv })

/-- A fused multiply-add with one rounding. -/
def Fmt.fmaOp (f : Fmt) (a b c : Nat) : Nat × FFlags :=
  let (x, nv) := (f.decode a).fma (f.decode b) (f.decode c)
  let (r, fl) := f.round x .rne false 0
  (r, fl.or { nv := nv })

/-- Clear the sign; a NaN becomes canonical (R107). -/
def Fmt.absOp (f : Fmt) (a : Nat) : Nat :=
  match f.decode a with
  | .nan => f.nanCode
  | _ => a % 2 ^ f.signPos

/-- Invert the sign; a NaN becomes canonical (R107). -/
def Fmt.negOp (f : Fmt) (a : Nat) : Nat :=
  match f.decode a with
  | .nan => f.nanCode
  | _ => (a ^^^ 2 ^ f.signPos) % 2 ^ f.width

/-- One step of the stochastic-rounding generator (R87): the bit out and the new state. -/
def srStep (g : W32) : Bool × W32 :=
  let b := g.getLsbD 31
  let g' := g <<< 1
  (b, if b then g' ^^^ 0x00400007#32 else g')

/-- Eight steps, first bit out is the top bit of the draw (R87). -/
def srBits (g : W32) : Nat → Nat × W32
  | 0 => (0, g)
  | n + 1 =>
    let (b, g') := srStep g
    let (d, g'') := srBits g' n
    (b2n b * 2 ^ n + d, g'')

/-- draw() of R87. -/
def srDraw (g : W32) : Nat × W32 := srBits g 8

/-- The generator state a seed gives a lane (R88): zero is replaced by 1. -/
def srSeedLane (seed : W32) (lane : Nat) : W32 :=
  let g := seed ^^^ BitVec.ofNat 32 (lane * 0x9E3779B9)
  if g = 0#32 then 1#32 else g

end Sys2Proof.Machine
end

