-- ==== Sys2Proof/Machine/Checks.lean ====
section
/-!
DEFINITION. Sys2Proof/Machine/Checks.lean: the operand shape of every opcode (spec/03_encoding_and_assembly.md R54, R59) and the checks of an
instruction's words that do not depend on register values (spec/22_execution_and_instruction_faults.md R405-R419). WellFormed is
the statement that none of them fails; the issue of an instruction raises the first that does.
-/

namespace Sys2Proof.Machine

/-- A failing check of an instruction's words: cause, SUB and TVAL (R406). -/
structure StaticFault where
  cause : Nat
  sub : Nat
  tval : Nat
  deriving DecidableEq, Repr

def cILLEGAL : Nat := 0x01
def cRESERVED : Nat := 0x02
def cRUNSHAPE : Nat := 0x03
def cOPERAND : Nat := 0x04
def cPWIN : Nat := 0x05
def cMODE : Nat := 0x06

/-- What a lane field names: nothing, a source or destination of n registers, a predicate, a compare or pr code. -/
inductive Opd
  | unused
  | src (n : Nat)
  | dst (n : Nat)
  | pred
  | cmp
  | fn
  | free
  deriving DecidableEq, Repr

/-- What a G-set field names. -/
inductive GOpd
  | unused
  /-- A register, with `n` consecutive registers used (R412). -/
  | reg (n : Nat)
  | mask
  /-- A small number in [k-1:0], upper bits zero. -/
  | num (k : Nat)
  /-- B: register, imm8 or XW (R52). -/
  | any
  /-- B: a register only (R411), with `n` consecutive registers. -/
  | regB (n : Nat)
  /-- B: an immediate 0x100 + k with k below the bound (R410, R411). -/
  | imm (bound : Nat)
  | free
  deriving DecidableEq, Repr

/-- Opcode-word kinds (R54). -/
inductive XKind
  | none | op4 (n : Nat) | sel | cvt | pack | unpack | xl | hist | ld | st | poll | atom | atomNr | cas | ldp | pf
  | cond | us | sld | sst | satom | waitAddr | fut | fn
  deriving DecidableEq, Repr

/-- Result classes (R59). -/
inductive RKind | none | fix (n : Nat) | var
  deriving DecidableEq, Repr

structure LShape where
  d : Opd := .unused
  a : Opd := .unused
  b : Opd := .unused
  x : XKind := .none
  res : RKind := .none
  ends : Bool := false
  deriving DecidableEq, Repr

structure GShape where
  d : GOpd := .unused
  a : GOpd := .unused
  b : GOpd := .unused
  x : XKind := .none
  res : RKind := .none
  ends : Bool := false
  deriving DecidableEq, Repr

/-- Registers of a lane group of an access size (R152). -/
def laneGroup (size : Nat) : Nat := if size ≤ 2 then 1 else if size = 3 then 2 else 4
/-- Registers of a uniform group of an access size (R152). -/
def uniGroup (size : Nat) : Nat := if size = 4 then 2 else 1

/-- X-MEM fields (R54). -/
def xOff (x : W32) : Int := sextN x.toNat 16
def xSize (x : W32) : Nat := bits x.toNat 18 16
def xSx (x : W32) : Bool := bitOf x.toNat 19
def xScope (x : W32) : Nat := bits x.toNat 22 20
def xOp (x : W32) : Nat := bits x.toNat 26 23
def xWin (x : W32) : Nat := bits x.toNat 29 27
/-- X-XL fields (R54). -/
def xMask (x : W32) : Nat := bits x.toNat 3 0
def xEty (x : W32) : Nat := bits x.toNat 5 4
def xBins (x : W32) : Nat := bits x.toNat 12 8 + 1
/-- X-CVT fields (R54). -/
def xSrc (x : W32) : Nat := bits x.toNat 5 0
def xDst (x : W32) : Nat := bits x.toNat 11 6
def xMode (x : W32) : Nat := bits x.toNat 14 12
def xSat (x : W32) : Bool := bitOf x.toNat 15
def xPart (x : W32) : Nat := bits x.toNat 17 16

/-- The lane registers of a format code (R110). -/
def fmtRegs (c : Nat) : Nat :=
  match Fmt.ofCode c with
  | some f => if f.width = 64 then 2 else 1
  | none => 1

def rr (n : Nat) (l : Nat) : LShape := { d := .dst n, a := .src n, b := .src n, res := .fix l }
def r1 (l : Nat) : LShape := { d := .dst 1, a := .src 1, res := .fix l }

/-- The shape of a lane opcode (R56, R59); `x` decides group sizes. -/
def laneShape (op : Nat) (x : W32) : LShape :=
  match op with
  | 0x00 => rr 1 2
  | 0x01 => rr 1 2
  | 0x02 => rr 1 4
  | 0x03 => rr 1 4
  | 0x04 => rr 1 4
  | 0x05 => { rr 1 4 with x := .op4 1 }
  | 0x06 => rr 1 2
  | 0x07 => rr 1 2
  | 0x08 => rr 1 2
  | 0x09 => rr 1 2
  | 0x0A => r1 2
  | 0x0B => rr 1 2
  | 0x0C => rr 1 2
  | 0x0D => rr 1 2
  | 0x0E => rr 1 2
  | 0x0F => rr 1 2
  | 0x10 => rr 1 2
  | 0x11 => rr 1 2
  | 0x12 => rr 1 2
  | 0x13 => rr 1 2
  | 0x14 => { rr 1 2 with x := .op4 1 }
  | 0x15 => r1 2
  | 0x16 => r1 2
  | 0x17 => r1 2
  | 0x18 => rr 2 2
  | 0x19 => rr 2 2
  | 0x1A => { rr 1 4 with d := .dst 2 }
  | 0x1B => { rr 1 4 with d := .dst 2 }
  | 0x1C => rr 1 16
  | 0x1D => rr 1 16
  | 0x1E => rr 1 16
  | 0x1F => rr 1 16
  | 0x20 => { rr 1 2 with d := .cmp }
  | 0x21 => { rr 1 2 with d := .cmp }
  | 0x22 => { rr 1 2 with d := .cmp }
  | 0x23 => { rr 2 2 with d := .cmp }
  | 0x24 => { d := .fn, a := .pred, b := .pred, res := .fix 2 }
  | 0x25 => { rr 1 2 with x := .sel }
  | 0x26 => r1 2
  | 0x28 => rr 1 4
  | 0x29 => rr 1 4
  | 0x2A => rr 1 4
  | 0x2B => { rr 1 4 with x := .op4 1 }
  | 0x2C => rr 1 4
  | 0x2D => rr 1 4
  | 0x2E => r1 4
  | 0x2F => r1 4
  | 0x30 => rr 2 8
  | 0x31 => rr 2 8
  | 0x32 => { rr 2 8 with x := .op4 2 }
  | 0x33 => rr 2 8
  | 0x34 => rr 2 8
  | 0x38 => rr 1 4
  | 0x39 => rr 1 4
  | 0x3A => { rr 1 4 with x := .op4 1 }
  | 0x3B => rr 1 4
  | 0x3C => rr 1 4
  | 0x3D => { rr 1 4 with x := .op4 1 }
  | 0x40 => { d := .dst (fmtRegs (xDst x)), a := .src (fmtRegs (xSrc x)), x := .cvt, res := .fix 4 }
  | 0x41 => { rr 1 4 with x := .pack }
  | 0x42 => { r1 4 with x := .unpack }
  | 0x48 => { r1 0 with res := .var }
  | 0x49 => { r1 0 with res := .var }
  | 0x4A => { r1 0 with res := .var }
  | 0x4B => { r1 0 with res := .var }
  | 0x4C => { r1 0 with res := .var }
  | 0x4D => { r1 0 with res := .var }
  | 0x4E => { r1 0 with res := .var }
  | 0x4F => { r1 0 with res := .var }
  | 0x50 => { rr 1 0 with x := .xl, res := .var, ends := true }
  | 0x51 => { rr 1 0 with x := .xl, res := .var, ends := true }
  | 0x52 => { rr 1 0 with x := .xl, res := .var, ends := true }
  | 0x53 => { rr 1 0 with x := .xl, res := .var, ends := true }
  | 0x54 => { d := .pred, a := .pred, x := .xl, res := .var, ends := true }
  | 0x55 => { d := .pred, a := .pred, x := .xl, res := .var, ends := true }
  | 0x56 => { d := .dst 2, a := .pred, x := .xl, res := .var, ends := true }
  | 0x57 => { r1 0 with x := .xl, res := .var, ends := true }
  | 0x58 => { r1 0 with x := .xl, res := .var, ends := true }
  | 0x59 => { r1 0 with x := .xl, res := .var, ends := true }
  | 0x5A => { r1 0 with d := .dst 2, x := .xl, res := .var, ends := true }
  | 0x5B => { d := .free, a := .src 1, b := .src 1, x := .hist, res := .fix 2 }
  | 0x5C => { d := .dst 1, a := .free, x := .hist, res := .var }
  | 0x60 => { d := .dst (laneGroup (xSize x)), a := .src 2, x := .ld, res := .var }
  | 0x61 => { a := .src 2, b := .src (laneGroup (xSize x)), x := .st }
  | 0x62 => { d := .dst (laneGroup (xSize x)), a := .src 2, b := .src (laneGroup (xSize x)), x := .poll, res := .var,
              ends := true }
  | 0x63 => { d := .dst (laneGroup (xSize x)), a := .src 2, b := .src (laneGroup (xSize x)), x := .atom, res := .var }
  | 0x64 => { a := .src 2, b := .src (laneGroup (xSize x)), x := .atomNr }
  | 0x65 => { d := .dst (laneGroup (xSize x)), a := .src 2, b := .free, x := .cas, res := .var }
  | 0x66 => { d := .dst (laneGroup (xSize x)), a := .src 1, x := .ldp, res := .var }
  | 0x67 => { a := .src 2, x := .pf }
  | 0x71 => { a := .src 1, ends := true }
  | 0x72 => { d := .dst 1, b := .src 1, res := .fix 2 }
  | 0x73 => { a := .src 1, b := .src 1, res := .fix 2 }
  | _ => {}

def gs (b : GOpd) (l : Nat) : GShape := { d := .reg 1, a := .reg 1, b := b, res := .fix l }
def gv (a b : GOpd) : GShape := { d := .reg 1, a := a, b := b, res := .var }

/-- The shape of a uniform opcode in format GR (R57, R59). -/
def uniShape (op : Nat) (b : BitVec 9) (x : W32) : GShape :=
  match op with
  | 0x00 => gs .any 1
  | 0x01 => gs .any 1
  | 0x02 => gs .any 3
  | 0x03 => gs .any 1
  | 0x04 => gs .any 1
  | 0x05 => gs .any 1
  | 0x06 => gs .any 1
  | 0x07 => gs .any 1
  | 0x08 => gs .any 1
  | 0x09 => gs .any 1
  | 0x0A => gs .any 1
  | 0x0B => gs .any 1
  | 0x0C => gs .any 1
  | 0x0D => { gs .any 1 with a := .unused }
  | 0x0E => { gs .any 1 with x := .cond }
  | 0x0F => { gs .any 1 with x := .cond }
  | 0x10 => { gs .any 1 with x := .us }
  | 0x1D => { a := .reg 1, ends := true }
  | 0x1F => { ends := true }
  | 0x20 => { d := .mask, res := .fix 1 }
  | 0x21 => { d := .mask, res := .fix 1 }
  | 0x22 => { d := .mask, ends := true }
  | 0x23 => { d := if b = 0x101#9 then .reg 1 else .mask, a := if b = 0x101#9 then .mask else .reg 1, b := .imm 2,
              res := .fix 1 }
  | 0x24 => { d := .reg 1, res := .fix 1 }
  | 0x28 => { d := .reg (uniGroup (xSize x)), a := .reg 1, x := .sld, res := .var }
  | 0x29 => { a := .reg 1, b := if xSize x = 4 then .regB 2 else .any, x := .sst }
  | 0x2A => { d := .reg (1 + uniGroup (xSize x)), a := .reg 1
              b := if xOp x = 10 then .regB (2 * uniGroup (xSize x)) else .any, x := .satom, res := .var }
  | 0x2B => { b := .imm 5, ends := true }
  | 0x2C => { b := .imm 5, ends := true }
  | 0x2D => { b := .imm 5, ends := true }
  | 0x2E => gv (.reg 1) (.regB 1)
  | 0x2F => gv (.reg 1) .unused
  | 0x30 => { a := .reg 1, b := .any, x := .waitAddr, ends := true }
  | 0x31 => { a := .reg 1, x := .fut }
  | 0x32 => { gv (.reg 1) .unused with x := .fut, ends := true }
  | 0x33 => { gv (.reg 1) .any with x := .fut }
  | 0x38 => { gv (.reg 1) .any with ends := true }
  | 0x39 => { ends := true }
  | 0x3A => { d := .num 4, b := .any }
  | 0x3B => { d := .num 4, b := .any, ends := true }
  | 0x3C => { d := .num 4, ends := true }
  | 0x3D => gv (.reg 1) .unused
  | 0x3E => { b := .imm 8 }
  | 0x3F => { b := .imm 4, ends := true }
  | 0x40 => { gv (.reg 1) .any with ends := true }
  | 0x41 => gv (.reg 1) .unused
  | 0x42 => { a := .reg 1 }
  | 0x48 => { d := .reg 1, b := .any, res := .var, ends := true }
  | 0x49 => { a := .reg 1 }
  | 0x4A => { a := .reg 1 }
  | 0x4B => { b := .any }
  | 0x4C => { d := .reg 1, b := .any, res := .var, ends := true }
  | 0x4D => { b := .any }
  | 0x58 => { a := .reg 1, b := .imm 2 }
  | 0x59 => { b := .any, ends := true }
  | 0x5A => { d := .reg 1, b := .any, res := .fix 1 }
  | 0x5B => { d := .num 3, a := .reg 1 }
  | 0x5C => { d := .reg 1, b := .imm 8, res := .var, ends := true }
  | 0x5D => { b := .imm 8 }
  | 0x5E => { b := .any }
  | 0x60 => gv (.reg 1) .unused
  | 0x61 => { ends := true }
  | 0x62 => { gv (.reg 1) .unused with ends := true }
  | 0x63 => { ends := true }
  | 0x64 => gv (.reg 1) .any
  | 0x65 => gv (.reg 1) .any
  | 0x66 => { gv (.reg 1) .unused with x := .fn }
  | 0x67 => gv .unused .unused
  | 0x68 => { gv (.reg 1) .any with x := .fn }
  | 0x69 => if bitOf x.toNat 0 then { gv (.reg 1) .unused with x := .fn }
            else { gv (.reg 1) .any with x := .fn, ends := true }
  | 0x6A => gv .unused .unused
  | 0x6B => if bitOf x.toNat 0 then { gv (.reg 1) .unused with x := .fn } else { gv (.reg 1) (.regB 2) with x := .fn }
  | 0x6C => gv .unused .any
  | 0x6D => gv (.reg 1) (.regB 1)
  | 0x6E => { gv (.reg 1) (.regB 1) with x := .fn, ends := !bitOf x.toNat 0 }
  | 0x6F => gv (.reg 1) .any
  | 0x70 => if bitOf x.toNat 0 then { gv .unused (.regB 1) with x := .fn } else { gv (.reg 1) (.regB 1) with x := .fn }
  | 0x71 => gv (.reg 1) (.regB 1)
  | 0x72 => gv (.reg 1) (.regB 1)
  | 0x73 => { gv (.reg 1) .unused with d := .reg 2, ends := true }
  | 0x74 => { d := .reg 1, b := .imm 128, res := .fix 1 }
  | 0x75 => { a := .reg 1, b := .imm 128 }
  | 0x76 => {}
  | 0x77 => { b := .imm 128, ends := true }
  | 0x78 => { b := .imm 128, ends := true }
  | 0x79 => { ends := true }
  | 0x7A => { d := .reg 1, a := .reg 1, res := .fix 1 }
  | 0x7B => { a := .reg 1, b := .any }
  | _ => {}

def reserved (sub mask : Nat) : StaticFault := { cause := cRESERVED, sub := sub, tval := mask }
def operand (sub role : Nat) : StaticFault := { cause := cOPERAND, sub := sub, tval := role }
def when (c : Bool) (f : StaticFault) : List StaticFault := if c then [f] else []

/-- The check of one lane field (R410-R412): role, mask of the field in the word, code. -/
def checkOpd (o : Opd) (role mask code : Nat) (lo : Nat) : List StaticFault :=
  match o with
  | .unused => when (code != 0x3F) (reserved 0 mask)
  | .src n =>
    if code > 0x3B then [operand 1 role]
    else if n = 2 then when (code % 2 == 1 && code != 0x3B) (operand 2 role)
    else if n = 4 then when (code % 4 != 0) (operand 2 role)
    else []
  | .dst n =>
    if code > 0x38 then [operand 1 role]
    else if n = 2 then when (code % 2 == 1) (operand 2 role)
    else if n = 4 then when (code % 4 != 0) (operand 2 role)
    else []
  | .pred => when (code / 8 != 0) (reserved 0 (0x38 * 2 ^ lo))
  | .cmp => []
  | .fn => when (code / 8 == 7) (reserved 0 (0x38 * 2 ^ lo))
  | .free => []

/-- Whether an operand may name a lane source that reads the operand word. -/
def Opd.isSrc : Opd → Bool
  | .src _ => true
  | _ => false

/-- Bits of a word above or outside the listed ones (R54). -/
def unlisted (x : W32) (listed : Nat) : List StaticFault :=
  let r := x.toNat - (x.toNat &&& listed)
  when (r != 0) (reserved 1 r)

/-- Reserved codes common to X-MEM (R410, R418, R419). -/
def checkMem (x : W32) (sxOk opOk winOk : Bool) (opMax : Nat) : List StaticFault :=
  unlisted x 0x3FFFFFFF
  ++ when (xSize x > 4) (reserved 1 0x70000)
  ++ when (xScope x > 4) (reserved 1 0x700000)
  ++ when (xSx x && !(sxOk && xSize x ≤ 1)) (reserved 1 0x80000)
  ++ when (if opOk then xOp x > opMax else xOp x != 0) (reserved 1 0x7800000)
  ++ when (!winOk && xWin x != 0) (reserved 1 0x38000000)

/-- The checks of an opcode word (R410-R412, R418, R419). -/
def checkX (k : XKind) (x : W32) : List StaticFault :=
  match k with
  | .none => []
  | .op4 n =>
    let c := x.toNat % 64
    unlisted x 0x3F ++ (if c > 0x38 then [operand 1 3] else if n = 2 then when (c % 2 == 1) (operand 2 3) else [])
  | .sel => unlisted x 0x7
  | .cvt =>
    unlisted x 0x3FFFF ++ when (Fmt.ofCode (xSrc x) == none) (reserved 1 0x3F)
    ++ when (Fmt.ofCode (xDst x) == none) (reserved 1 0xFC0) ++ when (xMode x > 4) (reserved 1 0x7000)
    ++ when (xPart x != 0) (reserved 1 0x30000)
  | .pack =>
    unlisted x 0x3FFFF ++ when (Fmt.ofCode (xSrc x) == none) (reserved 1 0x3F)
    ++ when (Fmt.ofCode (xDst x) == none) (reserved 1 0xFC0) ++ when (xMode x > 4) (reserved 1 0x7000)
    ++ (match Fmt.ofCode (xDst x) with
        | none => []
        | some f => when (xSrc x != 9 || !f.isNarrow || (f.isB8 && xPart x > 1)) (operand 6 4))
  | .unpack =>
    unlisted x 0x3FFFF ++ when (Fmt.ofCode (xSrc x) == none) (reserved 1 0x3F)
    ++ when (Fmt.ofCode (xDst x) == none) (reserved 1 0xFC0) ++ when (xMode x > 4) (reserved 1 0x7000)
    ++ (match Fmt.ofCode (xSrc x), Fmt.ofCode (xDst x) with
        | some s, some d =>
          when (!s.isNarrow || !(d == .f32 || d == .bf16 || d == .f16) || (d == .f32 && s.isB4)
                || (d != .f32 && s.isB8 && xPart x > 1)) (operand 6 4)
        | _, _ => [])
  | .xl =>
    unlisted x 0x1F3F ++ when (bits x.toNat 12 8 != 0) (reserved 1 0x1F00)
    ++ when (xEty x == 3) (reserved 1 0x30) ++ when (xMask x > 11) (operand 1 4)
  | .hist =>
    unlisted x 0x1F3F ++ when (xMask x != 0) (reserved 1 0xF) ++ when (xEty x == 3) (reserved 1 0x30)
  | .ld => checkMem x true false false 0
  | .st => checkMem x false false false 0
  | .poll => checkMem x false false false 0 ++ when (xSize x != 2 && xSize x != 3 && xSize x ≤ 4) (operand 6 4)
  | .atom => checkMem x false true false 9
    ++ when ((xSize x < 2 || xSize x == 4) || (xOp x == 9 && xSize x == 3)) (operand 6 4)
  | .atomNr => checkMem x false true false 9
    ++ when ((xSize x < 2 || xSize x == 4) || (xOp x == 9 && xSize x == 3)) (operand 6 4)
  | .cas => checkMem x false false false 0 ++ when (xSize x < 2) (operand 6 4)
  | .ldp => checkMem x true false true 0
  | .pf =>
    unlisted x 0x3FFFFFFF ++ when (xSize x > 1) (reserved 1 0x70000) ++ when (xScope x > 4) (reserved 1 0x700000)
    ++ when (xSx x) (reserved 1 0x80000) ++ when (xOp x != 0) (reserved 1 0x7800000)
    ++ when (xWin x != 0) (reserved 1 0x38000000)
  | .cond => unlisted x 0x7
  | .us => unlisted x 0x3F
  | .sld => checkMem x true false false 0
  | .sst => checkMem x false false false 0
  | .satom => checkMem x false true false 10
    ++ when (xSize x < 2 || (xOp x == 9 && xSize x == 3) || (xSize x == 4 && xOp x != 10)) (operand 6 4)
  | .waitAddr => checkMem x false false false 0 ++ when (xSize x != 2 && xSize x != 3 && xSize x ≤ 4) (operand 6 4)
  | .fut => checkMem x false false false 0 ++ when (xSize x != 4 && xSize x ≤ 4) (operand 6 4)
  | .fn => unlisted x 0x1

/-- Lane ranges whose end or start the general roles do not cover: bins and cas128 groups (R120, R121, R161, R412). A range that begins
at a code that is no register raises SUB 0x01, its code not allowed in its role, and not the range's SUB 0x02: the model's reading (log 69). -/
def checkLaneGroups (op : Nat) (f : LR) : List StaticFault :=
  let rangeBad (c n : Nat) : Bool := if c < 0x30 then c + n > 0x30 else c + n > 0x38
  match op with
  | 0x5B => let c := f.d.toNat
            if c > 0x37 then [operand 1 0] else when (rangeBad c (xBins f.x)) (operand 2 0)
  | 0x5C => let c := f.a.toNat
            if c > 0x37 then [operand 1 1] else when (rangeBad c (xBins f.x)) (operand 2 1)
  | 0x65 => let c := f.b.toNat
            let n := laneGroup (xSize f.x)
            if c > 0x37 then [operand 1 2] else when (c % n != 0 || rangeBad c (2 * n)) (operand 2 2)
  | _ => []

/-- The operand word (R54, R410, R414). -/
def checkLaneOw (sh : LShape) (f : LR) (hasX : Bool) : List StaticFault :=
  let xw := (sh.a.isSrc && f.a == 0x3A#6) || (sh.b.isSrc && f.b == 0x3A#6)
  let xs := (sh.a.isSrc && f.a == 0x3B#6) || (sh.b.isSrc && f.b == 0x3B#6)
  if xw && xs then [operand 5 5]
  else if xs && f.ow.toNat ≥ 64 then [reserved (if hasX then 2 else 1) (f.ow.toNat / 64 * 64)]
  else []

/-- The word checks of an LR instruction (R410-R414). -/
def checkLR (op : Nat) (f : LR) : List StaticFault :=
  let sh := laneShape op f.x
  checkOpd sh.d 0 0x3F000 f.d.toNat 12 ++ checkOpd sh.a 1 0xFC0 f.a.toNat 6 ++ checkOpd sh.b 2 0x3F f.b.toNat 0
  ++ when (op == 0x24 && bits f.d.toNat 5 3 ≥ 5 && f.b != 0#6) (reserved 0 0x3F)
  ++ checkX sh.x f.x ++ checkLaneGroups op f ++ checkLaneOw sh f (laneHasX op)
  ++ when (sh.res == .var && !f.v1 && 0x30 ≤ f.d.toNat && f.d.toNat ≤ 0x37 && (match sh.d with | .dst _ => true | _ => false))
      (operand 4 0)

/-- The check of a D or A field of GR (R410-R412). -/
def checkG (o : GOpd) (role mask lo : Nat) (c : Nat) : List StaticFault :=
  match o with
  | .unused => when (c != 0) (reserved 0 mask)
  | .reg n => when (c + n > 64) (operand 2 role)
  | .mask => when (c ≥ 16) (reserved 0 (0x30 * 2 ^ lo)) ++ when (c % 16 > 11) (operand 1 role)
  | .num k => when (c ≥ 2 ^ k) (reserved 0 ((64 - 2 ^ k) * 2 ^ lo))
  | _ => []

/-- A reserved pattern of B (R52). -/
def bReserved (b : BitVec 9) : Bool := b.toNat < 256 && 64 ≤ b.toNat && b != 0x080#9

/-- The check of a B field of GR (R410-R412). -/
def checkB (o : GOpd) (b : BitVec 9) : List StaticFault :=
  let rv := when (bReserved b) (reserved 0 0x1FF)
  match o with
  | .unused => when (b != 0#9) (reserved 0 0x1FF)
  | .any => rv
  | .regB n => rv ++ (if b.toNat ≥ 64 then [operand 1 2] else when (b.toNat + n > 64) (operand 2 2))
  | .imm k => rv ++ (if b.toNat < 256 then [operand 1 2] else when (b.toNat - 256 ≥ k) (reserved 0 0x1FF))
  | _ => []

/-- Special-register numbers that R141 lists. -/
def srKnown (n : Nat) : Bool := n ≤ 8 || (0x10 ≤ n && n ≤ 0x1C)

/-- The word checks of a GR instruction (R410-R412, R419). -/
def checkGR (op : Nat) (f : GR) : List StaticFault :=
  let sh := uniShape op f.b f.x
  checkG sh.d 0 0x1F8000 15 f.d.toNat ++ checkG sh.a 1 0x7E00 9 f.a.toNat ++ checkB sh.b f.b ++ checkX sh.x f.x
  ++ when ((op == 0x23 || op == 0x3E || op == 0x58 || op == 0x5C || op == 0x5D) && f.b.toNat < 256) (reserved 0 0x1FF)
  ++ when ((op == 0x77 || op == 0x78) && f.b == 0x080#9) (reserved 0 0x1FF)
  ++ when ((op == 0x74 || op == 0x75) && f.b.toNat ≥ 256 && f.b.toNat < 384 && !srKnown (f.b.toNat - 256)) (reserved 0 0x1FF)

/-- The word checks of an instruction (R410-R414, R418, R419). -/
def checkRaw : Raw → List StaticFault
  | .lr op f => checkLR op f
  | .gr op f => checkGR op f
  | _ => []

/-- Whether R59 marks the instruction as ending its run. -/
def endsRun : Raw → Bool
  | .lr op f => (laneShape op f.x).ends
  | .gr op f => (uniShape op f.b f.x).ends
  | .event => false
  | _ => true

/-- The result class of an instruction (R59). -/
def resultClass : Raw → RKind
  | .lr op f => (laneShape op f.x).res
  | .gr op f => (uniShape op f.b f.x).res
  | .gc op _ => if op = 0x1E then .var else .none
  | _ => .none

end Sys2Proof.Machine
end

