-- ==== Sys2Proof/Config.lean ====
section
/-!
DEFINITION. Sys2Proof/Config.lean: the values the spec leaves open. Each is opaque: nothing can evaluate it, so no
statement rests on one of its values. Each is applied to a counter of the state or to the operands it depends on.
-/

namespace Sys2Proof.Config

/-- Reference ticks that pass in the n-th step (log 3; spec/06_uniform_and_control_instructions.md R145). -/
opaque tickAdvance : Nat → Nat
/-- Core cycles that pass in the n-th step (log 3; R145). -/
opaque cycleAdvance : Nat → Nat
/-- The n-th free 64-bit value (a value the spec leaves open). -/
opaque freeWord : Nat → W64
/-- A free byte, by the counter and the byte's number. -/
opaque freeByte : Nat → Nat → Byte
/-- A transcendental result whose two bounds round differently (log 15; spec/05_lane_instructions.md R113). -/
opaque freeSfu : Nat → Nat → Nat
/-- The silicon stepping, DIEID [15:8] (spec/17_external_interfaces_and_bringup.md R347). -/
opaque stepping : Nat → Byte
/-- A byte of a die's identity certificate (R357, R358). -/
opaque idCert : Nat → Nat → Byte

/-- Whether the PCI Express completer behind a host port supports an AtomicOp of a size (log 16; spec/07_memory_instructions.md R166). -/
opaque completerAtomic : Nat → Nat → Nat → Bool

/-- Whether a host port completes a copy's read with Unsupported Request or Completer Abort (log 16; spec/23_memory_lock_plane_and_engine_faults.md R447). -/
opaque hostAbort : Nat → Nat → Bool

/-- Whether the home of a page of another package has it pinned in a step (log 84; spec/10_coherence_across_dies_and_devices.md R224). -/
opaque farPinned : Nat → Nat → Bool

/-- Numbers that order the ten mesh edges (log 32; spec/24_kernel_scheduler_host_and_ras_faults.md R478). -/
opaque meshOrder : Nat → Nat

end Sys2Proof.Config
end

