-- ==== Sys2Proof/Machine/State.lean ====
section
/-!
DEFINITION. Sys2Proof/Machine/State.lean: the state of one package (spec/01_device_at_a_glance.md R7), as plain data. INVENTORY.md lists every
item with the rule that names it and its reset value. Widths stand in the types where software sees a word; counts
and indexes are numbers.
-/

namespace Sys2Proof.Machine

/-- Why the machine stops. -/
inductive Fault where
  /-- Raised by every instruction with an encoding when no wave has an open run to issue it: the model's own
  stop, not the hardware's, which has no such situation (R24). Safe: nothing is claimed of it. -/
  | noIssuer
  deriving DecidableEq, Repr

/-- Why an instruction has no meaning. -/
inductive Refusal where
  /-- Raised by an arm of exec whose instruction has no meaning yet. Safe: nothing is claimed of it. -/
  | notModelled (mnemonic : String)
  deriving DecidableEq, Repr

/-! ## Results of a run -/

/-- A place a result is written to: a register of a lane (by row of the lane's allocation, R21), a temporary, a
predicate, a uniform register, a mask. -/
inductive Loc where
  | v (lane row : Nat)
  | t (lane i : Nat)
  /-- A temporary of the frozen run (R396). -/
  | f (lane i : Nat)
  | p (lane i : Nat)
  | s (r : Nat)
  | k (n : Nat)
  deriving DecidableEq, Repr

/-- One write of a result (R28, R29). `poison` is the register poison mark it carries (R472). -/
structure Write where
  loc : Loc
  val : W64
  deriving DecidableEq, Repr

/-- A pending result of a run (R28, R29). `seq` is its place in program order. `left` is the number of further issues
until a fixed-latency result commits; none for a variable-latency result, which is due once `back` is true. `ready`
is false while the value is not known yet (a Muhan wait).
`flags` go to FPFLAGS and `oob` to PWINFLAGS at commit (R90, R157). -/
structure Res where
  seq : Nat
  left : Option Nat
  back : Bool := true
  ready : Bool := true
  writes : List Write
  flags : BitVec 5 := 0
  oob : BitVec 8 := 0
  deriving DecidableEq, Repr

/-- A synchronous cause (R389, R406, R431). `lanes` are the lanes that raised any cause; `low` is the lowest lane that raised this one,
64 where that is the lowest of `lanes` (R393). -/
structure Trap where
  cause : Nat
  sub : Nat
  tval : W64 := 0
  lanes : W64 := 0
  low : Nat := 64
  deriving DecidableEq, Repr

/-- A fault raised where an instruction was performed (R390, R392) or a refusal of an earlier write (R489): the
instruction's place and words go with it. -/
structure LateFault where
  seq : Nat
  trap : Trap
  pc : BitVec 48
  word : W32
  x1 : W32
  x2 : W32
  deriving DecidableEq, Repr

/-- An arrival that waits for the wave's earlier writes (R203, R232): barrier, count, the number of its release, and the trap of a count
that proves wrong. -/
structure Arriving where
  nb : Nat
  count : Nat
  rel : Nat
  late : LateFault
  deriving DecidableEq, Repr

/-- What happens when a run has ended and its results have committed. -/
inductive OnEnd where
  /-- The fibres continue at their next PCs. -/
  | go
  /-- mk.wait (R139). -/
  | maskWait (k : Nat)
  /-- A cross-lane instruction: the batch is held at the instance of its PC (R115). -/
  | crossLane
  /-- nb.sync or nb.wait: held until the barrier's phase completes (R231). -/
  | barrier (nb phase : Nat)
  /-- step: held until the step commits (R236). -/
  | step (region : Nat)
  /-- tok.wait on a set of tokens at a scope (R277). -/
  | tokens (mask : Nat)
  /-- wait.addr on a word of the crew's allocation (R171). -/
  | addr (off size : Nat) (want : W64) (scope : Nat)
  /-- q.pop: held until a tile is filled (R282). -/
  | pop (q d : Nat)
  /-- om.claim: held until the claim is granted (R246). -/
  | claim (nslot nacc d : Nat)
  /-- mx.gang: held until the gang is complete (R261). -/
  | gang (d : Nat)
  /-- fib.end (R135). -/
  | fibEnd
  /-- fib.spawn: the new fibre's lane, whose bit is zero in every mask when it starts (R22). -/
  | spawn (lane : Nat)
  /-- wv.exit (R297). -/
  | waveExit
  /-- wv.yield (R302). -/
  | yield
  /-- crew.join: target crew and its slot (none: a new one), granules, VALIDTRAP, result register (R227). -/
  | crewJoin (target : Option (Nat × Nat)) (grans : Nat) (vt : Bool) (d : Nat)
  /-- fence.acq or fence.ar: the L1 is invalidated when the fence completes (R167). -/
  | fence (scope : Nat)
  /-- crew.leave (R229). -/
  | crewLeave
  | swTrap (n : Nat)
  /-- brk n (R148). -/
  | brk (n : Nat)
  /-- rfe (R397). -/
  | rfe
  deriving DecidableEq, Repr

/-- Where an instruction stands and its words, for the trap frame (R395). -/
structure Site where
  pc : BitVec 48 := 0
  word : W32 := 0
  x1 : W32 := 0
  x2 : W32 := 0
  deriving DecidableEq, Repr

/-- A run (R27-R34): the sequence of instructions of one batch that is open, parked or frozen. -/
structure Run where
  /-- Batch mask (R24). -/
  mask : W64
  /-- PC at which the run started (R25). -/
  start : BitVec 48
  /-- PC of the next instruction of the run. -/
  pc : BitVec 48
  /-- Next PC of a fibre that left the common path (brp, R122), by lane. -/
  targets : Tab (BitVec 48) := []
  /-- Instructions issued (R28). -/
  issued : Nat := 0
  /-- Issue number of the wave at the start of the run; names the run (R489). -/
  first : Nat := 0
  pending : List Res := []
  /-- Temporaries by lane * 8 + number (R32). -/
  temps : Tab W32 := []
  /-- Place of the last instruction that has written a location (R30). -/
  wrote : List (Loc × Nat) := []
  /-- The run has issued its last instruction and waits for its results (R31). -/
  ended : Bool := false
  /-- A release of the run waits for ACKCNT to read zero (R167, R203). -/
  waitAck : Bool := false
  /-- A release waits until the wave's held writes at locked lines are applied (R241). -/
  waitHeld : Bool := false
  /-- Zero-length reads still to complete, by host port (R167). -/
  waitZlr : List Nat := []
  /-- Lock requests of the run that ended without a grant (R443). -/
  lkDone : Nat := 0
  late : List LateFault := []
  /-- Window moves that apply from the next run (R123), by lane. -/
  winNext : Tab Nat := []
  onEnd : OnEnd := .go
  /-- The last instruction issued. -/
  site : Site := {}
  /-- A watchpoint hit to be taken at the end of the run (R368): comparator, address, lane. -/
  watch : List (Nat × W64 × Nat) := []
  deriving DecidableEq, Repr

/-- A batch that is held after its run ended (R35, R115, R139, R171, R231, R236, R277): its lanes, the instruction's
place and words, what it waits for, and the mode in which it began: 0 outside the handlers, 1 in trap mode, 2 in debug mode (a hold
begun before a handler was entered does not hold the handler's batch). Holds stand in the order in which they began. -/
structure Held where
  lanes : W64
  site : Site
  on : OnEnd
  mode : Nat := 0
  deriving DecidableEq, Repr

/-! ## Waves -/

/-- A fibre (R20). Bit 0 of the predicate word always reads 1 and is not stored. -/
structure Fibre where
  pc : BitVec 48
  preds : BitVec 8 := 0
  winBase : Nat := 0
  thread : BitVec 16
  deriving DecidableEq, Repr

/-- The trap frame, special registers 0x10 to 0x1C (R395), without INTRAP. -/
structure TrapFrame where
  cause : BitVec 8 := 0
  sub : BitVec 8 := 0
  tepc : BitVec 48 := 0
  tfpc : BitVec 48 := 0
  tval : W64 := 0
  tword : W64 := 0
  txword : W64 := 0
  tmask : W64 := 0
  tlanes : W64 := 0
  tsave0 : W64 := 0
  tsave1 : W64 := 0
  tsave2 : W64 := 0
  tsave3 : W64 := 0
  trun : W64 := 0
  deriving DecidableEq, Repr

/-- A cross-lane instance (R115): its PC, members, and what each arrived lane brought: whether its guard read 1, its a
value, its b value (shuffles), the destination code and the operation. -/
structure Arrival where
  lane : Nat
  active : Bool
  a : W32
  b : W32
  truth : Bool
  d : Nat
  winBase : Nat
  deriving DecidableEq, Repr

/-- Cross-lane operations (R116-R119). -/
inductive XOp where
  | shflIdx | shflUp | shflDown | shflXor | voteAny | voteAll | ballot | redAdd | redMin | redMax | matchV
  deriving DecidableEq, Repr

structure Instance where
  pc : BitVec 48
  members : W64
  op : XOp
  ety : Nat
  arrived : List Arrival
  deriving DecidableEq, Repr

/-- A tile state of a ring (R280, R281). -/
inductive Tile where
  | free | claimed | filled | popped
  deriving DecidableEq, Repr

/-- A stream register (R280): the ring it is bound to; NT = 0 is unbound. -/
structure Stream where
  base : Nat := 0
  nt : Nat := 0
  tsize : Nat := 0
  gen : Nat := 0
  claimNext : Nat := 0
  popNext : Nat := 0
  freeNext : Nat := 0
  fillNext : Nat := 0
  tiles : Tab Tile := []
  /-- Token and scope of the command that filled each tile, where it names a token (R283). -/
  fills : Tab (Nat × Nat) := []
  deriving DecidableEq, Repr

/-- A scoreboard token (R276). -/
structure Token where
  count : Nat := 0
  special : Bool := false
  range : Bool := false
  err : Bool := false
  /-- Widest scope named by the commands counted since it last read zero (R202). -/
  scope : Nat := 0
  deriving DecidableEq, Repr

/-- Why a wave is blocked (R294). Each holds the issue number of its pending result and its result register. -/
inductive Wait where
  /-- pt.recv on a port, with the handle slot and the receive descriptor (R320). -/
  | port (id slot seq d : Nat) (desc : BitVec 512)
  /-- ws.wait, with the handle slot and the deadline (R305). -/
  | waitSet (id slot seq d : Nat) (deadline : Option Nat)
  /-- fut.rd on an empty future, with its address (R173). -/
  | future (key seq d scope addr : Nat)
  /-- lk.acq (R239). -/
  | lock (line seq d : Nat)
  /-- wv.join, with the handle slot (R297). -/
  | join (wave slot seq d : Nat)
  /-- sys.call, waiting for its reply from a service port (R307). -/
  | service (port seq d : Nat)
  deriving DecidableEq, Repr

/-- A fibre of an ld.poll that has not finished (R158): what it reads, the value it waits to leave, reads made, the last value. -/
structure Poll where
  seq : Nat
  lane : Nat
  addr : Nat
  size : Nat
  scope : Nat
  old : Nat
  reads : Nat
  last : Nat
  d : Nat
  winBase : Nat
  deriving DecidableEq, Repr

/-- Where a crew is (R39, R42, R298). `arrived`: its context has come in, that of another crew of its gang has not (R262). -/
inductive Place where
  | resident | shadow | cave | swapping | restoring | queued | arrived
  deriving DecidableEq, Repr

/-- The debug context of a wave in debug mode (R366). -/
structure DebugCtx where
  mask : W64
  retPc : BitVec 48
  held : Bool := false
  frozen : Option Run := none
  s60 : W64
  s61 : W64
  s62 : W64
  s63 : W64
  deriving DecidableEq, Repr

/-- Parameter window (R157): base, size. -/
structure PWin where
  base : Nat
  size : Nat
  deriving DecidableEq, Repr

/-- A wave (R17, R20, R292, R294). -/
structure Wave where
  proc : Nat
  crew : Nat
  member : Nat
  /-- Die whose Muhan unit holds the wave's object, and its entry index. -/
  die : Nat
  width : Nat
  nvregs : Nat
  /-- Private bytes per fibre (R175, R295). -/
  priv : Nat := 0
  prio : Nat := 0
  boost : Bool := false
  wslot : Nat := 0
  firstRow : Nat := 0
  firstQuad : Nat := 0
  launch : W32 := 0
  block : W32 := 0
  tbase : BitVec 16 := 0
  sregs : Tab W64 := []
  masks : Tab W64 := []
  /-- Vector registers by lane, then by row of the lane's allocation (R19, R21). -/
  vregs : Tab (Tab W32) := []
  /-- Poisoned register words, lane * 256 + row (R472). -/
  vpoison : List Nat := []
  fibres : Tab Fibre := []
  fpflags : BitVec 5 := 0
  pwinflags : BitVec 8 := 0
  srseed : W32 := 1
  gens : Tab W32 := []
  pwin : Tab PWin := []
  privMem : Tab Byte := []
  ackcnt : Nat := 0
  /-- Host ports that received posted writes since the wave's last .sys release (R167). -/
  posted : List Nat := []
  streams : Tab Stream := []
  tokens : Tab Token := []
  /-- Pending barrier phases of nb.arrive, by barrier (R231). -/
  pend : Tab Nat := []
  /-- Arrivals that wait for earlier writes of the wave (R232). -/
  arriving : List Arriving := []
  run : Option Run := none
  lastStart : BitVec 48 := 0
  held : List Held := []
  instances : List Instance := []
  inTrap : Bool := false
  frame : TrapFrame := {}
  /-- Lanes that entered the trap handler (R394). -/
  trapMask : W64 := 0
  /-- The run frozen by an issue trap (R391). -/
  frozen : Option Run := none
  /-- A frozen run that continues at the next run start (R397). -/
  resume : Option Run := none
  dbg : Option DebugCtx := none
  /-- Lanes at an rfe that wait for the others (R397). -/
  rfeMask : W64 := 0
  refusals : List LateFault := []
  wait : Option Wait := none
  blockedAt : Nat := 0
  suspended : Bool := false
  /-- A trap that could not be delivered, to be taken at RESUME (R398). -/
  undelivered : Bool := false
  stopped : Bool := false
  heldLocks : List Nat := []
  /-- Lock requests in flight (R443). -/
  lockReqs : Nat := 0
  /-- Their lines, issue numbers and result registers. -/
  lkPending : List (Nat × Nat × Nat) := []
  polls : List Poll := []
  /-- Instructions issued since creation: program order (R489). -/
  issues : Nat := 0
  /-- Lanes of the last batch that issued, and its place (R446). -/
  lastMask : W64 := 0
  lastPc : BitVec 48 := 0
  /-- Comparator match skipped once after return (R366). -/
  skipBpc : Bool := false
  /-- Single step (R370): 0 none, 1 the next instruction is stepped, 2 it has issued. -/
  stepState : Nat := 0
  dead : Bool := false
  /-- KILL has ended its fibres; its release is not complete (R308). -/
  killed : Bool := false
  /-- Since when the next instruction waits at a home that serves no request (R451). -/
  homeWait : Option Nat := none
  /-- pg.pull in progress (R322): issue number, result register, next page, pages left, pages moved. -/
  pull : Option (Nat × Nat × Nat × Nat × Nat) := none
  deriving DecidableEq, Repr

/-! ## Commands, operand storage -/

/-- The issuer of a command (R449): wave and crew with the generations of their objects, process, place of the instruction and name of
the lowest active fibre. -/
structure Issuer where
  wave : Nat
  wgen : Nat
  crew : Nat
  cgen : Nat
  proc : Nat
  core : Nat
  wslot : Nat
  pc : BitVec 48
  launch : W32
  block : W32
  thread : Nat
  deriving DecidableEq, Repr

/-- What a queued command does: a copy (or slice) block, a parameter block, a drain block, mx.zero (R251, R258, R249, R270),
a queue fence with the fences' common number (R279), or a crew's pending departure from its gang (R261). -/
inductive CmdOp where
  | copy (b : BitVec 512)
  | mx (b : BitVec 512)
  | drain (b : BitVec 512)
  | zero (mask : Nat)
  | fence (id mask : Nat)
  | leave
  deriving DecidableEq, Repr

/-- A crew whose scratchpad a command names through the cluster window, by its entry and generation (R459), with its core and the
byte at which its allocation begins. -/
structure FarRef where
  crew : Nat
  gen : Nat
  core : Nat
  base : Nat
  deriving DecidableEq, Repr

/-- A command with its issuer, the crew on whose core it is performed (R263), and the storage that its logical numbers name at its
issue (R245, R247); a gang multicast lists position p's slot n as 16 * (p + 1) + n (R273). -/
structure Cmd where
  by_ : Issuer
  op : CmdOp
  crew : Nat
  slots : Tab Nat := []
  accs : Tab Nat := []
  /-- Crews whose scratchpads the destination and the signal word name (R459). -/
  dst : Option FarRef := none
  sig : Option FarRef := none
  /-- Common number of the parts of a gang operation, and this part's position (R263). -/
  part : Option (Nat × Nat) := none
  /-- Another part has sent the record of the operation's failure. -/
  quiet : Bool := false
  deriving DecidableEq, Repr

/-- The failure of a command (R447, R449): which of an entry's commands, ERRCODE, VAL, MCAUSE. -/
structure CmdErr where
  ix : Nat := 0
  code : Nat
  val : Nat := 0
  mcause : Nat := 0
  deriving DecidableEq, Repr

/-- A queue entry: a command or a whole collective; its phase (0 waiting, 1 started, 2 payload written, 3 payload performed,
4 signals written); the tile it claimed, its stream's generation and its address; its failure; whether bytes were written; a drain's special and
range; the number under which its writes wait at locked lines (R241). -/
structure Entry where
  cmds : List Cmd
  phase : Nat := 0
  tile : Option (Nat × Nat × Nat) := none
  err : Option CmdErr := none
  wrote : Bool := false
  special : Bool := false
  range : Bool := false
  num : Nat := 0
  deriving DecidableEq, Repr

/-- An operand slot (R243, R244): header, bytes, scale bytes and E8M0 NaN marks of its blocks. -/
structure OpSlot where
  fmt : Nat := 0x0B
  scaled : Bool := false
  nanblk : Bool := false
  bytes : Tab Byte := []
  scales : Tab Byte := []
  nans : List Nat := []
  poison : List Nat := []
  deriving DecidableEq, Repr

/-- An accumulator (R248). The row map is the identity where it lists nothing. -/
structure Acc where
  els : Tab W32 := []
  rowMark : List Nat := []
  colMark : List Nat := []
  map : Tab Nat := []
  poison : List Nat := []
  deriving DecidableEq, Repr

/-- The source of a task crew (R330, R331, R341): die, kind (0 queue, 1 graph, 2 launch port), index, node, successor block, and
the user tag. -/
structure TaskSrc where
  die : Nat
  kind : Nat
  ix : Nat
  node : Nat
  succ : Nat
  utag : Nat
  deriving DecidableEq, Repr

/-! ## Crews -/

/-- A named barrier (R181, R231): its state word and the hidden set of the waves that arrived in the phase. -/
structure Barrier where
  expected : Nat := 0
  arrived : Nat := 0
  phase : Nat := 0
  arrset : List Nat := []
  deriving DecidableEq, Repr

/-- A step region (R233, R235). -/
structure Region where
  rule : Nat
  off : Nat
  n : Nat
  gran : Nat := 0
  /-- Next plane: words written in the current step, with their tags. -/
  next : Tab W32 := []
  tags : Tab Nat := []
  group : List Nat := []
  arrived : List Nat := []
  deriving DecidableEq, Repr

/-- Crew (R36-R38). -/
structure Crew where
  proc : Nat
  core : Nat
  slot : Nat
  base : Nat := 0
  grans : Nat := 1
  validtrap : Bool := false
  members : Tab Nat := []
  nextMember : Nat := 0
  spawn : BitVec 16 := 0
  place : Place := .resident
  /-- Scratchpad words whose valid bit is set, by word index of the allocation (R180). -/
  scratch : Tab W32 := []
  spoison : List Nat := []
  barriers : Tab Barrier := []
  regions : Tab Region := []
  warnFlight : Bool := false
  warnCount : Nat := 0
  runnableAt : Nat := 0
  /-- STARVE periods elapsed since the crew became runnable (R464). -/
  starved : Nat := 0
  /-- Logical operand slots and accumulators held, with the storage each names (R245). -/
  slots : Tab Nat := []
  accs : Tab Nat := []
  /-- Gang of the cluster and position (R261). -/
  gang : Option (Nat × Nat) := none
  /-- Open collectives by tag: queue, n, slices (R275). -/
  staging : Tab (Nat × Nat × List (Nat × Cmd)) := []
  /-- Commands not started when the crew was pre-empted, by queue (R264, R285). -/
  saved : List (Nat × Entry) := []
  /-- What launched it (R331, R341). -/
  task : Option TaskSrc := none
  /-- Its base is still to be chosen (R178). -/
  newBase : Bool := true
  /-- A pre-emption waits for the run boundaries: its reason (R343); of a partition (R340); the core it moves to (R340). -/
  preempt : Option Nat := none
  part : Bool := false
  moveTo : Option Nat := none
  /-- To be brought in when the partition's crews have left (R340). -/
  swapIn : Bool := false
  /-- Formed where no core of the cluster fitted: it holds no crew slot until one does (R227). `core` then names the issuing core. -/
  floating : Bool := false
  /-- The result of crew.join that is written once the crew has a core: wave, register, handle slot (R228). -/
  answer : Option (Nat × Nat × Nat) := none
  /-- Its waves have changed cores: fence.ar.die comes before they issue (R217). -/
  moved : Bool := false
  deriving DecidableEq, Repr

/-- A gang (R261): its size, its crews by position, whether it has formed, and storage that it still holds on cores whose crews
have left: core, storage, whether an accumulator. -/
structure Gang where
  size : Nat
  crews : Tab Nat := []
  formed : Bool := false
  kept : List (Nat × Nat × Bool) := []
  deriving DecidableEq, Repr

/-! ## Processes and the package -/

/-- A handle-table slot (R15): HANDLE and the rights bits. -/
structure Handle where
  handle : W64
  rights : BitVec 8
  deriving DecidableEq, Repr

/-- A region binding (R168, R169). -/
structure Binding where
  base : Nat
  size : Nat
  kind : Nat
  ident : Nat
  deriving DecidableEq, Repr

/-- A process (R14, R291). -/
structure Proc where
  die : Nat
  ptroot : BitVec 40 := 0
  asn : BitVec 16 := 0
  waitspin : BitVec 16 := 4096
  htab : BitVec 40 := 0
  trapbase : BitVec 48 := 0
  faultport : W64 := 0
  svcport : W64 := 0
  tenant : BitVec 16 := 0
  handles : Tab Handle := []
  bindings : Tab Binding := []
  contained : Bool := false
  lost : Bool := false
  deriving DecidableEq, Repr

/-- An L1 byte (R184): its value, whether it is dirty, and the wave that wrote it last. -/
structure L1Byte where
  val : Byte
  dirty : Bool
  wave : Nat
  deriving DecidableEq, Repr

/-- A TLB entry (R197): page base, size, and the leaf. -/
structure TlbEntry where
  asn : Nat
  base : Nat
  size : Nat
  leaf : W64
  deriving DecidableEq, Repr

/-- A non-leaf entry in a die's walk cache (R197): its level, the address bits above its range, the table that it points to. -/
structure WalkEntry where
  asn : Nat
  level : Nat
  top : Nat
  table : Nat
  deriving DecidableEq, Repr

/-- A stop that has been called and not yet taken effect on a core (R369): the crew stopped (none: every wave), the waves' issue
numbers at the trigger, the instructions a wave may still issue, whether it started on this core. -/
structure StopReq where
  crew : Option Nat
  base : Tab Nat
  limit : Nat
  here : Bool
  deriving DecidableEq, Repr

/-- A core: caches, command queues 0 to 2 (R264, R268), debug block (R362), sampler. -/
structure Core where
  l1 : Tab L1Byte := []
  tlb : List TlbEntry := []
  /-- Every translation used since a shootdown removed it: the virtual addresses of the L1's lines (log 11). -/
  maps : List TlbEntry := []
  queues : Tab (List Entry) := []
  /-- Storage released but still named by commands: storage number, whether it is an accumulator (R247). -/
  freeing : List (Nat × Bool) := []
  /-- Debug registers by index (R362). -/
  dreg : Tab W64 := []
  /-- A stop is in force (R369), or has been called. -/
  stopped : Bool := false
  stop : Option StopReq := none
  /-- Memory instructions still to count before the next sample (R372). -/
  sampLeft : Nat := 0
  cycle0 : Nat := 0
  deriving DecidableEq, Repr

/-- A directory entry of a line at its home (R218). -/
structure DirEntry where
  sharers : BitVec 8 := 0
  host : Bool := false
  state : BitVec 2 := 0
  owner : BitVec 3 := 0
  remote : Bool := false
  version : BitVec 16 := 0
  deriving DecidableEq, Repr

/-- A line in an RDC or a write-back buffer (R219, R220): exclusive, its version, its dirty bytes by offset. -/
structure RdcLine where
  excl : Bool
  version : BitVec 16
  dirty : Tab Byte := []
  deriving DecidableEq, Repr

/-- A page's state at its home package (R221, R224). -/
structure PageState where
  readers : List Nat := []
  excl : Option Nat := none
  transfers : Nat := 0
  windowStart : Nat := 0
  pinned : Bool := false
  ops : Nat := 0
  /-- Packages removed because they did not answer: their messages about the page are dropped (R452). -/
  gone : List Nat := []
  deriving DecidableEq, Repr

/-- A write that awaits its acknowledgement (R215, R450). -/
structure Ack where
  wave : Nat
  node : Nat
  die : Nat
  key : Nat
  crew : Nat := 0
  atomic : Bool
  resent : Bool := false
  deriving DecidableEq, Repr

/-- A port (R310): owning process, depth, queue with the count of messages enqueued before, FIFO of blocked receivers. -/
structure Port where
  proc : Nat
  depth : Nat
  launch : Bool
  queue : List (PortMsg × Nat) := []
  /-- Entries reserved by sends in flight (R316). -/
  reserved : Nat := 0
  count : Nat := 0
  waiters : List Nat := []
  deriving DecidableEq, Repr

/-- The header of an object entry (R290). A free entry has kind 0. -/
structure Obj where
  kind : Nat := 0
  gen : Nat := 0
  refs : Nat := 0
  tenant : Nat := 0
  owner : Nat := 0
  dying : Bool := false
  deriving DecidableEq, Repr

/-- Atomic operations (R159), with cas as code 10. -/
structure AtomArgs where
  op : Nat
  size : Nat
  b : Nat
  cmp : Nat := 0
  deriving DecidableEq, Repr

/-- A write of a non-holder that waits at the home of a locked line (R241): plain bytes, or an atomic whose old value
goes to the locations `ret` of the wave's pending result `seq` when it is applied. -/
structure HeldWrite where
  wave : Nat
  key : Nat
  bytes : List Byte := []
  atom : Option AtomArgs := none
  seq : Nat := 0
  ret : List Loc := []
  /-- An atomic's instruction: run, place, lane, address, and whether it returns nothing. -/
  run : Nat := 0
  site : Site := {}
  lane : Nat := 0
  addr : Nat := 0
  quiet : Bool := false
  /-- Releases that come after it in program order and wait for it (R203). -/
  rels : List Nat := []
  deriving DecidableEq, Repr

/-- A waiter in a lock queue (R239): wave, arrival tick at the home, deadline. -/
structure LockWaiter where
  wave : Nat
  deadline : Option Nat
  deriving DecidableEq, Repr

/-- A lock-table entry (R239, R241, R445). `holder` is none for a broken line that waits for its next acquire. `copy`
holds the holder's dirty bytes. -/
structure Lock where
  holder : Option Nat
  broken : Bool := false
  /-- Released at issue; the hand-off has not been made (R240). -/
  releasing : Bool := false
  queue : List LockWaiter := []
  copy : Tab Byte := []
  writes : List HeldWrite := []
  deriving DecidableEq, Repr

/-- A wait-set member (R303): an object of a kind, or a future's key. -/
inductive Member where
  | obj (id kind : Nat)
  | fut (key : Nat)
  deriving DecidableEq, Repr

/-- A wait set (R303). -/
structure WaitSet where
  members : Tab Member := []
  ptr : Nat := 0
  waiters : List Nat := []
  deriving DecidableEq, Repr

/-- A timer (R306). -/
structure Timer where
  armed : Bool := false
  deadline : Nat := 0
  period : Nat := 0
  count : Nat := 0
  deriving DecidableEq, Repr

/-- A registered task queue (R333): its QCB, die, queue index, process; whether its head is in the candidate table. -/
structure TaskQueue where
  qcb : Nat
  die : Nat
  ix : Nat
  proc : Nat
  busy : Bool := false
  /-- Successor records that found the ring full, oldest first (R460). -/
  waitPush : List (BitVec 512) := []
  deriving DecidableEq, Repr

/-- A name bound at its authority (R323-R325): dies of this package that cache it; past eight it is uncached. -/
structure Name where
  die : Nat
  tenant : Nat
  name : W64
  pub : Bool
  port : Nat
  gen : Nat
  proc : Nat
  cachers : List Nat := []
  uncached : Bool := false
  /-- Dropped, while cached copies are invalidated: the waiting wave, its issue number and result register (R324). -/
  dropping : Option (Nat × Nat × Nat) := none
  /-- The port's handle where it is a port of another package (R323). -/
  handle : Option W64 := none
  deriving DecidableEq, Repr

/-- A task graph in distributor SRAM and its replay (R335, R336). -/
structure Graph where
  image : Nat
  proc : Nat
  prio : Nat
  clmask : Nat
  done : Nat
  npred : List Nat
  /-- Edges of the image's list, and the successors of each node. -/
  nedges : Nat
  edges : List (List Nat)
  active : Bool := false
  counters : List Nat := []
  left : Nat := 0
  kicks : List Nat := []
  deriving DecidableEq, Repr

/-- A candidate (R337, R339): record, source kind and index, tenant, process, source priority, cycle of readiness, node, launch
cluster mask of the source. -/
structure Cand where
  record : BitVec 512
  kind : Nat
  src : Nat
  tenant : Nat
  proc : Nat
  sprio : Nat
  rdy : Nat
  node : Nat := 0
  clmask : Nat := 0xFFFF
  deriving DecidableEq, Repr

/-- The snapshot block (R374). -/
structure Snap where
  held : Bool := false
  tick : Nat := 0
  miss : Nat := 0
  dir : W64 := 0
  lock : W64 := 0
  waves : Tab (W64 × W64) := []
  deriving DecidableEq, Repr

/-- A shootdown in progress (R198): range, flag, dies still to answer, command window to answer. -/
structure Shoot where
  asn : Nat
  base : Nat
  pages : Nat
  wb : Bool
  dies : List Nat
  window : Option Nat
  /-- Ranges of memory that the removed entries mapped (R198 step 2). -/
  keys : List (Nat × Nat) := []
  deriving DecidableEq, Repr

/-- The work distributor of a die (R337-R341). -/
structure Dist where
  cands : Tab Cand := []
  /-- Event FIFO: hook 0 on_ready, 1 on_slot_free, 2 on_preempt_request, 3 on_balance, with a0 and a1 (R337). -/
  fifo : List (Nat × Nat × Nat) := []
  halted : Bool := false
  /-- The shipped policy runs (R341); false once other microcode is installed (R356). -/
  cox : Bool := true
  ptrs : Tab Nat := []
  balper : Nat := 100000
  lastBal : Nat := 0
  candsel : Nat := 0
  pstat : W32 := 0
  /-- Low words of the microcode's stores to 64-bit registers, by offset (R338). -/
  lows : Tab W32 := []
  graphs : Tab Graph := []
  /-- Ready records that wait while the candidate table is full, in order (R337). -/
  waiting : List Cand := []
  launched : Nat := 0
  deriving DecidableEq, Repr

/-- Per-die registers and units (R347). -/
structure Die where
  tick0 : Nat := 0
  seq : BitVec 16 := 0
  /-- Registers of the map that hold a plain value, by offset; an unlisted one reads its reset value (R347). -/
  regs : Tab W64 := []
  snap : Snap := {}
  dist : Dist := {}
  /-- Free frames for pg.pull (R322), frames passed to the operating service (R311). -/
  pool : List Nat := []
  orphans : List Nat := []
  /-- Retired object indexes (R289). -/
  retired : List Nat := []
  /-- A DLOAD that is pending: image address (R356). -/
  dload : Option Nat := none
  /-- PASS results received, the dies whose lapse reports arrived (R354, R467). -/
  passes : List (Nat × Bool) := []
  lapses : List Nat := []
  /-- Die tick of the last change of HEARTBEAT.COUNT, and of the die's own detection of a lapse (R467). -/
  hbAt : Nat := 0
  lapseAt : Option Nat := none
  /-- The die has a failed mesh edge set or lies outside the mesh (R478). -/
  edgesDown : List Nat := []
  lostDie : Bool := false
  /-- Patrol scrubber position (R471). -/
  scrub : Nat := 0
  eccLast : Tab Nat := []
  eccSince : Tab Nat := []
  /-- Measurement log (R357): SHA-256 of each item, and the digest. -/
  log : List (List Byte) := []
  digest : List Byte := List.replicate 32 0
  qreq : Bool := false
  qbuf : List Byte := []
  /-- PSTATE (R360). -/
  pstate : Nat := 0
  /-- Boot: the reset tick of the wait of R354 has been used. -/
  elected : Bool := false
  /-- Machine-check ring: records not yet overwritten, oldest first, and whether one was lost (R402). -/
  mcRing : List (BitVec 512) := []
  mcLost : Bool := false
  fmtwin : Tab (BitVec 256) := []
  /-- Cluster TLBs by cluster, the last-level TLB, the walk cache (R197). -/
  clTlb : Tab (List TlbEntry) := []
  llTlb : List TlbEntry := []
  walkc : List WalkEntry := []
  contained : Bool := false
  /-- Clusters contained (R403, R469). -/
  clusters : List Nat := []
  svcStopped : Bool := false
  /-- A command of the window waits for the end of the die's containment (R403). -/
  cmdHeld : Bool := false
  deriving DecidableEq, Repr

/-- The lease and the host side (R350-R352, R359). -/
structure HostSide where
  valid : Bool := false
  holder : Nat := 0
  noexp : Bool := false
  expiry : Nat := 0
  /-- Host ports whose link is down. -/
  down : List Nat := []
  /-- Vectors pending while no lease is held, and vectors delivered, oldest first. -/
  pendingVec : List Nat := []
  raised : List (Nat × Nat) := []
  i3cAddr : Option Nat := none
  i3cAlert : Bool := false
  plimit : Nat := 4500
  /-- Odyohal links that train or are down (R477): 1 retraining, 2 down. -/
  links : Tab Nat := []
  deriving DecidableEq, Repr

/-- Whose turn it is (log 2): an event, a wave that proceeds, or a message in flight that arrives. -/
inductive Turn where
  | event (i : Instr)
  | issue (w : Nat)
  | deliver (n : Nat)
  /-- The next event of a queue of a core. -/
  | engine (core q : Nat)
  /-- A deadline that has passed: of a lock waiter, a wait set's waiter, a crew's ageing. -/
  | lockDue (w line : Nat)
  | waitDue (w : Nat)
  | starveDue (crew : Nat)
  /-- The lease's expiry, or the loss of its holder's link. -/
  | leaseDue (linkDown : Bool)
  | pinDue (page : Nat)
  /-- A killed wave's release is complete. -/
  | killDue (w : Nat)
  deriving DecidableEq, Repr

/-- The machine. -/
structure State where
  /-- Memory (R186): (key, byte) with key = node * 2^52 + PA, rising, no entry 0x00. -/
  mem : List Host.Cell := []
  /-- Poisoned 32-byte sectors of memory, by sector number (R473). -/
  mpoison : List Nat := []
  /-- Failed HBM stacks, die * 2 + stack, whose sectors are all poisoned but those written since (R479). -/
  stackDown : List Nat := []
  mclean : List Nat := []
  /-- Granules tagged as futures (R457) and the waves of their deferred-read lists (R173). -/
  futures : Tab (List Nat) := []
  dir : Tab DirEntry := []
  rdc : Tab RdcLine := []
  wbBuf : Tab RdcLine := []
  /-- Requests that wait at a line's home behind a back-invalidation snoop, oldest first: the die, and whether it asks for ownership (R219,
  R225). -/
  homeQ : Tab (List (Nat × Bool)) := []
  pages : Tab PageState := []
  acks : Tab Ack := []
  nextAck : Nat := 0
  locks : Tab Lock := []
  /-- Host ports in CXL mode (R345). -/
  cxl : List Nat := []
  waves : Tab Wave := []
  crews : Tab Crew := []
  procs : Tab Proc := []
  objs : Tab Obj := []
  ports : Tab Port := []
  wsets : Tab WaitSet := []
  timers : Tab Timer := []
  tqs : Tab TaskQueue := []
  names : List Name := []
  /-- This package's bindings at authorities of other packages: each holds a reference to its port (R324). -/
  farNames : List Name := []
  nameCache : List (Nat × Name) := []
  opslots : Tab OpSlot := []
  accs : Tab Acc := []
  nextStore : Nat := 0
  shoots : Tab Shoot := []
  nextShoot : Nat := 0
  /-- Runnable crews in the order in which they became runnable (R298). -/
  runq : List Nat := []
  /-- Gangs, by cluster * 4 + number (R261). -/
  gangs : Tab Gang := []
  /-- Waiting storage claims in order of issue: wave, lanes (R246). -/
  claims : List (Nat × W64) := []
  host : HostSide := {}
  nextFence : Nat := 0
  cores : Tab Core := []
  dies : Tab Die := []
  agenda : List Turn := []
  inflight : List Instr := []
  turn : Nat := 0
  steps : Nat := 0
  free : Nat := 0
  ticks : Nat := 0
  cycles : Nat := 0
  deriving DecidableEq, Repr

def State.reset : State := {}

end Sys2Proof.Machine
end

