-- ==== Sys2Proof/Machine/Bits.lean ====
section
/-!
DEFINITION. Sys2Proof/Machine/Bits.lean: bytes, words and packed structures (spec/03_encoding_and_assembly.md R45: little-endian), and the
numbers of objects, cores and handles (spec/01_device_at_a_glance.md R8, spec/14_muhan_hardware_kernel.md R287).
-/

namespace Sys2Proof.Machine

/-- Bytes of a number, least significant first. -/
def bytesOf (v : Nat) : Nat → List Byte
  | 0 => []
  | n + 1 => BitVec.ofNat 8 v :: bytesOf (v / 256) n

/-- The number of a list of bytes, least significant first. -/
def ofBytes : List Byte → Nat
  | [] => 0
  | b :: t => b.toNat + 256 * ofBytes t

/-- Pack fields (value, low bit, width) into one number. -/
def packFields : List (Nat × Nat × Nat) → Nat
  | [] => 0
  | (v, lo, w) :: t => (v % 2 ^ w) * 2 ^ lo + packFields t

/-- Object id: die * 2^24 + entry index (R286, R287). -/
def objId (die ix : Nat) : Nat := die * 2 ^ 24 + ix
def objDie (id : Nat) : Nat := id / 2 ^ 24
def objIx (id : Nat) : Nat := id % 2 ^ 24

/-- A handle (R287). -/
def mkHandle (node id kind gen : Nat) : W64 :=
  BitVec.ofNat 64 (packFields [(objIx id, 0, 24), (gen, 24, 12), (kind, 36, 5), (objDie id, 41, 3), (node, 44, 16)])
def hGen (h : W64) : Nat := bits h.toNat 35 24
def hKind (h : W64) : Nat := bits h.toNat 40 36
def hNode (h : W64) : Nat := bits h.toNat 59 44
def hId (h : W64) : Nat := objId (bits h.toNat 43 41) (bits h.toNat 23 0)

def kPROC : Nat := 1
def kWAVE : Nat := 2
def kCREW : Nat := 3
def kPORT : Nat := 4
def kWS : Nat := 5
def kTIMER : Nat := 6
def kTQ : Nat := 7
def kGRAPH : Nat := 8

/-- Statuses (R309). -/
def stOK : Nat := 0x00
def stACQBROKEN : Nat := 0x01
def stTIMEOUT : Nat := 0x02
def stEMPTY : Nat := 0x03
def stFULL : Nat := 0x04
def stNONAME : Nat := 0x05
def stNOATOMIC : Nat := 0x06
def stBUSY : Nat := 0x07
def stSTALE : Nat := 0x20
def stNORIGHT : Nat := 0x21
def stBADSPACE : Nat := 0x22
def stDEADLOCK : Nat := 0x23
def stQUOTA : Nat := 0x24
def stBADDESC : Nat := 0x25
def stREVOKED : Nat := 0x26

/-- Die and cluster of a global core number (R8). -/
def coreDie (c : Nat) : Nat := c / 256
def coreCluster (c : Nat) : Nat := c / 16

/-- Sign-extend the low `w` bits of a number to 64 bits. -/
def sext64 (n w : Nat) : W64 := BitVec.ofInt 64 (sextN n w)

/-- A 48-bit address from a number. -/
def va (n : Nat) : BitVec 48 := BitVec.ofNat 48 n

end Sys2Proof.Machine
end

