-- ==== Sys2Proof/Machine/Ops.lean ====
section
/-!
DEFINITION. Sys2Proof/Machine/Ops.lean: the named operations on the state: finding waves, crews and processes,
registers, clocks, free values, fault records, and taking a synchronous trap with the return from it
(spec/21_fault_architecture.md R389-R403, spec/02_execution_model.md R14-R32).
-/

namespace Sys2Proof.Machine

/-! ## Finding and changing parts of the state -/

def State.wave? (s : State) (w : Nat) : Option Wave := Tab.get? s.waves w
def State.setWave (s : State) (w : Nat) (v : Wave) : State := { s with waves := Tab.set s.waves w v }
def State.modWave (s : State) (w : Nat) (f : Wave → Wave) : State := { s with waves := Tab.mod s.waves w f }
def State.crew? (s : State) (c : Nat) : Option Crew := Tab.get? s.crews c
def State.setCrew (s : State) (c : Nat) (v : Crew) : State := { s with crews := Tab.set s.crews c v }
def State.modCrew (s : State) (c : Nat) (f : Crew → Crew) : State := { s with crews := Tab.mod s.crews c f }
def State.proc? (s : State) (p : Nat) : Option Proc := Tab.get? s.procs p
def State.modProc (s : State) (p : Nat) (f : Proc → Proc) : State := { s with procs := Tab.mod s.procs p f }
def State.core (s : State) (c : Nat) : Core := Tab.getD s.cores c {}
def State.modCore (s : State) (c : Nat) (f : Core → Core) : State := { s with cores := Tab.modD s.cores c {} f }
def State.die (s : State) (d : Nat) : Die := Tab.getD s.dies d {}
def State.modDie (s : State) (d : Nat) (f : Die → Die) : State := { s with dies := Tab.modD s.dies d {} f }
def State.obj (s : State) (id : Nat) : Obj := Tab.getD s.objs id {}
def State.modObj (s : State) (id : Nat) (f : Obj → Obj) : State := { s with objs := Tab.modD s.objs id {} f }

def State.modPort (s : State) (id : Nat) (f : Port → Port) : State := { s with ports := Tab.mod s.ports id f }

/-- The core on which a wave's crew holds its slot (R37). -/
def State.coreOf (s : State) (v : Wave) : Nat :=
  match s.crew? v.crew with
  | some c => c.core
  | none => v.die * 256

/-- The die that holds the wave. -/
def State.dieOf (s : State) (v : Wave) : Nat := coreDie (s.coreOf v)

/-- Whether the crew of a wave is resident (R39). -/
def State.isResident (s : State) (v : Wave) : Bool :=
  match s.crew? v.crew with
  | some c => c.place == .resident
  | none => false

/-- Put messages on their way. -/
def State.send (s : State) (l : List Instr) : State := { s with inflight := s.inflight ++ l }

/-- TICK of a die (R145). -/
def State.tickOf (s : State) (d : Nat) : Nat := s.ticks - (s.die d).tick0
/-- CYCLE of a core (R145). -/
def State.cycleOf (s : State) (c : Nat) : Nat := s.cycles - (s.core c).cycle0

/-- A fresh free value (a value the spec leaves open) and the state that has drawn it. -/
def State.drawFree (s : State) : W64 × State := (Config.freeWord s.free, { s with free := s.free + 1 })

/-- NODEID of a die (R347). -/
def State.nodeId (s : State) (d : Nat) : Nat := (Tab.getD (s.die d).regs 0x20 0).toNat % 2 ^ 16

/-! ## Die registers that hold a plain value (R347) -/

/-- Reset values other than 0 (R342, R347, R361, R469). -/
def regReset (off : Nat) : Nat :=
  if off = 0x28 then 1
  else if off = 0x48 then 1024
  else if off = 0x4000 then 16 + 100000 * 2 ^ 16
  else if off = 0x6008 then 4
  else if off = 0x6018 then 1200000
  else if off = 0xC0000 then 16
  else if off = 0xC0020 then 2000000
  else if off = 0xC0028 then 300000
  else 0

/-- A register of a die's map that holds what was written. -/
def State.reg (s : State) (d off : Nat) : Nat :=
  match Tab.get? (s.die d).regs off with
  | some x => x.toNat
  | none => regReset off

def State.setReg (s : State) (d off v : Nat) : State := s.modDie d (fun x => { x with regs := Tab.set x.regs off (BitVec.ofNat 64 v) })

/-! ## Registers -/

def Wave.sreg (v : Wave) (r : Nat) : W64 := Tab.getD v.sregs r 0
def Wave.setSreg (v : Wave) (r : Nat) (x : W64) : Wave := { v with sregs := Tab.set v.sregs r x }
/-- Masks read as zero at and above W (R17). -/
def Wave.mask (v : Wave) (k : Nat) : W64 := Tab.getD v.masks k 0
/-- Writes to mask bits at and above W are ignored (R17). -/
def Wave.setMask (v : Wave) (k : Nat) (x : W64) : Wave := { v with masks := Tab.set v.masks k (x &&& laneMask v.width) }
/-- A word of a lane's allocation (R19). -/
def Wave.row (v : Wave) (lane row : Nat) : W32 := Tab.getD (Tab.getD v.vregs lane []) row 0
/-- Write a whole register word; this clears its poison (R472). -/
def Wave.setRow (v : Wave) (lane row : Nat) (x : W32) : Wave :=
  { v with
    vregs := Tab.modD v.vregs lane [] (fun t => Tab.set t row x)
    vpoison := v.vpoison.filter (fun n => n != lane * 256 + row) }
def Wave.fibre? (v : Wave) (lane : Nat) : Option Fibre := Tab.get? v.fibres lane
def Wave.modFibre (v : Wave) (lane : Nat) (f : Fibre → Fibre) : Wave := { v with fibres := Tab.mod v.fibres lane f }
/-- Lanes that hold a fibre (R35). -/
def Wave.live (v : Wave) : W64 := maskOf (Tab.keys v.fibres)
def Wave.winBase (v : Wave) (lane : Nat) : Nat := ((v.fibre? lane).map (·.winBase)).getD 0
/-- A predicate of a lane's fibre; p0 always reads 1 (R20). -/
def Wave.pred (v : Wave) (lane p : Nat) : Bool :=
  p == 0 || ((v.fibre? lane).map (fun f => f.preds.getLsbD p)).getD false
/-- Write a predicate; a write to p0 is discarded (R20). -/
def Wave.setPred (v : Wave) (lane p : Nat) (b : Bool) : Wave :=
  if p = 0 then v
  else v.modFibre lane (fun f =>
    { f with preds := if b then f.preds ||| (1#8 <<< p) else f.preds &&& ~~~(1#8 <<< p) })
def Wave.token (v : Wave) (k : Nat) : Token := Tab.getD v.tokens k {}
def Wave.stream (v : Wave) (q : Nat) : Stream := Tab.getD v.streams q {}
/-- The generator state of a lane (R87, R88). -/
def Wave.gen (v : Wave) (lane : Nat) : W32 := Tab.getD v.gens lane (srSeedLane v.srseed lane)

/-- Lanes held by a hold of the wave (R24). -/
def Wave.heldLanes (v : Wave) : W64 := v.held.foldl (fun m h => m ||| h.lanes) 0#64

/-- The mode a wave is in: 2 debug mode, 1 trap mode, 0 neither. -/
def Wave.mode (v : Wave) : Nat := if v.dbg.isSome then 2 else if v.inTrap then 1 else 0

/-- Lanes held by a hold that began in a mode (R24, R417: in a handler an instruction that holds its batch holds it as elsewhere). -/
def Wave.heldIn (v : Wave) (m : Nat) : W64 := v.held.foldl (fun x h => if h.mode == m then x ||| h.lanes else x) 0#64

/-- The core writes names, never lanes: launch, block and thread of a lane's fibre (R40, R41). -/
def Wave.threadOf (v : Wave) (lane : Nat) : Nat := ((v.fibre? lane).map (fun f => f.thread.toNat)).getD 0

/-- The lowest lane of a mask, 0 where it is empty. -/
def lowLane (m : W64) : Nat := ((lanesOf m 64).head?).getD 0

/-- The lane from which a record takes THREAD (R393). -/
def Trap.lane (t : Trap) : Nat := if t.low < 64 then t.low else lowLane t.lanes

/-! ## Fault records (R399, R401, R402) -/

/-- Containment scopes (R399, R403). -/
def scNONE : Nat := 0
def scWAVE : Nat := 1
def scCREW : Nat := 2
def scPROC : Nat := 3
def scCLUSTER : Nat := 4
def scDIE : Nat := 5

/-- What a record says besides its stamps (R399). -/
structure RecInfo where
  cause : Nat
  sub : Nat := 0
  cls : Nat
  scope : Nat := 0
  susp : Bool := false
  tenant : Nat := 0
  core : Nat := 0x7FF
  wslot : Nat := 0
  launch : Nat := 0
  block : Nat := 0
  thread : Nat := 0
  pc : Nat := 0
  val : Nat := 0
  lanes : Nat := 0
  word : Nat := 0
  xword : Nat := 0
  crew : Nat := 0
  detail : Nat := 0
  deriving DecidableEq, Repr

/-- Take the die's next sequence number (R376). -/
def State.takeSeq (s : State) (d : Nat) : Nat × State :=
  ((s.die d).seq.toNat, s.modDie d (fun x => { x with seq := x.seq + 1 }))

/-- The 64-byte record (R399). -/
def RecInfo.pack (r : RecInfo) (lost : Bool) (die seq tick : Nat) : BitVec 512 :=
  BitVec.ofNat 512 (packFields
    [(r.cause, 0, 8), (r.sub, 8, 8), (r.cls, 16, 2), (r.scope, 18, 3), (b2n r.susp, 21, 1), (b2n lost, 22, 1),
     (die, 24, 3), (r.tenant, 32, 16), (seq, 48, 16), (tick, 64, 48), (r.core, 112, 11), (r.wslot, 123, 5),
     (r.launch, 128, 32), (r.block, 160, 32), (r.thread, 192, 16), (r.pc, 208, 48), (r.val, 256, 64),
     (r.lanes, 320, 64), (r.word, 384, 32), (r.xword, 416, 32), (r.crew, 448, 24), (r.detail, 480, 32)])

/-- Write a packed record to a die's machine-check ring: 256 records, the oldest overwritten (R402). -/
def State.ringWrite (s : State) (d : Nat) (rec : BitVec 512) : State :=
  s.modDie d (fun x =>
    let full := decide (x.mcRing.length ≥ 256)
    let rec' := if x.mcLost then rec ||| (1#512 <<< 22) else rec
    { x with mcRing := (if full then x.mcRing.drop 1 else x.mcRing) ++ [rec'], mcLost := full })

/-- A machine check: a record in the die's ring (R402). -/
def State.machineCheck (s : State) (d : Nat) (r : RecInfo) : State :=
  let (q, s1) := s.takeSeq d
  s1.ringWrite d (r.pack false d q (s.tickOf d % 2 ^ 48))

/-- Whether a process's fault port can take a record: named, live and of this package (R401). -/
def State.faultPort? (s : State) (p : Nat) : Option (Nat × Nat) :=
  match s.proc? p with
  | none => none
  | some pr =>
    if pr.faultport = 0#64 then none
    else
      let id := hId pr.faultport
      match Tab.get? s.ports id with
      | none => none
      | some po =>
        if (s.obj id).gen = hGen pr.faultport ∧ po.queue.length + po.reserved < po.depth then some (id, hGen pr.faultport) else none

/-- Send a record with a given sequence number to a process's fault port, or to the ring when the port cannot take it
(R401). -/
def State.sendRecordSeq (s : State) (d p q : Nat) (r : RecInfo) : State :=
  let tenant := ((s.proc? p).map (fun x => x.tenant.toNat)).getD 0
  let r' := { r with tenant := tenant }
  let tick := s.tickOf d % 2 ^ 48
  match s.faultPort? p with
  | some (id, gen) =>
    let lost := ((s.proc? p).map (·.lost)).getD false
    let msg : PortMsg :=
      { inl := bytesOf (r'.pack lost d q tick).toNat 64, tenant := tenant, node := s.nodeId d, die := d
        proc := p, record := true, res := true, crew := if r.cause == 0x2A then objId d r.crew else 0 }
    ((s.modProc p (fun x => { x with lost := false })).modPort id (fun x => { x with reserved := x.reserved + 1 })).send
      [.portMessageEnqueue id gen msg none]
  | none =>
    (s.ringWrite d (r'.pack false d q tick)).modProc p (fun x => { x with lost := true })

/-- Send a record (R401). -/
def State.sendRecord (s : State) (d p : Nat) (r : RecInfo) : State :=
  let (q, s1) := s.takeSeq d
  s1.sendRecordSeq d p q r

/-- A record about a wave: placement and name fields (R399, R41). -/
def State.waveRec (s : State) (v : Wave) (lane : Nat) (cause sub cls scope : Nat) : RecInfo :=
  { cause := cause, sub := sub, cls := cls, scope := scope, core := s.coreOf v, wslot := v.wslot
    launch := v.launch.toNat, block := v.block.toNat, thread := v.threadOf lane, crew := objIx v.crew }

/-! ## Containment (R403) -/

/-- A member that is not blocked in a Muhan wait and not suspended (R42, R403). -/
def Wave.active (v : Wave) : Bool := !v.dead && v.wait.isNone && !v.suspended

/-- A crew without an active member is not runnable and leaves the run queue (R294, R403). -/
def State.pruneRunq (s : State) : State :=
  { s with runq := s.runq.filter (fun c => s.waves.any (fun e => e.2.crew == c && e.2.active)) }

def State.suspendWave (s : State) (w : Nat) : State := (s.modWave w (fun v => { v with suspended := true })).pruneRunq

def State.suspendWhere (s : State) (p : Wave → Bool) : State :=
  ({ s with waves := s.waves.map (fun e => if p e.2 then (e.1, { e.2 with suspended := true }) else e) } : State).pruneRunq

/-- The gang that a crew has joined, with its key (R261). A crew that has dissolved leaves its gang only after its matrix commands (R267). -/
def State.gangOf (s : State) (c : Nat) : Option (Nat × Gang) :=
  match s.crew? c with
  | none => s.gangs.find? (fun e => e.2.crews.any (fun x => x.2 == c))
  | some k => k.gang.bind (fun p => (Tab.get? s.gangs (coreCluster k.core * 4 + p.1)).map (fun x => (coreCluster k.core * 4 + p.1, x)))

/-- The crews that hold as one holder: the formed gang of a crew, or the crew alone (R262). -/
def State.holderCrews (s : State) (c : Nat) : List Nat :=
  match s.gangOf c with
  | some (_, x) => if x.formed then (x.crews.map (·.2)).filter (fun k => (s.crew? k).isSome) else [c]
  | none => [c]

/-- Crew containment; a gang's crews are suspended together (R262, R403). -/
def State.suspendCrew (s : State) (c : Nat) : State := s.suspendWhere (fun v => (s.holderCrews c).contains v.crew)

/-- Process containment: every wave on every die is suspended and launches are refused (R403). -/
def State.containProc (s : State) (p : Nat) : State :=
  (s.suspendWhere (fun v => v.proc == p)).modProc p (fun x => { x with contained := true })

/-- A machine check whose containment reaches processes: one record in the ring and, with the same number, one to each of them (R401, R402). -/
def State.machineCheckTo (s : State) (d : Nat) (r : RecInfo) (procs : List Nat) : State :=
  let (q, s1) := s.takeSeq d
  procs.foldl (fun s p => s.sendRecordSeq d p q r) (s1.ringWrite d (r.pack false d q (s.tickOf d % 2 ^ 48)))

/-- HBMUE: the device's own work for a process meets an uncorrectable error at a physical address (R474). -/
def State.hbmue (s : State) (d p key : Nat) : State :=
  (s.containProc p).machineCheckTo d { cause := 0x64, sub := 6, cls := 2, scope := scPROC, susp := true, val := key } [p]

/-! ## Taking a synchronous trap (R391-R398) -/

/-- Cause codes of this file (R400). -/
def cSWTRAP : Nat := 0x08
def cXLDEAD : Nat := 0x09
def cMKDEAD : Nat := 0x0A
def cDOUBLE : Nat := 0x41
def cPOISON : Nat := 0x62

/-- Causes that stop the instruction without a handler: the walk of its access met HBMUE (R474); the home of its line serves no request
(R451). -/
def cHBMUE : Nat := 0x64
def cACKLOST : Nat := 0x67

/-- Start the entering batch at an address in the handler (R394). The lanes' fibres keep predicates and windows. -/
def Wave.enterAt (v : Wave) (lanes : W64) (pc : BitVec 48) : Wave :=
  (lanesOf lanes v.width).foldl (fun v l => v.modFibre l (fun f => { f with pc := pc })) v

/-- The trap frame of an entry (R395), s60-s63 included. -/
def Wave.makeFrame (v : Wave) (t : Trap) (lanes : W64) (site : Site) (tepc : BitVec 48) (issued : Nat) (isOpen : Bool) :
    TrapFrame :=
  { cause := BitVec.ofNat 8 t.cause, sub := BitVec.ofNat 8 t.sub
    tepc := tepc, tfpc := site.pc, tval := t.tval
    tword := BitVec.ofNat 64 (site.word.toNat + site.x1.toNat * 2 ^ 32)
    txword := BitVec.ofNat 64 site.x2.toNat
    tmask := lanes, tlanes := t.lanes
    tsave0 := v.sreg 60, tsave1 := v.sreg 61, tsave2 := v.sreg 62, tsave3 := v.sreg 63
    trun := BitVec.ofNat 64 (issued + 32 * b2n isOpen) }

/-- Leave debug mode without a return (R397: a double trap in debug mode). -/
def Wave.dropDebug (v : Wave) : Wave := { v with dbg := none }

/-- Deliver a trap whose frame values are known: enter the handler, or suspend and record (R394, R397, R398). -/
def State.deliverTrap (s : State) (w : Nat) (v : Wave) (t : Trap) (lanes : W64) (site : Site) (tepc : BitVec 48)
    (frozen : Option Run) (issued : Nat) (isOpen : Bool) : State :=
  let d := s.dieOf v
  let lane := t.lane
  let recBase := { s.waveRec v lane t.cause t.sub 0 scWAVE with
    susp := true, pc := site.pc.toNat, val := t.tval.toNat, lanes := t.lanes.toNat, word := site.word.toNat
    xword := site.x1.toNat }
  if t.cause = cHBMUE || t.cause = cACKLOST then s.setWave w v
  else if v.inTrap || v.dbg.isSome then
    -- double trap: suspended, no handler, a DOUBLE record with the second cause as SUB (R397)
    (s.setWave w { v.dropDebug with suspended := true }).sendRecord d v.proc
      { recBase with cause := cDOUBLE, sub := t.cause, cls := 1 }
  else
    let base := ((s.proc? v.proc).map (·.trapbase)).getD 0#48
    let v1 := { v with frame := v.makeFrame t lanes site tepc issued isOpen, frozen := frozen }
    if base = 0#48 then
      -- undelivered: suspended where the trap leaves it, a class-0 record (R398); POISON contains the crew (R400)
      let v2 := { v1 with suspended := true, undelivered := true, trapMask := lanes }
      let s1 := s.setWave w v2
      if t.cause = cPOISON then
        (s1.suspendCrew v.crew).sendRecord d v.proc { recBase with scope := scCREW }
      else s1.sendRecord d v.proc recBase
    else
      s.setWave w { (v1.enterAt lanes base) with inTrap := true, trapMask := lanes, rfeMask := 0 }

/-- The wave's open run stands at a boundary until the wave may go on. -/
def Wave.park (v : Wave) (run : Run) : Wave :=
  { v with run := none, resume := if run.issued = 0 then none else some run, suspended := true }

/-- A request to a home that serves none waits; after 10 ms it fails as ACKLOST (R450, R451). -/
def State.waitHome (s : State) (w : Nat) (v : Wave) (run : Run) (addr : W64) : State :=
  let d := s.dieOf v
  match v.homeWait with
  | none => s.modWave w (fun x => { x with homeWait := some (s.tickOf d) })
  | some t0 =>
    if s.tickOf d < t0 + 1000000 then s
    else ((s.setWave w { v.park run with homeWait := none }).containProc v.proc).machineCheckTo d
      { cause := cACKLOST, cls := 2, scope := scPROC, susp := true, val := addr.toNat, detail := s.nodeId d } [v.proc]

/-- An issue trap (R391): the open run is frozen; the instruction performs nothing. -/
def State.issueTrap (s : State) (w : Nat) (v : Wave) (run : Run) (t : Trap) (site : Site) : State :=
  let lanes := run.mask &&& v.live
  let isOpen := run.issued != 0
  let t' := { t with lanes := if t.lanes = 0#64 then lanes else t.lanes }
  if t.cause = cHBMUE then s.setWave w (v.park run)
  else if t.cause = cACKLOST then s.waitHome w v run t.tval
  else s.deliverTrap w { v with run := none } t' lanes site site.pc (if isOpen then some run else none) run.issued isOpen

/-- A completion trap (R392): taken after the run has ended; there is no frozen run. -/
def State.lateTrap (s : State) (w : Nat) (v : Wave) (lanes : W64) (lf : LateFault) (tepc : BitVec 48) : State :=
  s.deliverTrap w v lf.trap lanes { pc := lf.pc, word := lf.word, x1 := lf.x1, x2 := lf.x2 } tepc none 0 false

/-- trap n (R147): entry after the run's results commit; the return PC is the word after the trap word. -/
def State.softTrap (s : State) (w : Nat) (v : Wave) (lanes : W64) (n : Nat) (site : Site) : State :=
  s.deliverTrap w v { cause := cSWTRAP, sub := n, lanes := lanes } lanes site (site.pc + 4#48) none 0 false

/-- Restore s60-s63 from the frame, clear INTRAP (R397). -/
def Wave.leaveTrap (v : Wave) : Wave :=
  { ((((v.setSreg 60 v.frame.tsave0).setSreg 61 v.frame.tsave1).setSreg 62 v.frame.tsave2).setSreg 63 v.frame.tsave3) with
    inTrap := false, trapMask := 0, rfeMask := 0 }

end Sys2Proof.Machine
end

