-- ==== Sys2Proof/Machine/Flags.lean ====
section
/-!
DEFINITION. Sys2Proof/Machine/Flags.lean: what a commit does to a wave: registers, predicates, masks, FPFLAGS and
PWINFLAGS (spec/02_execution_model.md R28-R32, spec/04_number_formats.md R90, spec/06_uniform_and_control_instructions.md R144).
-/

namespace Sys2Proof.Machine

/-- FPFLAGS after a commit ORs flags in (R89, R90). -/
def Wave.orFlags (v : Wave) (f : BitVec 5) : Wave := { v with fpflags := v.fpflags ||| f }
/-- PWINFLAGS after an ldp commits (R144, R157). -/
def Wave.orOob (v : Wave) (f : BitVec 8) : Wave := { v with pwinflags := v.pwinflags ||| f }

/-- Lanes held at mk.wait on a mask. -/
def Wave.heldOn (v : Wave) (k : Nat) : W64 := v.held.foldl (fun m h => if h.on == .maskWait k then m ||| h.lanes else m) 0#64

/-- Release a mask whose live lanes are all held on it (R35). -/
def Wave.settleMask (v : Wave) (k : Nat) : Wave :=
  if v.heldOn k != 0#64 && (v.mask k &&& v.live &&& ~~~(v.heldOn k)) == 0#64 then
    { v with held := v.held.filter (fun h => h.on != .maskWait k) } else v

/-- Release every mask whose live lanes are all held on it (R35). -/
def Wave.settleMasks (v : Wave) : Wave := (List.range 12).foldl Wave.settleMask v

/-- Write a temporary of the frozen run (R396). -/
def Wave.setFrozenTemp (v : Wave) (l i : Nat) (x : W32) : Wave :=
  match v.dbg with
  | some d => { v with dbg := some { d with frozen := d.frozen.map (fun r => { r with temps := Tab.set r.temps (l * 8 + i) x }) } }
  | none => { v with frozen := v.frozen.map (fun r => { r with temps := Tab.set r.temps (l * 8 + i) x }) }

/-- Write a location of the wave; temporaries live in the run. A write of a mask evaluates the waits on it (R139). -/
def Wave.put (v : Wave) : Loc → W64 → Wave
  | .v lane row, x => v.setRow lane row (BitVec.ofNat 32 x.toNat)
  | .t _ _, _ => v
  | .f lane i, x => v.setFrozenTemp lane i (BitVec.ofNat 32 x.toNat)
  | .p lane i, x => v.setPred lane i (x.getLsbD 0)
  | .s r, x => v.setSreg r x
  | .k n, x => (v.setMask n x).settleMask n

/-- Write a temporary of the run (R32). -/
def Run.putTemp (r : Run) : Loc → W64 → Run
  | .t lane i, x => { r with temps := Tab.set r.temps (lane * 8 + i) (BitVec.ofNat 32 x.toNat) }
  | _, _ => r

/-- The program-order place of the last write to a location in this run. -/
def lastWriter (l : Loc) : List (Loc × Nat) → Option Nat
  | [] => none
  | (k, q) :: t => if k = l then some q else lastWriter l t

/-- Note a write (R30). -/
def noteWriter (l : Loc) (q : Nat) : List (Loc × Nat) → List (Loc × Nat)
  | [] => [(l, q)]
  | (k, q') :: t => if k = l then (l, q) :: t else (k, q') :: noteWriter l q t

/-- A result does not overwrite what a later instruction of the run has already written (R30). -/
def Run.allows (r : Run) (l : Loc) (q : Nat) : Bool :=
  match lastWriter l r.wrote with
  | none => true
  | some q' => q' ≤ q

/-- Commit one write of a result. -/
def commitWrite (q : Nat) (vr : Wave × Run) (w : Write) : Wave × Run :=
  if vr.2.allows w.loc q then
    (vr.1.put w.loc w.val, { (vr.2.putTemp w.loc w.val) with wrote := noteWriter w.loc q vr.2.wrote })
  else vr

/-- Commit a result: its writes, then its flags (R28, R30, R90). -/
def commitRes (vr : Wave × Run) (r : Res) : Wave × Run :=
  let (v, run) := r.writes.foldl (commitWrite r.seq) vr
  ((v.orFlags r.flags).orOob r.oob, run)

/-- One more instruction of the run has issued: a fixed count falls by one (R28). -/
def Res.tick (r : Res) : Res := { r with left := r.left.map (· - 1) }

def Res.due (r : Res) : Bool := r.left == some 0

/-- An issue of the run: counts fall, and results whose count reaches zero commit in program order (R28, R30). -/
def countIssue (v : Wave) (run : Run) : Wave × Run :=
  let p := run.pending.map Res.tick
  let (v', run') := (p.filter Res.due).foldl commitRes (v, run)
  (v', { run' with pending := p.filter (fun r => !r.due) })

/-- The run's end: everything commits in program order (R28-R30). -/
def commitAll (v : Wave) (run : Run) : Wave × Run :=
  let (v', run') := run.pending.foldl commitRes (v, run)
  (v', { run' with pending := [] })

end Sys2Proof.Machine
end

