-- ==== Sys2Proof/Machine/Operands.lean ====
section
/-!
DEFINITION. Sys2Proof/Machine/Operands.lean: what an issuing instruction reads: lane operand codes, pairs and groups, uniform
operands, and the register checks of an issue that depend on the wave (spec/03_encoding_and_assembly.md R49-R53,
spec/22_execution_and_instruction_faults.md R411-R414, spec/24_kernel_scheduler_host_and_ras_faults.md R472).
-/

namespace Sys2Proof.Machine

/-- What an issuing instruction sees: its wave, the open run, the instruction and its words (R24). -/
structure Ctx where
  w : Nat
  v : Wave
  run : Run
  raw : Raw
  words : List W32
  /-- Lanes of the batch that still hold a fibre. -/
  lanes : List Nat
  /-- Active lanes: guard reads 1 (R24). For G-set instructions every lane of the batch. -/
  act : List Nat
  deriving Repr

def Ctx.x (c : Ctx) : W32 :=
  match c.raw with
  | .lr _ f => f.x
  | .gr _ f => f.x
  | _ => 0

def Ctx.pc (c : Ctx) : BitVec 48 := c.run.pc

/-- The instruction's place and words; the opcode word and the operand word are the extension words. -/
def Ctx.site (c : Ctx) : Site :=
  { pc := c.run.pc, word := c.words.getD 0 0, x1 := c.words.getD 1 0, x2 := c.words.getD 2 0 }

/-- The address after the instruction and its extension words (R53). -/
def Ctx.nextPc (c : Ctx) : BitVec 48 := c.run.pc + BitVec.ofNat 48 (4 * c.words.length)

/-- The run whose temporaries vget and vset reach: the frozen run in trap and debug mode, else the open one (R396). -/
def Wave.frozenTemps (v : Wave) : Option Run :=
  match v.dbg with
  | some d => d.frozen
  | none => if v.inTrap then v.frozen else none

/-- A 32-bit lane operand by its code (R49). `ow` is the operand word. -/
def readLane (c : Ctx) (ow : W32) (lane code : Nat) : W32 :=
  if code < 0x30 then c.v.row lane (c.v.winBase lane + code)
  else if code < 0x38 then Tab.getD c.run.temps (lane * 8 + (code - 0x30)) 0
  else if code = 0x38 then 0
  else if code = 0x39 then BitVec.ofNat 32 lane
  else if code = 0x3A then ow
  else BitVec.ofNat 32 (c.v.sreg (ow.toNat % 64)).toNat

/-- A 64-bit lane operand for integer operations (R50). -/
def readPair (c : Ctx) (ow : W32) (lane code : Nat) : W64 :=
  if code < 0x38 then
    BitVec.ofNat 64 ((readLane c ow lane code).toNat + (readLane c ow lane (code + 1)).toNat * 2 ^ 32)
  else sext64 (readLane c ow lane code).toNat 32

/-- A 64-bit lane operand for f64 operations: XW and XS are f32 converted exactly (R50). -/
def readF64 (c : Ctx) (ow : W32) (lane code : Nat) : W64 :=
  if code < 0x38 then readPair c ow lane code
  else if code = 0x38 then 0
  else BitVec.ofNat 64 (Fmt.f64.round (Fmt.f32.decode (readLane c ow lane code).toNat) .rne false 0).1

/-- A group of n consecutive lane registers as one number, lowest register least significant (R152). -/
def readGroup (c : Ctx) (ow : W32) (lane code n : Nat) : Nat :=
  if n = 1 then (readLane c ow lane code).toNat
  else if n = 2 then (readPair c ow lane code).toNat
  else if code ≥ 0x38 then 0
  else (List.range n).foldl (fun a i => a + (readLane c ow lane (code + i)).toNat * 2 ^ (32 * i)) 0

/-- The B operand of GR (R52). -/
def readB (c : Ctx) (f : GR) : W64 :=
  if f.b.toNat ≥ 256 then sext64 (f.b.toNat % 256) 8
  else if f.b = 0x080#9 then sext64 f.ow.toNat 32
  else c.v.sreg (f.b.toNat % 64)

def readA (c : Ctx) (f : GR) : W64 := c.v.sreg f.a.toNat
/-- The register number that B names (R411). -/
def GR.bReg (f : GR) : Nat := f.b.toNat % 64

/-- Writes of a lane result of n registers to destination code d (R49, R94). Under V = 1 a write to a temporary is
discarded (R33); a result for zero is discarded. -/
def laneWrites (c : Ctx) (v1 : Bool) (lane d n : Nat) (val : Nat) : List Write :=
  if d < 0x30 then
    (List.range n).map (fun i =>
      { loc := .v lane (c.v.winBase lane + d + i), val := BitVec.ofNat 64 (val / 2 ^ (32 * i) % 2 ^ 32) })
  else if d < 0x38 then
    (if v1 then [] else (List.range n).map (fun i =>
      { loc := .t lane (d - 0x30 + i), val := BitVec.ofNat 64 (val / 2 ^ (32 * i) % 2 ^ 32) }))
  else []

/-! ## Register checks of an issue -/

/-- A register group an instruction names: role, first code, number of registers, whether it reads it and a poisoned
word of it counts as consumed (R472). -/
structure Use where
  role : Nat
  code : Nat
  n : Nat
  reads : Bool
  deriving Repr

def useOf (o : Opd) (role code : Nat) : List Use :=
  match o with
  | .src n => [{ role := role, code := code, n := n, reads := true }]
  | .dst n => [{ role := role, code := code, n := n, reads := false }]
  | _ => []

/-- The register groups of an LR instruction (R411, R412). The data of a store is not consumed (R472). -/
def usesLR (op : Nat) (f : LR) : List Use :=
  let sh := laneShape op f.x
  useOf sh.d 0 f.d.toNat ++ useOf sh.a 1 f.a.toNat
  ++ (if op = 0x61 then (useOf sh.b 2 f.b.toNat).map (fun u => { u with reads := false }) else useOf sh.b 2 f.b.toNat)
  ++ (match sh.x with
      | .op4 n => [{ role := 3, code := f.x.toNat % 64, n := n, reads := true }]
      | .hist => if op = 0x5B then [{ role := 0, code := f.d.toNat, n := xBins f.x, reads := true }]
                 else [{ role := 1, code := f.a.toNat, n := xBins f.x, reads := true }]
      | .cas => [{ role := 2, code := f.b.toNat, n := 2 * laneGroup (xSize f.x), reads := true }]
      | .pack => [{ role := 0, code := f.d.toNat, n := 1, reads := true }]
      | _ => [])

/-- The rows of a group that lie at or above the wave's VREGS (R412). -/
def useOutside (v : Wave) (u : Use) (lane : Nat) : Bool :=
  u.code < 0x30 && decide (v.winBase lane + u.code + u.n > v.nvregs)

/-- A poisoned word that the group reads. -/
def usePoison (v : Wave) (u : Use) (lane : Nat) : Option Nat :=
  if u.reads && u.code < 0x30 then
    (List.range u.n).find? (fun i => v.vpoison.contains (lane * 256 + v.winBase lane + u.code + i))
  else none

/-- OPERAND 0x03 of the lanes whose window places a register outside the allocation (R412). -/
def outsideTraps (c : Ctx) (us : List Use) : List Trap :=
  let hit := c.act.filterMap (fun l => (us.find? (fun u => useOutside c.v u l)).map (fun u => (l, u)))
  match hit with
  | [] => []
  | (_, u) :: _ => [{ cause := cOPERAND, sub := 3, tval := BitVec.ofNat 64 u.role, lanes := maskOf (hit.map (·.1)) }]

/-- POISON of a register read (R472): TVAL from the lowest lane that consumes it. -/
def poisonTraps (c : Ctx) (us : List Use) : List Trap :=
  let hit := c.act.filterMap (fun l =>
    (us.filterMap (fun u => (usePoison c.v u l).map (fun i => (l, u, i)))).head?)
  match hit with
  | [] => []
  | (_, u, i) :: _ =>
    let role := if u.role = 1 then 0 else if u.role = 2 then 1 else if u.role = 3 then 2 else 3
    [{ cause := cPOISON, sub := 1, tval := BitVec.ofNat 64 (u.code + i + role * 64), lanes := maskOf (hit.map (·.1)) }]

/-- The cause reported when several checks fail: lowest cause, then lowest SUB; TLANES holds every lane that raised any
(R393, R405). RESERVED bits of one word are reported together (log 21). -/
def pickTrap (ts : List Trap) : Option Trap :=
  match minBy (fun t => t.cause * 256 + t.sub) ts with
  | none => none
  | some t =>
    let all := ts.foldl (fun m x => m ||| x.lanes) 0#64
    let tv := if t.cause = cRESERVED then
        (ts.filter (fun x => x.cause == t.cause && x.sub == t.sub)).foldl (fun m x => m ||| x.tval) 0#64
      else t.tval
    let same := (ts.filter (fun x => x.cause == t.cause)).map Trap.lane
    some { t with lanes := all, tval := tv, low := (minList same).getD 64 }

def StaticFault.toTrap (f : StaticFault) (lanes : W64) : Trap :=
  { cause := f.cause, sub := f.sub, tval := BitVec.ofNat 64 f.tval, lanes := lanes }

/-- RUNSHAPE (R415, R416): the 25th instruction of a run, and a run-ending instruction without S, under V = 0. -/
def shapeTraps (c : Ctx) (v1 s : Bool) : List Trap :=
  if v1 then []
  else
    (if c.run.issued ≥ 24 then [{ cause := cRUNSHAPE, sub := 1, tval := 24, lanes := maskOf c.lanes }] else [])
    ++ (if endsRun c.raw && !s then [{ cause := cRUNSHAPE, sub := 2, tval := 0, lanes := maskOf c.lanes }] else [])

end Sys2Proof.Machine
end

