-- ==== Sys2Proof/Machine/Issue.lean ====
section
/-!
DEFINITION. Sys2Proof/Machine/Issue.lean: the issue of one instruction by the wave whose turn it is: checks, traps, the
instruction's effect, and its entry in the run (spec/02_execution_model.md R24-R34, spec/22_execution_and_instruction_faults.md R405).
-/

namespace Sys2Proof.Machine

/-- What an instruction does when it issues: the state with its immediate effects, its result, where the batch goes, and
what happens when the run ends. -/
structure Eff where
  s : State
  writes : List Write := []
  flags : BitVec 5 := 0
  oob : BitVec 8 := 0
  /-- The variable result returns later; false until it has a value (a Muhan wait). -/
  ready : Bool := true
  /-- PC of every fibre of the batch; none: the next instruction. -/
  goto : Option (BitVec 48) := none
  /-- PCs of single lanes (brp). -/
  lanePc : Tab (BitVec 48) := []
  winNext : Tab Nat := []
  late : List Trap := []
  onEnd : OnEnd := .go
  waitAck : Bool := false
  waitZlr : List Nat := []
  /-- Local watchpoint hits (R368). -/
  watch : List (Nat × W64 × Nat) := []
  /-- The run waits until the wave's writes at locked lines are applied (R241). -/
  waitHeld : Bool := false
  /-- The run waits for this instruction although it writes no register. -/
  waitVar : Bool := false
  /-- No register result at all. -/
  silent : Bool := false

/-- The outcome of an instruction's own checks and effect. -/
inductive Iss where
  /-- Its own checks fail: an issue trap. -/
  | trap (ts : List Trap) (st : Option State := none)
  /-- It does not issue now and stays the next instruction (R215, R365). -/
  | stall (s : State)
  | ok (e : Eff)

/-- A stop that has been called leaves a wave few further issues (R369). -/
def stopSlack (s : State) (w : Nat) (v : Wave) : Bool :=
  match (s.core (s.coreOf v)).stop with
  | none => true
  | some q =>
    if v.dbg.isSome || !(q.crew == none || q.crew == some v.crew) then true
    else v.issues < Tab.getD q.base w v.issues + q.limit

/-- The wave whose instruction issues, with its open run: the run has not ended, the crew is resident (R39), and the wave is neither
stopped (R369) nor past its single step (R370). -/
def State.issuer (s : State) : Option (Wave × Run) :=
  match s.wave? s.turn with
  | none => none
  | some v => match v.run with
    | none => none
    | some r => if r.ended || v.stopped || v.stepState == 2 || !s.isResident v || !stopSlack s s.turn v then none else some (v, r)

/-- The context of an issue. A lane instruction acts for the fibres whose guard reads 1, any other for the batch. -/
def mkCtx (w : Nat) (v : Wave) (run : Run) (i : Instr) : Ctx :=
  let lanes := lanesOf (run.mask &&& v.live) v.width
  let act := match i.raw with
    | .lr _ f => lanes.filter (fun l => v.pred l f.g.toNat)
    | .lb _ f => lanes.filter (fun l => v.pred l f.g.toNat)
    | _ => lanes
  { w := w, v := v, run := run, raw := i.raw, words := encode i, lanes := lanes, act := act }

/-- The wave's state after an instruction has issued: earlier counts fall, its own result is added, its PC moves, and
a run-ending word ends the run (R27, R28, R33). -/
def retireWave (c : Ctx) (v : Wave) (v1 s : Bool) (e : Eff) : Wave :=
  let q := v.issues
  let (v', run1) := countIssue v c.run
  let res : List Res :=
    match resultClass c.raw with
    | .none => if e.waitVar then [{ seq := q, left := none, back := false, ready := e.ready, writes := e.writes }]
        else if e.flags == 0 && e.writes.isEmpty then [] else [{ seq := q, left := some 1, writes := e.writes, flags := e.flags }]
    | .fix n => [{ seq := q, left := some n, writes := e.writes, flags := e.flags, oob := e.oob }]
    | .var => if e.silent then [] else
        [{ seq := q, left := none, back := false, ready := e.ready, writes := e.writes, flags := e.flags, oob := e.oob }]
  let site := c.site
  let lates : List LateFault := e.late.map (fun t =>
    { seq := q, trap := t, pc := site.pc, word := site.word, x1 := site.x1, x2 := site.x2 })
  let run2 : Run :=
    { run1 with
      issued := run1.issued + 1
      pc := e.goto.getD c.nextPc
      targets := e.lanePc.foldl (fun t p => Tab.set t p.1 p.2) run1.targets
      winNext := e.winNext.foldl (fun t p => Tab.set t p.1 p.2) run1.winNext
      pending := run1.pending ++ res
      late := run1.late ++ lates
      watch := run1.watch ++ e.watch
      waitAck := run1.waitAck || e.waitAck
      waitHeld := run1.waitHeld || e.waitHeld
      waitZlr := run1.waitZlr ++ e.waitZlr
      onEnd := e.onEnd
      site := site
      ended := s || v1 }
  { v' with issues := q + 1, run := some run2, lastMask := maskOf c.act, lastPc := c.run.pc, skipBpc := false, homeWait := none
            stepState := if v.stepState = 1 then 2 else v.stepState }

/-- An instruction has issued and acted. -/
def retire (c : Ctx) (v1 s : Bool) (e : Eff) : State :=
  e.s.modWave c.w (fun v => retireWave c v v1 s e)

/-- The register groups of an instruction's checks. -/
def usesOf : Raw → List Use
  | .lr op f => usesLR op f
  | _ => []

/-- End the open run of a wave without an instruction, as if the last one had carried S (R34). -/
def State.endRun (s : State) (w : Nat) : State :=
  s.modWave w (fun v => { v with run := v.run.map (fun r => { r with ended := true }) })

/-- Issue one instruction (R24, R34, R391, R405). With no wave to issue it, the machine stops (a fault of the model's). -/
def issue (i : Instr) (body : Ctx → State → Iss) (s : State) : Host.Outcome State Fault Refusal :=
  match s.issuer with
  | none => .fault .noIssuer
  | some (v, run) =>
    if i.v1 && run.issued != 0 then .next (s.endRun s.turn)
    else
      let c := mkCtx s.turn v run i
      let stat := (checkRaw c.raw).map (fun f => f.toTrap (maskOf c.lanes))
      match pickTrap (stat ++ shapeTraps c i.v1 i.sBit ++ outsideTraps c (usesOf c.raw)) with
      | some t => .next (s.issueTrap s.turn v run t c.site)
      | none =>
        match body c s with
        | .trap ts st => .next ((st.getD s).issueTrap s.turn v run ((pickTrap ts).getD { cause := 0, sub := 0 }) c.site)
        | .stall s' => .next s'
        | .ok e =>
          match pickTrap (poisonTraps c (usesOf c.raw)) with
          | some t => .next (s.issueTrap s.turn v run t c.site)
          | none => .next (retire c i.v1 i.sBit e)

end Sys2Proof.Machine
end

