-- ==== Sys2Proof/Machine/LaneInt.lean ====
section
/-!
DEFINITION. Sys2Proof/Machine/LaneInt.lean: the integer, logic, bit, compare, predicate, select and move instructions of the lane
set (spec/05_lane_instructions.md R97-R105).
-/

namespace Sys2Proof.Machine

/-- The effect of a lane instruction that only writes its destination group of n registers. -/
def laneOut (c : Ctx) (f : LR) (n : Nat) (g : Nat → Nat) (s : State) : Iss :=
  .ok { s := s, writes := c.act.flatMap (fun l => laneWrites c f.v1 l f.d.toNat n (g l)) }

/-- A two-source 32-bit operation (R97). -/
def lane32 (i : Instr) (f : LR) (op : W32 → W32 → W32) (s : State) : Host.Outcome State Fault Refusal :=
  issue i (fun c st => laneOut c f 1 (fun l =>
    (op (readLane c f.ow l f.a.toNat) (readLane c f.ow l f.b.toNat)).toNat) st) s

/-- A one-source 32-bit operation (R98). -/
def lane32u (i : Instr) (f : LR) (op : W32 → W32) (s : State) : Host.Outcome State Fault Refusal :=
  issue i (fun c st => laneOut c f 1 (fun l => (op (readLane c f.ow l f.a.toNat)).toNat) st) s

/-- A three-source 32-bit operation; the third operand comes from X-OP4 (R98). -/
def lane32t (i : Instr) (f : LR) (op : W32 → W32 → W32 → W32) (s : State) : Host.Outcome State Fault Refusal :=
  issue i (fun c st => laneOut c f 1 (fun l =>
    (op (readLane c f.ow l f.a.toNat) (readLane c f.ow l f.b.toNat) (readLane c f.ow l (f.x.toNat % 64))).toNat) st) s

/-- A 64-bit pair operation (R99). -/
def lane64 (i : Instr) (f : LR) (op : W64 → W64 → W64) (s : State) : Host.Outcome State Fault Refusal :=
  issue i (fun c st => laneOut c f 2 (fun l =>
    (op (readPair c f.ow l f.a.toNat) (readPair c f.ow l f.b.toNat)).toNat) st) s

/-- A widening product (R99). -/
def laneWide (i : Instr) (f : LR) (op : W32 → W32 → W64) (s : State) : Host.Outcome State Fault Refusal :=
  issue i (fun c st => laneOut c f 2 (fun l =>
    (op (readLane c f.ow l f.a.toNat) (readLane c f.ow l f.b.toNat)).toNat) st) s

/-- Bits [63:32] of the signed product (R97). -/
def mulHiS (a b : W32) : W32 := BitVec.ofInt 32 (a.toInt * b.toInt / (2 ^ 32 : Nat))
/-- Bits [63:32] of the unsigned product (R97). -/
def mulHiU (a b : W32) : W32 := BitVec.ofNat 32 (a.toNat * b.toNat / 2 ^ 32)
def minS (a b : W32) : W32 := if a.toInt ≤ b.toInt then a else b
def maxS (a b : W32) : W32 := if a.toInt ≤ b.toInt then b else a
def minU (a b : W32) : W32 := if a.toNat ≤ b.toNat then a else b
def maxU (a b : W32) : W32 := if a.toNat ≤ b.toNat then b else a
/-- Wrapping absolute value: the most negative value stays (R98). -/
def absW (a : W32) : W32 := if a.toInt < 0 then -a else a
/-- Left shift; a count of 32 or more gives zero (R97). -/
def shlW (a b : W32) : W32 := if b.toNat < 32 then a <<< b.toNat else 0
def shrW (a b : W32) : W32 := if b.toNat < 32 then a >>> b.toNat else 0
/-- Right shift with sign fill; a count of 32 or more gives copies of the sign (R97). -/
def sraW (a b : W32) : W32 := if b.toNat < 32 then a.sshiftRight b.toNat else (if a.getLsbD 31 then BitVec.allOnes 32 else 0)
def rotW (a b : W32) : W32 := a.rotateLeft (b.toNat % 32)

/-- Position and length of a bit-field operand (R98): none when the field is empty. -/
def fieldOf (b : W32) : Option (Nat × Nat) :=
  let pos := bits b.toNat 7 0
  let len := bits b.toNat 15 8
  if pos ≥ 32 ∨ len = 0 then none else some (pos, if len ≤ 32 - pos then len else 32 - pos)

def bfeW (a b : W32) : W32 :=
  match fieldOf b with
  | none => 0
  | some (pos, n) => BitVec.ofNat 32 (a.toNat / 2 ^ pos % 2 ^ n)

def bfiW (a b c : W32) : W32 :=
  match fieldOf b with
  | none => c
  | some (pos, n) => BitVec.ofNat 32 (mergeBits c.toNat (a.toNat * 2 ^ pos) ((2 ^ n - 1) * 2 ^ pos))

def popcW (a : W32) : W32 := BitVec.ofNat 32 ((List.range 32).filter (fun i => a.getLsbD i)).length
def clzW (a : W32) : W32 := BitVec.ofNat 32 (if a = 0 then 32 else 31 - Nat.log2 a.toNat)
def brevW (a : W32) : W32 := BitVec.ofNat 32 ((List.range 32).foldl (fun n i => n + b2n (a.getLsbD (31 - i)) * 2 ^ i) 0)

/-- Division (R100). -/
def divS (a b : W32) : W32 :=
  if b = 0 then BitVec.allOnes 32
  else if a = 0x80000000#32 ∧ b = 0xFFFFFFFF#32 then 0x80000000#32
  else BitVec.ofInt 32 (a.toInt.tdiv b.toInt)
def divU (a b : W32) : W32 := if b = 0 then BitVec.allOnes 32 else BitVec.ofNat 32 (a.toNat / b.toNat)
/-- Remainder, with the sign of the dividend (R100). -/
def remS (a b : W32) : W32 :=
  if b = 0 then a
  else if a = 0x80000000#32 ∧ b = 0xFFFFFFFF#32 then 0
  else BitVec.ofInt 32 (a.toInt.tmod b.toInt)
def remU (a b : W32) : W32 := if b = 0 then a else BitVec.ofNat 32 (a.toNat % b.toNat)

/-- R97. -/
def execAdd (f : LR) (s : State) : Host.Outcome State Fault Refusal :=
  lane32 (.add f) f (· + ·) s
/-- R97. -/
def execSub (f : LR) (s : State) : Host.Outcome State Fault Refusal :=
  lane32 (.sub f) f (· - ·) s
/-- R97. -/
def execMulLo (f : LR) (s : State) : Host.Outcome State Fault Refusal :=
  lane32 (.mulLo f) f (· * ·) s
/-- R97. -/
def execMulHiI32 (f : LR) (s : State) : Host.Outcome State Fault Refusal :=
  lane32 (.mulHiI32 f) f mulHiS s
/-- R97. -/
def execMulHiN32 (f : LR) (s : State) : Host.Outcome State Fault Refusal :=
  lane32 (.mulHiN32 f) f mulHiU s
/-- R97. -/
def execMinI32 (f : LR) (s : State) : Host.Outcome State Fault Refusal :=
  lane32 (.minI32 f) f minS s
/-- R97. -/
def execMinN32 (f : LR) (s : State) : Host.Outcome State Fault Refusal :=
  lane32 (.minN32 f) f minU s
/-- R97. -/
def execMaxI32 (f : LR) (s : State) : Host.Outcome State Fault Refusal :=
  lane32 (.maxI32 f) f maxS s
/-- R97. -/
def execMaxN32 (f : LR) (s : State) : Host.Outcome State Fault Refusal :=
  lane32 (.maxN32 f) f maxU s
/-- R97. -/
def execAnd (f : LR) (s : State) : Host.Outcome State Fault Refusal :=
  lane32 (.and f) f (· &&& ·) s
/-- R97. -/
def execOr (f : LR) (s : State) : Host.Outcome State Fault Refusal :=
  lane32 (.or f) f (· ||| ·) s
/-- R97. -/
def execXor (f : LR) (s : State) : Host.Outcome State Fault Refusal :=
  lane32 (.xor f) f (· ^^^ ·) s
/-- R97. -/
def execAndn (f : LR) (s : State) : Host.Outcome State Fault Refusal :=
  lane32 (.andn f) f (fun a b => a &&& ~~~b) s
/-- R97. -/
def execShl (f : LR) (s : State) : Host.Outcome State Fault Refusal :=
  lane32 (.shl f) f shlW s
/-- R97. -/
def execShr (f : LR) (s : State) : Host.Outcome State Fault Refusal :=
  lane32 (.shr f) f shrW s
/-- R97. -/
def execSra (f : LR) (s : State) : Host.Outcome State Fault Refusal :=
  lane32 (.sra f) f sraW s
/-- R97. -/
def execRot (f : LR) (s : State) : Host.Outcome State Fault Refusal :=
  lane32 (.rot f) f rotW s
/-- R98. -/
def execBfe (f : LR) (s : State) : Host.Outcome State Fault Refusal :=
  lane32 (.bfe f) f bfeW s
/-- R100. -/
def execDivI32 (f : LR) (s : State) : Host.Outcome State Fault Refusal :=
  lane32 (.divI32 f) f divS s
/-- R100. -/
def execDivN32 (f : LR) (s : State) : Host.Outcome State Fault Refusal :=
  lane32 (.divN32 f) f divU s
/-- R100. -/
def execRemI32 (f : LR) (s : State) : Host.Outcome State Fault Refusal :=
  lane32 (.remI32 f) f remS s
/-- R100. -/
def execRemN32 (f : LR) (s : State) : Host.Outcome State Fault Refusal :=
  lane32 (.remN32 f) f remU s
/-- R98. -/
def execAbs (f : LR) (s : State) : Host.Outcome State Fault Refusal :=
  lane32u (.abs f) f absW s
/-- R98. -/
def execPopc (f : LR) (s : State) : Host.Outcome State Fault Refusal :=
  lane32u (.popc f) f popcW s
/-- R98. -/
def execClz (f : LR) (s : State) : Host.Outcome State Fault Refusal :=
  lane32u (.clz f) f clzW s
/-- R98. -/
def execBrev (f : LR) (s : State) : Host.Outcome State Fault Refusal :=
  lane32u (.brev f) f brevW s
/-- R105. -/
def execMov (f : LR) (s : State) : Host.Outcome State Fault Refusal :=
  lane32u (.mov f) f id s
/-- R98. -/
def execMadLo (f : LR) (s : State) : Host.Outcome State Fault Refusal :=
  lane32t (.madLo f) f (fun a b c => a * b + c) s
/-- R98. -/
def execBfi (f : LR) (s : State) : Host.Outcome State Fault Refusal :=
  lane32t (.bfi f) f bfiW s
/-- R99. -/
def execAddI64 (f : LR) (s : State) : Host.Outcome State Fault Refusal :=
  lane64 (.addI64 f) f (· + ·) s
/-- R99. -/
def execSubI64 (f : LR) (s : State) : Host.Outcome State Fault Refusal :=
  lane64 (.subI64 f) f (· - ·) s
/-- R99. -/
def execMulWideI32 (f : LR) (s : State) : Host.Outcome State Fault Refusal :=
  laneWide (.mulWideI32 f) f (fun a b => BitVec.ofInt 64 (a.toInt * b.toInt)) s
/-- R99. -/
def execMulWideN32 (f : LR) (s : State) : Host.Outcome State Fault Refusal :=
  laneWide (.mulWideN32 f) f (fun a b => BitVec.ofNat 64 (a.toNat * b.toNat)) s

/-! ## Compare, predicates, select (R102-R104) -/

/-- A condition of R51 on the order of two operands that both compare. -/
def condOrd (cond : Nat) (o : Ordering) : Bool :=
  match cond with
  | 0 => o == .eq
  | 1 => o != .eq
  | 2 => o == .lt
  | 3 => o != .gt
  | 4 => o == .gt
  | 5 => o != .lt
  | 6 => true
  | _ => false

/-- A condition on two floating values (R102): NaN makes every comparison false but ne and unordered. -/
def condF (cond : Nat) (a b : FVal) : Bool :=
  if a.isNan || b.isNan then cond == 1 || cond == 7 else condOrd cond (a.cmp b)

/-- Write the predicate D[2:0] of each active fibre (R51, R102). -/
def predOut (c : Ctx) (p : Nat) (g : Nat → Bool) (s : State) : Iss :=
  .ok { s := s, writes := c.act.map (fun l => { loc := .p l p, val := if g l then 1 else 0 }) }

def cmpD (f : LR) : Nat := f.d.toNat % 8
def cmpC (f : LR) : Nat := f.d.toNat / 8

/-- R102. -/
def execCmpI32 (f : LR) (s : State) : Host.Outcome State Fault Refusal :=
  issue (.cmpI32 f) (fun c st => predOut c (cmpD f) (fun l =>
    condOrd (cmpC f) (compare (readLane c f.ow l f.a.toNat).toInt (readLane c f.ow l f.b.toNat).toInt)) st) s
/-- R102. -/
def execCmpN32 (f : LR) (s : State) : Host.Outcome State Fault Refusal :=
  issue (.cmpN32 f) (fun c st => predOut c (cmpD f) (fun l =>
    condOrd (cmpC f) (compare (readLane c f.ow l f.a.toNat).toNat (readLane c f.ow l f.b.toNat).toNat)) st) s
/-- R102. -/
def execCmpF32 (f : LR) (s : State) : Host.Outcome State Fault Refusal :=
  issue (.cmpF32 f) (fun c st => predOut c (cmpD f) (fun l =>
    condF (cmpC f) (Fmt.f32.decode (readLane c f.ow l f.a.toNat).toNat) (Fmt.f32.decode (readLane c f.ow l f.b.toNat).toNat)) st) s
/-- R102. -/
def execCmpF64 (f : LR) (s : State) : Host.Outcome State Fault Refusal :=
  issue (.cmpF64 f) (fun c st => predOut c (cmpD f) (fun l =>
    condF (cmpC f) (Fmt.f64.decode (readF64 c f.ow l f.a.toNat).toNat) (Fmt.f64.decode (readF64 c f.ow l f.b.toNat).toNat)) st) s

/-- The predicate functions of R51. -/
def prFn (fn : Nat) (a b : Bool) : Bool :=
  match fn with
  | 0 => a && b
  | 1 => a || b
  | 2 => a != b
  | 3 => a && !b
  | 4 => a || !b
  | 5 => !a
  | _ => a

/-- R103. -/
def execPr (f : LR) (s : State) : Host.Outcome State Fault Refusal :=
  issue (.pr f) (fun c st => predOut c (cmpD f) (fun l =>
    prFn (cmpC f) (c.v.pred l (f.a.toNat % 8)) (c.v.pred l (f.b.toNat % 8))) st) s
/-- R104. -/
def execSel (f : LR) (s : State) : Host.Outcome State Fault Refusal :=
  issue (.sel f) (fun c st => laneOut c f 1 (fun l =>
    (if c.v.pred l (f.x.toNat % 8) then readLane c f.ow l f.a.toNat else readLane c f.ow l f.b.toNat).toNat) st) s

end Sys2Proof.Machine
end

