-- ==== Sys2Proof/Machine/Sfu.lean ====
section
/-!
DEFINITION. Sys2Proof/Machine/Sfu.lean: the special functions, correctly rounded (spec/05_lane_instructions.md R113).
Reciprocal and square roots are exact quotients and roots with a sticky bit. The transcendental ones are enclosed
between two fixed-point bounds; the result is given where both bounds round alike, and a free value
otherwise (log 15).
-/

namespace Sys2Proof.Machine

/-- Fraction bits of the fixed-point numbers below. -/
def fxBits : Nat := 400

/-- pi in fixed point (fxBits fraction bits), rounded down. -/
def fxPi : Nat := 0x3243f6a8885a308d313198a2e03707344a4093822299f31d0082efa98ec4e6c89452821e638d01377be5466cf34e90c6cc0ac29b7c / 2 ^ 20
/-- ln 2 in fixed point, rounded down. -/
def fxLn2 : Nat := 0xb17217f7d1cf79abc9e3b39803f2f6af40f343267298b62d8a0d175b8baafa2be7b876206debac98559552fb4afa1b10ed2eae35c / 2 ^ 20
/-- 1 / ln 2 in fixed point, rounded down. -/
def fxInvLn2 : Nat := 0x171547652b82fe1777d0ffda0d23a7d11d6aef551bad2b4b1164a2cd9a342648fbc3887eeaa2ed9ac49b25eeb82d7c167d52173cc1 / 2 ^ 20

/-- Error bound of every fixed-point result below, in units of the last place. -/
def fxErr : Nat := 2 ^ 24

def fxOne : Nat := 2 ^ fxBits
def fxMul (a b : Nat) : Nat := a * b / fxOne

/-- Integer square root, rounded down, by one trial bit per step. -/
def isqrtAux (n : Nat) : Nat → Nat → Nat
  | 0, r => r
  | k + 1, r => let t := r + 2 ^ k; isqrtAux n k (if t * t ≤ n then t else r)

def isqrt (n : Nat) : Nat := isqrtAux n (n.log2 / 2 + 1) 0

/-- Sum of x^k / k! for k from `k`, given the k-th term (exponential series). -/
def expSeries (x : Nat) : Nat → Nat → Nat → Nat
  | 0, _, _ => 0
  | n + 1, k, term => term + expSeries x n (k + 1) (fxMul term x / (k + 1))

/-- exp of a fixed-point number in [0, 1). -/
def fxExp (x : Nat) : Nat := expSeries x 100 0 fxOne

/-- 2^f for a fixed-point f in [0, 1). -/
def fxExp2 (f : Nat) : Nat := fxExp (fxMul f fxLn2)

/-- Alternating odd series x - x^3/3! + ... : positive and negative parts. -/
def sinSeries (x2 : Nat) : Nat → Nat → Nat → Bool → Nat × Nat
  | 0, _, _, _ => (0, 0)
  | n + 1, k, term, pos =>
    let (p, q) := sinSeries x2 n (k + 2) (fxMul term x2 / ((k + 1) * (k + 2))) (!pos)
    if pos then (p + term, q) else (p, q + term)

/-- sin of a fixed-point number in [0, 2). -/
def fxSin (x : Nat) : Nat := let (p, q) := sinSeries (fxMul x x) 60 1 x true; p - q

/-- cos of a fixed-point number in [0, 2). -/
def fxCos (x : Nat) : Nat := let (p, q) := sinSeries (fxMul x x) 60 0 fxOne true; p - q

/-- Sum of z^(2k+1) / (2k+1). -/
def atanhSeries (z2 : Nat) : Nat → Nat → Nat → Nat
  | 0, _, _ => 0
  | n + 1, k, pw => pw / (2 * k + 1) + atanhSeries z2 n (k + 1) (fxMul pw z2)

/-- log2 of a fixed-point number in [1, 2). -/
def fxLog2 (x : Nat) : Nat :=
  let z := (x - fxOne) * fxOne / (x + fxOne)
  fxMul (2 * atanhSeries (fxMul z z) 140 0 z) fxInvLn2

/-- Round a value known to lie strictly between two positive fixed-point bounds (scaled by 2^sc). -/
def roundBetween (neg : Bool) (lo hi : Nat) (sc : Int) : Option (Nat × FFlags) :=
  let e : Int := sc - (fxBits : Int) - 1
  let a := Fmt.f32.round (.fin neg (2 * lo + 1) e) .rne false 0
  let b := Fmt.f32.round (.fin neg (2 * hi - 1) e) .rne false 0
  if a = b then some a else none

/-- A fixed-point estimate turned into its bounds. -/
def roundNear (neg : Bool) (v : Nat) (sc : Int) : Option (Nat × FFlags) :=
  roundBetween neg (v - fxErr) (v + fxErr) sc

def one32 : Nat := 0x3F800000

/-- rcp.f32 (R113). -/
def rcpOp (a : Nat) : Nat × FFlags :=
  match Fmt.f32.decode a with
  | .nan => (Fmt.f32.nanCode, .none)
  | .inf n => (Fmt.f32.signed n 0, .none)
  | .fin n m e =>
    if m = 0 then (Fmt.f32.signed n Fmt.f32.infCode, { dz := true })
    else
      let q := 2 ^ 100 / m
      let st := if 2 ^ 100 % m = 0 then 0 else 1
      Fmt.f32.round (.fin n (2 * q + st) (-e - 101)) .rne false 0

/-- The exact root of m * 2^e with a sticky bit, as (magnitude, exponent). -/
def rootOf (m : Nat) (e : Int) : Nat × Int :=
  let odd := e % 2 != 0
  let m' := (if odd then 2 * m else m) * 2 ^ 100
  let e' := (if odd then e - 1 else e) - 100
  let r := isqrt m'
  (2 * r + (if r * r = m' then 0 else 1), e' / 2 - 1)

/-- sqrt.f32 (R113). -/
def sqrtOp (a : Nat) : Nat × FFlags :=
  match Fmt.f32.decode a with
  | .nan => (Fmt.f32.nanCode, .none)
  | .inf n => if n then (Fmt.f32.nanCode, { nv := true }) else (Fmt.f32.infCode, .none)
  | .fin n m e =>
    if m = 0 then (a, .none)
    else if n then (Fmt.f32.nanCode, { nv := true })
    else (let (r, re) := rootOf m e; Fmt.f32.round (.fin false r re) .rne false 0)

/-- rsq.f32 (R113). -/
def rsqOp (a : Nat) : Nat × FFlags :=
  match Fmt.f32.decode a with
  | .nan => (Fmt.f32.nanCode, .none)
  | .inf n => if n then (Fmt.f32.nanCode, { nv := true }) else (0, .none)
  | .fin n m e =>
    if m = 0 then (Fmt.f32.signed n Fmt.f32.infCode, { dz := true })
    else if n then (Fmt.f32.nanCode, { nv := true })
    else
      let odd := e % 2 != 0
      let m' := if odd then 2 * m else m
      let e' := if odd then e - 1 else e
      -- 1 / sqrt(m' * 2^e') = sqrt(2^200 / m') * 2^(-100 - e'/2)
      let r := isqrt (2 ^ 200 / m')
      let st := if r * r * m' = 2 ^ 200 then 0 else 1
      Fmt.f32.round (.fin false (2 * r + st) (-101 - e' / 2)) .rne false 0

/-- Split a positive m * 2^e into integer part and fixed-point fraction. -/
def splitFx (m : Nat) (e : Int) : Nat × Nat :=
  let fx := if e + (fxBits : Int) ≥ 0 then m * 2 ^ (e + (fxBits : Int)).toNat else 0
  (fx / fxOne, fx % fxOne)

/-- ex2.f32 (R113). -/
def ex2Op (free : Nat × FFlags) (a : Nat) : Nat × FFlags :=
  match Fmt.f32.decode a with
  | .nan => (Fmt.f32.nanCode, .none)
  | .inf n => (if n then 0 else Fmt.f32.infCode, .none)
  | .fin n m e =>
    if m = 0 then (one32, .none)
    else
      let (ip, fr) := splitFx m e
      if ip ≥ 400 then
        (if n then Fmt.f32.round (.fin false 1 (-400)) .rne false 0
         else Fmt.f32.round (.fin false 1 400) .rne false 0)
      else if fr = 0 then Fmt.f32.round (.fin false 1 (if n then -(ip : Int) else (ip : Int))) .rne false 0
      else if n then (roundNear false (fxExp2 (fxOne - fr)) (-(ip : Int) - 1)).getD free
      else (roundNear false (fxExp2 fr) (ip : Int)).getD free

/-- lg2.f32 (R113). -/
def lg2Op (free : Nat × FFlags) (a : Nat) : Nat × FFlags :=
  match Fmt.f32.decode a with
  | .nan => (Fmt.f32.nanCode, .none)
  | .inf n => if n then (Fmt.f32.nanCode, { nv := true }) else (Fmt.f32.infCode, .none)
  | .fin n m e =>
    if m = 0 then (Fmt.f32.signed true Fmt.f32.infCode, { dz := true })
    else if n then (Fmt.f32.nanCode, { nv := true })
    else
      let l := log2N m
      let k : Int := (l : Int) + e
      if m = 2 ^ l then Fmt.f32.round (.fin (k < 0) k.natAbs 0) .rne false 0
      else
        let v : Int := k * (fxOne : Int) + (fxLog2 (m * fxOne / 2 ^ l) : Int)
        (roundNear (v < 0) v.natAbs 0).getD free

/-- sin(pi r / 2^fxBits) for a reduced fixed-point r in (0, 1/2), by its nearer reflection. -/
def fxSinPi (r : Nat) : Nat := if 4 * r ≤ fxOne then fxSin (fxMul r fxPi) else fxCos (fxMul (fxOne / 2 - r) fxPi)

/-- sin(pi x) for a fixed-point x in [0, 2): sign and reduced argument in [0, 1/2]. -/
def reduceHalf (x : Nat) : Bool × Nat :=
  let neg := decide (x ≥ fxOne)
  let y := x % fxOne
  (neg, if 2 * y ≤ fxOne then y else fxOne - y)

/-- sin.pi.f32 (R113). -/
def sinPiOp (free : Nat × FFlags) (a : Nat) : Nat × FFlags :=
  match Fmt.f32.decode a with
  | .nan => (Fmt.f32.nanCode, .none)
  | .inf _ => (Fmt.f32.nanCode, { nv := true })
  | .fin n m e =>
    if m = 0 then (a, .none)
    else
      let (ip, fr) := splitFx m e
      let (neg, r) := reduceHalf (ip % 2 * fxOne + fr)
      if r = 0 then (Fmt.f32.signed n 0, .none)
      else if 2 * r = fxOne then (Fmt.f32.signed (n != neg) one32, .none)
      else (roundNear (n != neg) (fxSinPi r) 0).getD free

/-- cos.pi.f32 (R113): cos(pi x) = sin(pi (x + 1/2)), and cos is even. -/
def cosPiOp (free : Nat × FFlags) (a : Nat) : Nat × FFlags :=
  match Fmt.f32.decode a with
  | .nan => (Fmt.f32.nanCode, .none)
  | .inf _ => (Fmt.f32.nanCode, { nv := true })
  | .fin _ m e =>
    let (ip, fr) := splitFx m e
    let (neg, r) := reduceHalf ((ip % 2 * fxOne + fr + fxOne / 2) % (2 * fxOne))
    if r = 0 then (0, .none)
    else if 2 * r = fxOne then (Fmt.f32.signed neg one32, .none)
    else (roundNear neg (fxSinPi r) 0).getD free

/-- tanh.f32 (R113). -/
def tanhOp (free : Nat × FFlags) (a : Nat) : Nat × FFlags :=
  match Fmt.f32.decode a with
  | .nan => (Fmt.f32.nanCode, .none)
  | .inf n => (Fmt.f32.signed n one32, .none)
  | .fin n m e =>
    if m = 0 then (a, .none)
    else
      let (ip, fr) := splitFx m e
      if ip ≥ 64 then (roundBetween n (fxOne - 2 ^ (fxBits - 100)) fxOne 0).getD free
      else
        -- t = exp(-2a) = 2^(-2a / ln 2); tanh a = (1 - t) / (1 + t)
        let y := fxMul (2 * (ip * fxOne + fr)) fxInvLn2
        let yi := y / fxOne
        let yf := y % fxOne
        let t := if yf = 0 then fxOne / 2 ^ yi else fxExp2 (fxOne - yf) / 2 ^ (yi + 1)
        (roundNear n ((fxOne - t) * fxOne / (fxOne + t)) 0).getD free

end Sys2Proof.Machine
end

