-- ==== Sys2Proof/Machine/LaneFp.lean ====
section
/-!
DEFINITION. Sys2Proof/Machine/LaneFp.lean: floating-point arithmetic, packed halves, conversions and special functions of the
lane set (spec/05_lane_instructions.md R106-R113, spec/04_number_formats.md).
-/

namespace Sys2Proof.Machine

/-- The FPFLAGS bits of a list of lane flags. -/
def flagBits (l : List FFlags) : BitVec 5 := BitVec.ofNat 5 (l.foldl FFlags.or .none).toNat

/-- The effect of a lane instruction that writes n registers and raises flags. -/
def laneOutF (c : Ctx) (f : LR) (n : Nat) (g : Nat → Nat × FFlags) (s : State) : Iss :=
  .ok { s := s
        writes := c.act.flatMap (fun l => laneWrites c f.v1 l f.d.toNat n (g l).1)
        flags := flagBits (c.act.map (fun l => (g l).2)) }

/-- A two-source FP32 operation (R106). -/
def fp32 (i : Instr) (f : LR) (op : Nat → Nat → Nat × FFlags) (s : State) : Host.Outcome State Fault Refusal :=
  issue i (fun c st => laneOutF c f 1 (fun l =>
    op (readLane c f.ow l f.a.toNat).toNat (readLane c f.ow l f.b.toNat).toNat) st) s

/-- A one-source FP32 operation (R106, R113). -/
def fp32u (i : Instr) (f : LR) (op : Nat → Nat × FFlags) (s : State) : Host.Outcome State Fault Refusal :=
  issue i (fun c st => laneOutF c f 1 (fun l => op (readLane c f.ow l f.a.toNat).toNat) st) s

/-- A two-source FP64 operation (R108). -/
def fp64 (i : Instr) (f : LR) (op : Nat → Nat → Nat × FFlags) (s : State) : Host.Outcome State Fault Refusal :=
  issue i (fun c st => laneOutF c f 2 (fun l =>
    op (readF64 c f.ow l f.a.toNat).toNat (readF64 c f.ow l f.b.toNat).toNat) st) s

/-- A packed operation: the two 16-bit halves separately, flags ORed (R109). -/
def halves (op : Nat → Nat → Nat × FFlags) (a b : Nat) : Nat × FFlags :=
  let lo := op (a % 2 ^ 16) (b % 2 ^ 16)
  let hi := op (a / 2 ^ 16) (b / 2 ^ 16)
  (lo.1 + hi.1 * 2 ^ 16, lo.2.or hi.2)

def halves3 (op : Nat → Nat → Nat → Nat × FFlags) (a b c : Nat) : Nat × FFlags :=
  let lo := op (a % 2 ^ 16) (b % 2 ^ 16) (c % 2 ^ 16)
  let hi := op (a / 2 ^ 16) (b / 2 ^ 16) (c / 2 ^ 16)
  (lo.1 + hi.1 * 2 ^ 16, lo.2.or hi.2)

/-- A three-source operation on 32-bit operands (R106, R109). -/
def fp32t (i : Instr) (f : LR) (op : Nat → Nat → Nat → Nat × FFlags) (s : State) : Host.Outcome State Fault Refusal :=
  issue i (fun c st => laneOutF c f 1 (fun l =>
    op (readLane c f.ow l f.a.toNat).toNat (readLane c f.ow l f.b.toNat).toNat
      (readLane c f.ow l (f.x.toNat % 64)).toNat) st) s

/-- A result that raises no flag. -/
def quiet (v : Nat) : Nat × FFlags := (v, .none)

/-- The free value of a special function whose bounds round differently (log 15). -/
def sfuFree (op a : Nat) : Nat × FFlags := (Config.freeSfu op a % 2 ^ 32, { nx := true })

/-- R106. -/
def execAddF32 (f : LR) (s : State) : Host.Outcome State Fault Refusal :=
  fp32 (.addF32 f) f Fmt.f32.addOp s
/-- R106. -/
def execSubF32 (f : LR) (s : State) : Host.Outcome State Fault Refusal :=
  fp32 (.subF32 f) f Fmt.f32.subOp s
/-- R106. -/
def execMulF32 (f : LR) (s : State) : Host.Outcome State Fault Refusal :=
  fp32 (.mulF32 f) f Fmt.f32.mulOp s
/-- R106. -/
def execFmaF32 (f : LR) (s : State) : Host.Outcome State Fault Refusal :=
  fp32t (.fmaF32 f) f Fmt.f32.fmaOp s
/-- R106. -/
def execAbsF32 (f : LR) (s : State) : Host.Outcome State Fault Refusal :=
  fp32u (.absF32 f) f (fun a => quiet (Fmt.f32.absOp a)) s
/-- R106. -/
def execNegF32 (f : LR) (s : State) : Host.Outcome State Fault Refusal :=
  fp32u (.negF32 f) f (fun a => quiet (Fmt.f32.negOp a)) s
/-- R107. -/
def execMinF32 (f : LR) (s : State) : Host.Outcome State Fault Refusal :=
  fp32 (.minF32 f) f (fun a b => quiet (Fmt.f32.minCode a b)) s
/-- R107. -/
def execMaxF32 (f : LR) (s : State) : Host.Outcome State Fault Refusal :=
  fp32 (.maxF32 f) f (fun a b => quiet (Fmt.f32.maxOf a b)) s
/-- R108. -/
def execAddF64 (f : LR) (s : State) : Host.Outcome State Fault Refusal :=
  fp64 (.addF64 f) f Fmt.f64.addOp s
/-- R108. -/
def execMulF64 (f : LR) (s : State) : Host.Outcome State Fault Refusal :=
  fp64 (.mulF64 f) f Fmt.f64.mulOp s
/-- R108. -/
def execMinF64 (f : LR) (s : State) : Host.Outcome State Fault Refusal :=
  fp64 (.minF64 f) f (fun a b => quiet (Fmt.f64.minCode a b)) s
/-- R108. -/
def execMaxF64 (f : LR) (s : State) : Host.Outcome State Fault Refusal :=
  fp64 (.maxF64 f) f (fun a b => quiet (Fmt.f64.maxOf a b)) s
/-- R108. -/
def execFmaF64 (f : LR) (s : State) : Host.Outcome State Fault Refusal :=
  issue (.fmaF64 f) (fun c st => laneOutF c f 2 (fun l =>
    Fmt.f64.fmaOp (readF64 c f.ow l f.a.toNat).toNat (readF64 c f.ow l f.b.toNat).toNat
      (readF64 c f.ow l (f.x.toNat % 64)).toNat) st) s
/-- R109. -/
def execAdd2Bf16 (f : LR) (s : State) : Host.Outcome State Fault Refusal :=
  fp32 (.add2Bf16 f) f (halves Fmt.bf16.addOp) s
/-- R109. -/
def execMul2Bf16 (f : LR) (s : State) : Host.Outcome State Fault Refusal :=
  fp32 (.mul2Bf16 f) f (halves Fmt.bf16.mulOp) s
/-- R109. -/
def execFma2Bf16 (f : LR) (s : State) : Host.Outcome State Fault Refusal :=
  fp32t (.fma2Bf16 f) f (halves3 Fmt.bf16.fmaOp) s
/-- R109. -/
def execAdd2F16 (f : LR) (s : State) : Host.Outcome State Fault Refusal :=
  fp32 (.add2F16 f) f (halves Fmt.f16.addOp) s
/-- R109. -/
def execMul2F16 (f : LR) (s : State) : Host.Outcome State Fault Refusal :=
  fp32 (.mul2F16 f) f (halves Fmt.f16.mulOp) s
/-- R109. -/
def execFma2F16 (f : LR) (s : State) : Host.Outcome State Fault Refusal :=
  fp32t (.fma2F16 f) f (halves3 Fmt.f16.fmaOp) s
/-- R113. -/
def execRcpF32 (f : LR) (s : State) : Host.Outcome State Fault Refusal :=
  fp32u (.rcpF32 f) f rcpOp s
/-- R113. -/
def execRsqF32 (f : LR) (s : State) : Host.Outcome State Fault Refusal :=
  fp32u (.rsqF32 f) f rsqOp s
/-- R113. -/
def execSqrtF32 (f : LR) (s : State) : Host.Outcome State Fault Refusal :=
  fp32u (.sqrtF32 f) f sqrtOp s
/-- R113. -/
def execEx2F32 (f : LR) (s : State) : Host.Outcome State Fault Refusal :=
  fp32u (.ex2F32 f) f (fun a => ex2Op (sfuFree 3 a) a) s
/-- R113. -/
def execLg2F32 (f : LR) (s : State) : Host.Outcome State Fault Refusal :=
  fp32u (.lg2F32 f) f (fun a => lg2Op (sfuFree 4 a) a) s
/-- R113. -/
def execSinPiF32 (f : LR) (s : State) : Host.Outcome State Fault Refusal :=
  fp32u (.sinPiF32 f) f (fun a => sinPiOp (sfuFree 5 a) a) s
/-- R113. -/
def execCosPiF32 (f : LR) (s : State) : Host.Outcome State Fault Refusal :=
  fp32u (.cosPiF32 f) f (fun a => cosPiOp (sfuFree 6 a) a) s
/-- R113. -/
def execTanhF32 (f : LR) (s : State) : Host.Outcome State Fault Refusal :=
  fp32u (.tanhF32 f) f (fun a => tanhOp (sfuFree 7 a) a) s

/-! ## Conversions (R110-R112) -/

/-- Draws of the lane generators (R87): `n` draws for each active lane, in ascending element order, when the rounding
mode is SR; the draws by lane and the wave with its generators moved on. -/
def drawN (g : W32) : Nat → List Nat × W32
  | 0 => ([], g)
  | n + 1 =>
    let (d, g1) := srDraw g
    let (ds, g2) := drawN g1 n
    (d :: ds, g2)

/-- The draws of one lane. -/
def laneDraws (c : Ctx) (sr : Bool) (n : Nat) (l : Nat) : List Nat :=
  if sr then (drawN (c.v.gen l) n).1 else List.replicate n 0

/-- The wave after the active lanes have drawn n times each. -/
def drewAll (c : Ctx) (sr : Bool) (n : Nat) (s : State) : State :=
  if sr then
    s.modWave c.w (fun v => { v with gens := c.act.foldl (fun t l => Tab.set t l (drawN (c.v.gen l) n).2) v.gens })
  else s

/-- The fields of an X-CVT word that the checks have accepted. -/
def cvtFmt (code : Nat) : Fmt := (Fmt.ofCode code).getD Fmt.f32
def cvtMode (x : W32) : RMode := (RMode.ofCode (xMode x)).getD .rne

/-- cvt of one lane (R110). -/
def cvtLane (c : Ctx) (f : LR) (l : Nat) : Nat × FFlags :=
  let src := cvtFmt (xSrc f.x)
  let dst := cvtFmt (xDst f.x)
  let a := if src.width = 64 then
      (if src == .f64 then (readF64 c f.ow l f.a.toNat).toNat else (readPair c f.ow l f.a.toNat).toNat)
    else (readLane c f.ow l f.a.toNat).toNat
  convert src dst (cvtMode f.x) (xSat f.x) ((laneDraws c (cvtMode f.x == .sr) 1 l).headD 0) a

/-- R110. -/
def execCvt (f : LR) (s : State) : Host.Outcome State Fault Refusal :=
  issue (.cvt f) (fun c st => laneOutF c f (fmtRegs (xDst f.x)) (cvtLane c f) (drewAll c (cvtMode f.x == .sr) 1 st)) s

/-- pack.p8 of one lane (R111): a then b, rounded and placed in D; the rest of D is unchanged. -/
def packLane (c : Ctx) (f : LR) (l : Nat) : Nat × FFlags :=
  let dst := cvtFmt (xDst f.x)
  let ds := laneDraws c (cvtMode f.x == .sr) 2 l
  let one := fun (code : Nat) (d : Nat) => dst.round (Fmt.f32.decode code) (cvtMode f.x) (xSat f.x) d
  let ra := one (readLane c f.ow l f.a.toNat).toNat (ds.getD 0 0)
  let rb := one (readLane c f.ow l f.b.toNat).toNat (ds.getD 1 0)
  let w := dst.width
  let pos := 2 * xPart f.x * w
  let new := (ra.1 + rb.1 * 2 ^ w) * 2 ^ pos
  (mergeBits (readLane c f.ow l f.d.toNat).toNat new ((2 ^ (2 * w) - 1) * 2 ^ pos), ra.2.or rb.2)

/-- R111. -/
def execPackP8 (f : LR) (s : State) : Host.Outcome State Fault Refusal :=
  issue (.packP8 f) (fun c st => laneOutF c f 1 (packLane c f) (drewAll c (cvtMode f.x == .sr) 2 st)) s

/-- unpack.p8 of one lane (R112). -/
def unpackLane (c : Ctx) (f : LR) (l : Nat) : Nat × FFlags :=
  let src := cvtFmt (xSrc f.x)
  let dst := cvtFmt (xDst f.x)
  let a := (readLane c f.ow l f.a.toNat).toNat
  let n := if dst == .f32 then 1 else 2
  let ds := laneDraws c (cvtMode f.x == .sr) n l
  let at' := fun (e : Nat) => a / 2 ^ (e * src.width) % 2 ^ src.width
  let one := fun (e d : Nat) => dst.round (src.decode (at' e)) (cvtMode f.x) (xSat f.x) d
  if n = 1 then one (xPart f.x) (ds.getD 0 0)
  else
    let lo := one (2 * xPart f.x) (ds.getD 0 0)
    let hi := one (2 * xPart f.x + 1) (ds.getD 1 0)
    (lo.1 + hi.1 * 2 ^ 16, lo.2.or hi.2)

/-- R112. -/
def execUnpackP8 (f : LR) (s : State) : Host.Outcome State Fault Refusal :=
  issue (.unpackP8 f) (fun c st => laneOutF c f 1 (unpackLane c f)
    (drewAll c (cvtMode f.x == .sr) (if xDst f.x == 9 then 1 else 2) st)) s

end Sys2Proof.Machine
end

