-- ==== Sys2Proof/Machine/LaneCtl.lean ====
section
/-!
DEFINITION. Sys2Proof/Machine/LaneCtl.lean: histograms, per-fibre branch, window moves, vget and vset
(spec/05_lane_instructions.md R120-R124, spec/21_fault_architecture.md R396).
-/

namespace Sys2Proof.Machine

/-- Sum of two bins by element type (R118, R120, R121): integers wrap, f32 rounds. -/
def addEty (ety : Nat) (a b : Nat) : Nat × FFlags :=
  if ety = 2 then Fmt.f32.addOp a b else ((a + b) % 2 ^ 32, .none)

/-- A result by element type: a NaN is the canonical one (R74). -/
def canonEty (ety n : Nat) : Nat := if ety = 2 && (Fmt.f32.decode n).isNan then Fmt.f32.nanCode else n

/-- Sum in order (R118, R121). It starts from the first term, so that a single term is its own sum, a NaN made canonical: the model's
reading (log 70). -/
def sumEty (ety : Nat) : List Nat → Nat × FFlags
  | [] => (0, .none)
  | a :: t => t.foldl (fun acc b => let r := addEty ety acc.1 b; (r.1, acc.2.or r.2)) (canonEty ety a, .none)

/-- R120. -/
def execHistAdd (f : LR) (s : State) : Host.Outcome State Fault Refusal :=
  issue (.histAdd f) (fun c st =>
    let n := xBins f.x
    let hits := c.act.filterMap (fun l =>
      let i := (readLane c f.ow l f.a.toNat).toNat
      if i < n then
        (let r := addEty (xEty f.x) (readLane c f.ow l (f.d.toNat + i)).toNat (readLane c f.ow l f.b.toNat).toNat
         some (laneWrites c f.v1 l (f.d.toNat + i) 1 r.1, r.2))
      else none)
    .ok { s := st, writes := hits.flatMap (·.1), flags := flagBits (hits.map (·.2)) }) s

/-- R121: bin j of every active fibre summed into lane j. The sum of a bin that is discarded raises its flags all the same: the model's
reading (log 71). -/
def execHistMerge (f : LR) (s : State) : Host.Outcome State Fault Refusal :=
  issue (.histMerge f) (fun c st =>
    let n := xBins f.x
    if n > c.v.width then .trap [{ cause := cOPERAND, sub := 6, tval := 4, lanes := maskOf c.lanes }]
    else
      let sums := (List.range n).map (fun j =>
        (j, sumEty (xEty f.x) (c.act.map (fun l => (readLane c f.ow l (f.a.toNat + j)).toNat))))
      .ok { s := st
            writes := sums.flatMap (fun p => if c.act.contains p.1 then laneWrites c f.v1 p.1 f.d.toNat 1 p.2.1 else [])
            flags := flagBits (sums.map (·.2.2)) }) s

/-- The target of a branch (R48). -/
def branchTarget (c : Ctx) (off : Nat) (width : Nat) : BitVec 48 := c.run.pc + BitVec.ofInt 48 (4 * sextN off width)

/-- R122: each fibre whose guard reads 1 goes to the target. -/
def execBrp (f : LB) (s : State) : Host.Outcome State Fault Refusal :=
  issue (.brp f) (fun c st =>
    .ok { s := st, lanePc := c.act.map (fun l => (l, branchTarget c f.off.toNat 18)) }) s

/-- A window base that R123 allows. -/
def winLegal (v : Wave) (b : Int) : Bool :=
  b % 8 == 0 && (if v.nvregs < 48 then b == 0 else 0 ≤ b && b ≤ (v.nvregs : Int) - 48)

/-- R123: the new base applies from the next run. -/
def execWinAdv (f : LR) (s : State) : Host.Outcome State Fault Refusal :=
  issue (.winAdv f) (fun c st =>
    let tgt := fun l => (c.v.winBase l : Int) + (readLane c f.ow l f.a.toNat).toInt
    match c.act.filter (fun l => !(winLegal c.v (tgt l)) || (readLane c f.ow l f.a.toNat).toInt % 8 != 0) with
    | [] => .ok { s := st, winNext := c.act.map (fun l => (l, (tgt l).toNat)) }
    | bad => .trap [{ cause := cOPERAND, sub := 7, tval := 5, lanes := maskOf bad }]) s

/-- The code a fibre's operand names (R124). -/
def codeOf (w : W32) : Nat := w.toNat % 64

/-- Checks of a code named by a value (R124, R412, R418): out of range, or a row outside the allocation. -/
def codeTraps (c : Ctx) (top : Nat) (code : Nat → Nat) : List Trap :=
  (match c.act.filter (fun l => code l > top) with
    | [] => []
    | ls => [{ cause := cOPERAND, sub := 7, tval := 5, lanes := maskOf ls }])
  ++ (match c.act.filter (fun l => code l < 0x30 && c.v.winBase l + code l ≥ c.v.nvregs) with
    | [] => []
    | ls => [{ cause := cOPERAND, sub := 3, tval := 5, lanes := maskOf ls }])

/-- A temporary in the frozen run, where the mode reaches it (R396). -/
def readCode (c : Ctx) (ow : W32) (l code : Nat) : W32 :=
  if 0x30 ≤ code ∧ code < 0x38 then
    match c.v.frozenTemps with
    | some r => Tab.getD r.temps (l * 8 + (code - 0x30)) 0
    | none => readLane c ow l code
  else readLane c ow l code

/-- R124. -/
def execVget (f : LR) (s : State) : Host.Outcome State Fault Refusal :=
  issue (.vget f) (fun c st =>
    let code := fun l => codeOf (readLane c f.ow l f.b.toNat)
    match codeTraps c 0x39 code with
    | [] =>
      (match c.act.filter (fun l => code l < 0x30 && c.v.vpoison.contains (l * 256 + c.v.winBase l + code l)) with
        | [] => laneOut c f 1 (fun l => (readCode c f.ow l (code l)).toNat) st
        | l :: ls => .trap [{ cause := cPOISON, sub := 1, tval := BitVec.ofNat 64 (code l + 192), lanes := maskOf (l :: ls) }])
    | ts => .trap ts) s

/-- R124; in trap and debug mode codes 0x30 to 0x37 reach the frozen run's temporaries (R396). -/
def execVset (f : LR) (s : State) : Host.Outcome State Fault Refusal :=
  issue (.vset f) (fun c st =>
    let code := fun l => codeOf (readLane c f.ow l f.b.toNat)
    let val := fun l => readLane c f.ow l f.a.toNat
    match codeTraps c 0x38 code with
    | [] =>
      let out := fun l =>
        if 0x30 ≤ code l && code l < 0x38 && c.v.frozenTemps.isSome then
          [{ loc := .f l (code l - 0x30), val := BitVec.ofNat 64 (val l).toNat }]
        else laneWrites c f.v1 l (code l) 1 (val l).toNat
      .ok { s := st, writes := c.act.flatMap out }
    | ts => .trap ts) s

end Sys2Proof.Machine
end

