-- ==== Sys2Proof/Machine/LaneCross.lean ====
section
/-!
DEFINITION. Sys2Proof/Machine/LaneCross.lean: cross-lane instructions: forming, joining and completing instances
(spec/05_lane_instructions.md R114-R119).
-/

namespace Sys2Proof.Machine

/-- What one member contributes and receives in a completed instance (R115-R119): the value written, none where it receives
nothing. `m` is the member set, `arr` the arrivals. -/
def memberOf (m : W64) (w : Nat) (l : Int) : Option Nat :=
  if 0 ≤ l ∧ l < (w : Int) ∧ m.getLsbD l.toNat then some l.toNat else none

def arrivalOf (arr : List Arrival) (l : Nat) : Option Arrival := arr.find? (fun a => a.lane == l)

/-- The a value of a member; an exited member contributes 0 (R115). -/
def aOf (arr : List Arrival) (l : Nat) : W32 := ((arrivalOf arr l).map (·.a)).getD 0

/-- The source lane of a shuffle (R116). -/
def shflSrc (op : XOp) (l : Nat) (b : W32) : Int :=
  match op with
  | .shflIdx => b.toInt
  | .shflUp => (l : Int) - b.toInt
  | .shflDown => (l : Int) + b.toInt
  | _ => if b.toInt < 0 then -1 else ((l ^^^ b.toNat : Nat) : Int)

/-- Reduction of the contributions in ascending lane order (R118). -/
def reduceEty (op : XOp) (ety : Nat) (l : List Nat) : Nat × FFlags :=
  match op with
  | .redAdd => sumEty ety l
  | _ =>
    match l with
    | [] => (0, .none)
    | a :: t =>
      let pick := fun (x y : Nat) =>
        match op, ety with
        | .redMin, 0 => (minS (BitVec.ofNat 32 x) (BitVec.ofNat 32 y)).toNat
        | .redMin, 1 => if x ≤ y then x else y
        | .redMin, _ => Fmt.f32.minCode x y
        | _, 0 => (maxS (BitVec.ofNat 32 x) (BitVec.ofNat 32 y)).toNat
        | _, 1 => if x ≤ y then y else x
        | _, _ => Fmt.f32.maxOf x y
      (canonEty ety (t.foldl pick a), .none)

/-- What the members of an instance contribute to a reduction, in ascending lane order: a member whose guard reads 1 its value, one
whose lane holds no fibre 0, one whose guard reads 0 nothing (R115, R118). -/
def contributions (m : W64) (w : Nat) (arr : List Arrival) : List Nat :=
  (lanesOf m w).filterMap (fun l => match arrivalOf arr l with
    | some a => if a.active then some a.a.toNat else none
    | none => some 0)

/-- Members that contribute: guard 1, in ascending lane order. -/
def contributors (arr : List Arrival) (w : Nat) : List Arrival :=
  (List.range w).filterMap (fun l => (arrivalOf arr l).bind (fun a => if a.active then some a else none))

/-- The value each contributing member receives, and the flags of the instance (R116-R119). -/
def instanceResult (op : XOp) (ety : Nat) (m : W64) (w : Nat) (arr : List Arrival) : (Arrival → W64) × FFlags :=
  let con := contributors arr w
  match op with
  | .voteAny => ((fun _ => if con.any (·.truth) then 1 else 0), .none)
  | .voteAll =>
    ((fun _ => if (lanesOf m w).all (fun l => con.any (fun a => a.lane == l && a.truth)) then 1 else 0), .none)
  | .ballot => ((fun _ => maskOf ((con.filter (·.truth)).map (·.lane))), .none)
  | .matchV => ((fun a => maskOf ((con.filter (fun b => b.a == a.a)).map (·.lane))), .none)
  | .redAdd =>
    let r := reduceEty .redAdd ety (contributions m w arr)
    ((fun _ => BitVec.ofNat 64 r.1), r.2)
  | .redMin => let r := reduceEty .redMin ety (contributions m w arr); ((fun _ => BitVec.ofNat 64 r.1), r.2)
  | .redMax => let r := reduceEty .redMax ety (contributions m w arr); ((fun _ => BitVec.ofNat 64 r.1), r.2)
  | _ =>
    ((fun a => BitVec.ofNat 64 (match memberOf m w (shflSrc op a.lane a.b) with
      | some j => aOf arr j
      | none => a.a).toNat), .none)

/-- The writes of one receiving member: a predicate for votes, a pair for ballot and match, else one register. -/
def memberWrites (op : XOp) (a : Arrival) (x : W64) : List Write :=
  match op with
  | .voteAny => [{ loc := .p a.lane (a.d % 8), val := x }]
  | .voteAll => [{ loc := .p a.lane (a.d % 8), val := x }]
  | _ =>
    let n := if op == .ballot || op == .matchV then 2 else 1
    if a.d < 0x30 then
      (List.range n).map (fun i =>
        { loc := .v a.lane (a.winBase + a.d + i), val := BitVec.ofNat 64 (x.toNat / 2 ^ (32 * i) % 2 ^ 32) })
    else []

/-- All writes and flags of a completed group. -/
def groupWrites (op : XOp) (ety : Nat) (m : W64) (w : Nat) (arr : List Arrival) : List Write × FFlags :=
  let (g, fl) := instanceResult op ety m w arr
  ((contributors arr w).flatMap (fun a => memberWrites op a (g a)), fl)

/-- Whether every member has arrived or holds no fibre (R115). -/
def Instance.complete (i : Instance) (live : W64) : Bool :=
  (i.members &&& live &&& ~~~(maskOf (i.arrived.map (·.lane)))) == 0#64

/-- A lane's arrival (R115): sources are read whatever the guard. -/
def arrive (c : Ctx) (f : LR) (l : Nat) : Arrival :=
  { lane := l, active := c.act.contains l
    a := readLane c f.ow l f.a.toNat, b := readLane c f.ow l f.b.toNat
    truth := c.v.pred l (f.a.toNat % 8), d := f.d.toNat, winBase := c.v.winBase l }

/-- Add arrivals to the pending instance of a PC, or form one (R115). -/
def Wave.joinInstance (v : Wave) (pc : BitVec 48) (op : XOp) (ety : Nat) (m : W64) (arr : List Arrival) : Wave :=
  if v.instances.any (fun i => i.pc == pc) then
    { v with instances := v.instances.map (fun i => if i.pc == pc then { i with arrived := i.arrived ++ arr } else i) }
  else { v with instances := v.instances ++ [{ pc := pc, members := m, op := op, ety := ety, arrived := arr }] }

/-- Issue of a cross-lane instruction (R115): member lanes arrive at the instance of this PC, lanes outside it form
groups of one that complete at once. The batch's members are held. -/
def crossLane (i : Instr) (f : LR) (op : XOp) (s : State) : Host.Outcome State Fault Refusal :=
  issue i (fun c st =>
    let lends := (op == .shflIdx || op == .shflUp || op == .shflDown || op == .shflXor)
    let bad := if lends then c.lanes.filter (fun l =>
        f.a.toNat < 0x30 && c.v.vpoison.contains (l * 256 + c.v.winBase l + f.a.toNat)) else []
    match bad with
    | _ :: _ => .trap [{ cause := cPOISON, sub := 1, tval := BitVec.ofNat 64 f.a.toNat, lanes := maskOf bad }]
    | [] =>
      let m := match c.v.instances.find? (fun i => i.pc == c.run.pc) with
        | some i => i.members
        | none => c.v.mask (xMask f.x) &&& laneMask c.v.width
      let (inM, out) := c.lanes.partition (fun l => m.getLsbD l)
      let single := out.map (fun l => groupWrites op (xEty f.x) (maskOf [l]) c.v.width [arrive c f l])
      let st1 := st.modWave c.w (fun v => v.joinInstance c.run.pc op (xEty f.x) m (inM.map (arrive c f)))
      .ok { s := st1, writes := single.flatMap (·.1), onEnd := if inM.isEmpty then .go else .crossLane }) s

/-- R116. -/
def execShflIdx (f : LR) (s : State) : Host.Outcome State Fault Refusal :=
  crossLane (.shflIdx f) f .shflIdx s
/-- R116. -/
def execShflUp (f : LR) (s : State) : Host.Outcome State Fault Refusal :=
  crossLane (.shflUp f) f .shflUp s
/-- R116. -/
def execShflDown (f : LR) (s : State) : Host.Outcome State Fault Refusal :=
  crossLane (.shflDown f) f .shflDown s
/-- R116. -/
def execShflXor (f : LR) (s : State) : Host.Outcome State Fault Refusal :=
  crossLane (.shflXor f) f .shflXor s
/-- R117. -/
def execVoteAny (f : LR) (s : State) : Host.Outcome State Fault Refusal :=
  crossLane (.voteAny f) f .voteAny s
/-- R117. -/
def execVoteAll (f : LR) (s : State) : Host.Outcome State Fault Refusal :=
  crossLane (.voteAll f) f .voteAll s
/-- R117. -/
def execVoteBallot (f : LR) (s : State) : Host.Outcome State Fault Refusal :=
  crossLane (.voteBallot f) f .ballot s
/-- R118. -/
def execReduxAdd (f : LR) (s : State) : Host.Outcome State Fault Refusal :=
  crossLane (.reduxAdd f) f .redAdd s
/-- R118. -/
def execReduxMin (f : LR) (s : State) : Host.Outcome State Fault Refusal :=
  crossLane (.reduxMin f) f .redMin s
/-- R118. -/
def execReduxMax (f : LR) (s : State) : Host.Outcome State Fault Refusal :=
  crossLane (.reduxMax f) f .redMax s
/-- R119. -/
def execMatchB32 (f : LR) (s : State) : Host.Outcome State Fault Refusal :=
  crossLane (.matchB32 f) f .matchV s

end Sys2Proof.Machine
end

