-- ==== Sys2Proof/Machine/Uniform.lean ====
section
/-!
DEFINITION. Sys2Proof/Machine/Uniform.lean: uniform arithmetic, branches, fibres, masks, special registers, traps, breakpoints and
return (spec/06_uniform_and_control_instructions.md R125-R149).
-/

namespace Sys2Proof.Machine

/-- The effect of writing one uniform register. -/
def uniOut (f : GR) (x : W64) (s : State) : Iss := .ok { s := s, writes := [{ loc := .s f.d.toNat, val := x }] }

/-- A two-source uniform operation (R127). -/
def uni (i : Instr) (f : GR) (op : W64 → W64 → W64) (s : State) : Host.Outcome State Fault Refusal :=
  issue i (fun c st => uniOut f (op (readA c f) (readB c f)) st) s

def shl64 (a b : W64) : W64 := if b.toNat < 64 then a <<< b.toNat else 0
def shr64 (a b : W64) : W64 := if b.toNat < 64 then a >>> b.toNat else 0
def sra64 (a b : W64) : W64 :=
  if b.toNat < 64 then a.sshiftRight b.toNat else (if a.getLsbD 63 then BitVec.allOnes 64 else 0)
def minI64 (a b : W64) : W64 := if a.toInt ≤ b.toInt then a else b
def maxI64 (a b : W64) : W64 := if a.toInt ≤ b.toInt then b else a
def minN64 (a b : W64) : W64 := if a.toNat ≤ b.toNat then a else b
def maxN64 (a b : W64) : W64 := if a.toNat ≤ b.toNat then b else a

/-- R127. -/
def execSAdd (f : GR) (s : State) : Host.Outcome State Fault Refusal :=
  uni (.sAdd f) f (· + ·) s
/-- R127. -/
def execSSub (f : GR) (s : State) : Host.Outcome State Fault Refusal :=
  uni (.sSub f) f (· - ·) s
/-- R127. -/
def execSMul (f : GR) (s : State) : Host.Outcome State Fault Refusal :=
  uni (.sMul f) f (· * ·) s
/-- R127. -/
def execSAnd (f : GR) (s : State) : Host.Outcome State Fault Refusal :=
  uni (.sAnd f) f (· &&& ·) s
/-- R127. -/
def execSOr (f : GR) (s : State) : Host.Outcome State Fault Refusal :=
  uni (.sOr f) f (· ||| ·) s
/-- R127. -/
def execSXor (f : GR) (s : State) : Host.Outcome State Fault Refusal :=
  uni (.sXor f) f (· ^^^ ·) s
/-- R127. -/
def execSShl (f : GR) (s : State) : Host.Outcome State Fault Refusal :=
  uni (.sShl f) f shl64 s
/-- R127. -/
def execSShr (f : GR) (s : State) : Host.Outcome State Fault Refusal :=
  uni (.sShr f) f shr64 s
/-- R127. -/
def execSSra (f : GR) (s : State) : Host.Outcome State Fault Refusal :=
  uni (.sSra f) f sra64 s
/-- R127. -/
def execSMinI64 (f : GR) (s : State) : Host.Outcome State Fault Refusal :=
  uni (.sMinI64 f) f minI64 s
/-- R127. -/
def execSMinN64 (f : GR) (s : State) : Host.Outcome State Fault Refusal :=
  uni (.sMinN64 f) f minN64 s
/-- R127. -/
def execSMaxI64 (f : GR) (s : State) : Host.Outcome State Fault Refusal :=
  uni (.sMaxI64 f) f maxI64 s
/-- R127. -/
def execSMaxN64 (f : GR) (s : State) : Host.Outcome State Fault Refusal :=
  uni (.sMaxN64 f) f maxN64 s
/-- R128. -/
def execSMov (f : GR) (s : State) : Host.Outcome State Fault Refusal :=
  uni (.sMov f) f (fun _ b => b) s
/-- R129. -/
def execSCmpI64 (f : GR) (s : State) : Host.Outcome State Fault Refusal :=
  uni (.sCmpI64 f) f (fun a b => if condOrd (f.x.toNat % 8) (compare a.toInt b.toInt) then 1 else 0) s
/-- R129. -/
def execSCmpN64 (f : GR) (s : State) : Host.Outcome State Fault Refusal :=
  uni (.sCmpN64 f) f (fun a b => if condOrd (f.x.toNat % 8) (compare a.toNat b.toNat) then 1 else 0) s
/-- R130. -/
def execSSel (f : GR) (s : State) : Host.Outcome State Fault Refusal :=
  issue (.sSel f) (fun c st =>
    uniOut f (if c.v.sreg (f.x.toNat % 64) != 0 then readA c f else readB c f) st) s

/-! ## Branches, calls and jumps (R131-R133) -/

/-- R132. -/
def execBr (f : GJ) (s : State) : Host.Outcome State Fault Refusal :=
  issue (.br f) (fun c st => .ok { s := st, goto := some (branchTarget c f.off.toNat 21) }) s
/-- R132: s59 receives the address after the word; the write commits with the run's end. -/
def execCall (f : GJ) (s : State) : Host.Outcome State Fault Refusal :=
  issue (.call f) (fun c st =>
    .ok { s := st, writes := [{ loc := .s 59, val := BitVec.ofNat 64 (c.run.pc + 4#48).toNat }]
          goto := some (branchTarget c f.off.toNat 21) }) s
/-- R132: a[1:0] and a[63:48] must be zero. -/
def execJmp (f : GR) (s : State) : Host.Outcome State Fault Refusal :=
  issue (.jmp f) (fun c st =>
    let a := (readA c f).toNat
    if a % 4 != 0 || a ≥ 2 ^ 48 then .trap [{ cause := cOPERAND, sub := 7, tval := 5, lanes := maskOf c.lanes }]
    else .ok { s := st, goto := some (va a) }) s

/-- A conditional branch of the batch (R133). -/
def condBranch (i : Instr) (f : GC) (test : W64 → Bool) (s : State) : Host.Outcome State Fault Refusal :=
  issue i (fun c st =>
    .ok { s := st, goto := if test (c.v.sreg f.a.toNat) then some (branchTarget c f.off.toNat 15) else none }) s

/-- R133. -/
def execBz (f : GC) (s : State) : Host.Outcome State Fault Refusal :=
  condBranch (.bz f) f (fun a => a == 0) s
/-- R133. -/
def execBnz (f : GC) (s : State) : Host.Outcome State Fault Refusal :=
  condBranch (.bnz f) f (fun a => a != 0) s
/-- R133. -/
def execBneg (f : GC) (s : State) : Host.Outcome State Fault Refusal :=
  condBranch (.bneg f) f (fun a => a.getLsbD 63) s

/-! ## Fibres and masks (R134-R139) -/

/-- Take the crew's spawn counter (R40). -/
def State.takeThread (s : State) (cr : Nat) : BitVec 16 × State :=
  (((s.crew? cr).map (·.spawn)).getD 0, s.modCrew cr (fun c => { c with spawn := c.spawn + 1 }))

/-- A lane's bit becomes zero in every mask (R22, R23). -/
def Wave.clearMasks (v : Wave) (lane : Nat) : Wave := { v with masks := v.masks.map (fun e => (e.1, clearBit64 e.2 lane)) }

/-- Place a new fibre in a lane (R22): its registers read zero and its bit is zero in every mask. -/
def Wave.addFibre (v : Wave) (lane : Nat) (pc : BitVec 48) (thread : BitVec 16) : Wave :=
  { v.clearMasks lane with
    fibres := Tab.set v.fibres lane { pc := pc, thread := thread }
    vregs := Tab.del v.vregs lane
    vpoison := v.vpoison.filter (fun n => n / 256 != lane) }

/-- R134: the lowest free lane below W; status in sA. A whole-mask write of the run that commits later leaves the new lane's bit zero
too, since the masks are cleared again at the run's end (R22). -/
def execFibSpawn (f : GC) (s : State) : Host.Outcome State Fault Refusal :=
  issue (.fibSpawn f) (fun c st =>
    match lowest 0 (fun l => (c.v.fibre? l).isNone) c.v.width with
    | none => .ok { s := st, writes := [{ loc := .s f.a.toNat, val := BitVec.allOnes 64 }] }
    | some l =>
      let (th, st1) := st.takeThread c.v.crew
      .ok { s := st1.modWave c.w (fun v => v.addFibre l (branchTarget c f.off.toNat 15) th)
            writes := [{ loc := .s f.a.toNat, val := BitVec.ofNat 64 (l + th.toNat * 2 ^ 16) }], onEnd := .spawn l }) s

/-- R136. -/
def execMkJoin (f : GR) (s : State) : Host.Outcome State Fault Refusal :=
  issue (.mkJoin f) (fun c st =>
    .ok { s := st, writes := [{ loc := .k (f.d.toNat % 16), val := c.v.mask (f.d.toNat % 16) ||| maskOf c.lanes }] }) s
/-- R136. -/
def execMkLeave (f : GR) (s : State) : Host.Outcome State Fault Refusal :=
  issue (.mkLeave f) (fun c st =>
    .ok { s := st, writes := [{ loc := .k (f.d.toNat % 16), val := c.v.mask (f.d.toNat % 16) &&& ~~~(maskOf c.lanes) }] }) s
/-- R139: the batch is held when its run's results have committed. -/
def execMkWait (f : GR) (s : State) : Host.Outcome State Fault Refusal :=
  issue (.mkWait f) (fun _ st => .ok { s := st, onEnd := .maskWait (f.d.toNat % 16) }) s
/-- R137. -/
def execMkMovToMask (f : GR) (s : State) : Host.Outcome State Fault Refusal :=
  issue (.mkMovToMask f) (fun c st => .ok { s := st, writes := [{ loc := .k (f.d.toNat % 16), val := readA c f }] }) s
/-- R137. -/
def execMkMovFromMask (f : GR) (s : State) : Host.Outcome State Fault Refusal :=
  issue (.mkMovFromMask f) (fun c st => uniOut f (c.v.mask (f.a.toNat % 16)) st) s
/-- R138. -/
def execMkCur (f : GR) (s : State) : Host.Outcome State Fault Refusal :=
  issue (.mkCur f) (fun c st => uniOut f (maskOf c.lanes) st) s

/-! ## Special registers (R140-R145, R395) -/

/-- WAVEINFO (R142). -/
def waveInfo (s : State) (v : Wave) : W64 :=
  BitVec.ofNat 64 (packFields
    [(v.width, 0, 8), (v.nvregs, 8, 8), (v.member, 16, 5), (((s.crew? v.crew).map (·.slot)).getD 0, 24, 6),
     (s.coreOf v, 32, 11), (v.wslot, 48, 5)])

/-- A special register as it reads at issue (R141, R395). -/
def readSr (s : State) (v : Wave) (n : Nat) : W64 :=
  match n with
  | 0x00 => BitVec.ofNat 64 v.fpflags.toNat
  | 0x01 => BitVec.ofNat 64 v.srseed.toNat
  | 0x02 => BitVec.ofNat 64 v.pwinflags.toNat
  | 0x03 => waveInfo s v
  | 0x04 => BitVec.ofNat 64 (v.launch.toNat + v.block.toNat * 2 ^ 32)
  | 0x05 => BitVec.ofNat 64 (s.tickOf (s.dieOf v))
  | 0x06 => BitVec.ofNat 64 (s.cycleOf (s.coreOf v))
  | 0x07 => BitVec.ofNat 64 v.ackcnt
  | 0x08 => BitVec.ofNat 64 v.tbase.toNat
  | 0x10 => BitVec.ofNat 64 (packFields [(v.frame.cause.toNat, 0, 8), (v.frame.sub.toNat, 8, 8), (b2n v.inTrap, 16, 1)])
  | 0x11 => BitVec.ofNat 64 v.frame.tepc.toNat
  | 0x12 => BitVec.ofNat 64 v.frame.tfpc.toNat
  | 0x13 => v.frame.tval
  | 0x14 => v.frame.tword
  | 0x15 => v.frame.txword
  | 0x16 => v.frame.tmask
  | 0x17 => v.frame.tlanes
  | 0x18 => v.frame.tsave0
  | 0x19 => v.frame.tsave1
  | 0x1A => v.frame.tsave2
  | 0x1B => v.frame.tsave3
  | 0x1C => v.frame.trun
  | _ => 0

/-- Seed the lane generators (R88). -/
def Wave.seed (v : Wave) (x : W32) : Wave :=
  { v with srseed := x, gens := (List.range v.width).map (fun l => (l, srSeedLane x l)) }

/-- A write of a special register (R140, R395): RO registers and fields ignore it; the frame takes writes in trap mode
only. -/
def writeSr (v : Wave) (n : Nat) (x : W64) : Wave :=
  match n with
  | 0x00 => { v with fpflags := BitVec.ofNat 5 x.toNat }
  | 0x01 => v.seed (BitVec.ofNat 32 x.toNat)
  | 0x02 => { v with pwinflags := BitVec.ofNat 8 x.toNat }
  | 0x11 => if v.inTrap then { v with frame := { v.frame with tepc := va (x.toNat / 4 * 4) } } else v
  | 0x18 => if v.inTrap then { v with frame := { v.frame with tsave0 := x } } else v
  | 0x19 => if v.inTrap then { v with frame := { v.frame with tsave1 := x } } else v
  | 0x1A => if v.inTrap then { v with frame := { v.frame with tsave2 := x } } else v
  | 0x1B => if v.inTrap then { v with frame := { v.frame with tsave3 := x } } else v
  | _ => v

def srNum (f : GR) : Nat := f.b.toNat % 128

/-- R140. -/
def execSrRd (f : GR) (s : State) : Host.Outcome State Fault Refusal :=
  issue (.srRd f) (fun c st => uniOut f (readSr st c.v (srNum f)) st) s
/-- R140: acts at issue. -/
def execSrWr (f : GR) (s : State) : Host.Outcome State Fault Refusal :=
  issue (.srWr f) (fun c st => .ok { s := st.modWave c.w (fun v => writeSr v (srNum f) (readA c f)) }) s

/-! ## No operation, traps, breakpoints, return (R146-R149) -/

/-- R146. -/
def execNop (f : GR) (s : State) : Host.Outcome State Fault Refusal := issue (.nop f) (fun _ st => .ok { s := st }) s
/-- R147: entry when the run's results have committed. -/
def execTrap (f : GR) (s : State) : Host.Outcome State Fault Refusal :=
  issue (.trap f) (fun _ st => .ok { s := st, onEnd := .swTrap (srNum f) }) s

/-- Whether another wave of the core is in debug mode (R365). -/
def otherInDebug (s : State) (w core : Nat) : Bool :=
  s.waves.any (fun e => e.1 != w && e.2.dbg.isSome && s.coreOf e.2 == core)

/-- R148, R365, R417. -/
def execBrk (f : GR) (s : State) : Host.Outcome State Fault Refusal :=
  issue (.brk f) (fun c st =>
    let core := st.coreOf c.v
    if c.v.dbg.isSome then .trap [{ cause := cMODE, sub := 3, lanes := maskOf c.lanes }]
    else if !(Tab.getD (st.core core).dreg 1 0).getLsbD 0 then
      .trap [{ cause := cMODE, sub := 4, tval := BitVec.ofNat 64 (srNum f), lanes := maskOf c.lanes }]
    else if otherInDebug st c.w core then .stall st
    else .ok { s := st, onEnd := .brk (srNum f) }) s

/-- R149, R397, R417. -/
def execRfe (f : GR) (s : State) : Host.Outcome State Fault Refusal :=
  issue (.rfe f) (fun c st =>
    if c.v.inTrap || c.v.dbg.isSome then .ok { s := st, onEnd := .rfe }
    else .trap [{ cause := cMODE, sub := 2, lanes := maskOf c.lanes }]) s

/-- R407: a word with V of 2 or 3, or an unassigned opcode. Nothing else of it is decoded. -/
def execUnassignedOpcode (w0 w1 w2 : W32) (s : State) : Host.Outcome State Fault Refusal :=
  match s.issuer with
  | none => .fault .noIssuer
  | some (v, run) =>
    let vf := wordV w0
    let site : Site := { pc := run.pc, word := w0, x1 := w1, x2 := w2 }
    let t : Trap := if vf ≥ 2 then { cause := cILLEGAL, sub := 1, tval := BitVec.ofNat 64 vf } else { cause := cILLEGAL, sub := 0 }
    .next (s.issueTrap s.turn v run t site)

end Sys2Proof.Machine
end

