-- ==== Sys2Proof/Machine/Memory.lean ====
section
/-!
DEFINITION. Sys2Proof/Machine/Memory.lean: the memory list, page tables and TLBs, format windows, the directory and the RDC, the L1
(spec/08_memory_spaces_and_translation.md R184-R198, spec/10_coherence_across_dies_and_devices.md R218-R223).
-/

namespace Sys2Proof.Machine

/-! ## The memory list -/

/-- What a byte that nothing has written reads as (log 1). -/
def memDefault : Byte := 0#8

/-- Read one byte. -/
def memRead : List Host.Cell → Nat → Byte
  | [], _ => memDefault
  | (k, b) :: t, n => if k = n then b else memRead t n

/-- Write one byte, keeping the canonical form: keys rising, no entry that equals the default. -/
def memWrite : List Host.Cell → Nat → Byte → List Host.Cell
  | [], n, b => if b = memDefault then [] else [(n, b)]
  | (k, c) :: t, n, b =>
    if n < k then (if b = memDefault then (k, c) :: t else (n, b) :: (k, c) :: t)
    else if n = k then (if b = memDefault then t else (n, b) :: t)
    else (k, c) :: memWrite t n b

/-- Canonical form above a lower bound: keys rising, no default entry. -/
def memWfFrom : Option Nat → List Host.Cell → Bool
  | _, [] => true
  | lo, (k, b) :: t =>
    (match lo with
      | none => true
      | some n => decide (n < k)) && b != memDefault && memWfFrom (some k) t

/-- The canonical form of the memory list. -/
def Memory.wf (m : List Host.Cell) : Bool := memWfFrom none m

def memWriteBytes (m : List Host.Cell) (k : Nat) : List Byte → List Host.Cell
  | [] => m
  | b :: t => memWriteBytes (memWrite m k b) (k + 1) t

def State.rd8 (s : State) (k : Nat) : Byte := memRead s.mem k
def State.wr8 (s : State) (k : Nat) (b : Byte) : State := { s with mem := memWrite s.mem k b }
/-- Little-endian number of n bytes (R45). -/
def State.rdN (s : State) (k n : Nat) : Nat := ofBytes ((List.range n).map (fun i => s.rd8 (k + i)))
def State.wrN (s : State) (k n v : Nat) : State := { s with mem := memWriteBytes s.mem k (bytesOf v n) }

/-! ## Physical addresses -/

/-- Keys: 0 in [.. : 52] is this package, n + 1 the package of node n (R186). -/
def keyOf (node : Option Nat) (pa : Nat) : Nat := (match node with | none => 0 | some n => n + 1) * 2 ^ 52 + pa % 2 ^ 52
def keyKind (k : Nat) : Nat := k / 2 ^ 48 % 16
def keyRemote (k : Nat) : Bool := k ≥ 2 ^ 52
/-- Home die of a kind-0 address (R186). -/
def keyDie (k : Nat) : Nat := bits k 39 37
def lineOf (k : Nat) : Nat := k / 128

/-! ## Directory and RDC (R218-R220) -/

/-- The key of a line in a die's RDC. -/
def rdcKey (d line : Nat) : Nat := d * 2 ^ 64 + line
def State.dirOf (s : State) (line : Nat) : DirEntry := Tab.getD s.dir line {}
def State.setDir (s : State) (line : Nat) (e : DirEntry) : State := { s with dir := Tab.set s.dir line e }

/-- Whether a line is tracked by the directory: package HBM. -/
def tracked (k : Nat) : Bool := !keyRemote k && keyKind k == 0

/-- A dirty byte in a die's RDC, or in the write-back buffer that answers for it (R220). -/
def State.dieDirty (s : State) (d k : Nat) : Option Byte :=
  match Tab.get? s.rdc (rdcKey d (lineOf k)) with
  | some r => Tab.get? r.dirty k
  | none => (Tab.get? s.wbBuf (rdcKey d (lineOf k))).bind (fun r => Tab.get? r.dirty k)

/-- The newest byte at the points of coherence of the package: the owner's dirty byte, or the home's. -/
def State.cohByte (s : State) (k : Nat) : Byte :=
  let e := s.dirOf (lineOf k)
  let o := if tracked k then (if e.state = 2#2 then s.dieDirty e.owner.toNat k else none)
    else (List.range 8).findSome? (fun d => s.dieDirty d k)
  o.getD (s.rd8 k)

/-- Little-endian number of n bytes at the points of coherence. -/
def State.cohN (s : State) (k n : Nat) : Nat := ofBytes ((List.range n).map (fun i => s.cohByte (k + i)))

/-- Write bytes listed by key into memory. -/
def State.applyBytes (s : State) (l : Tab Byte) : State := l.foldl (fun s e => s.wr8 e.1 e.2) s

/-! ## Format windows (R188-R190) -/

structure FmtWin where
  en : Bool
  raww : Bool
  mx : Bool
  fmt : Nat
  base : Nat
  limit : Nat
  scale : Nat
  deriving DecidableEq, Repr

def FmtWin.of (r : BitVec 256) : FmtWin :=
  let n := r.toNat
  { en := bitOf n 0, raww := bitOf n 1, mx := bitOf n 2, fmt := bits n 8 3, base := bits n 115 76 * 2 ^ 12
    limit := bits n 179 140 * 2 ^ 12, scale := bits n 243 197 * 2 ^ 5 }

/-- Bytes of a block: 32 for binary8, 16 for binary4 (R189). -/
def FmtWin.blk (w : FmtWin) : Nat := if w.fmt < 0x20 then 16 else 32

/-- The enabled window that covers a kind-0 address of this package: the lowest-numbered one (R188). -/
def State.winAt (s : State) (k : Nat) : Option FmtWin :=
  if keyRemote k || keyKind k != 0 then none
  else (List.range 16).findSome? (fun i =>
    match Tab.get? (s.die (keyDie k)).fmtwin i with
    | none => none
    | some r => let w := FmtWin.of r; if w.en && w.base ≤ k && k < w.limit then some w else none)

/-- The shift count of the block of an element byte: none for the all-zero mark, and whether the block is NaN (R81, R82,
R189). -/
def State.blockScale (s : State) (w : FmtWin) (k : Nat) : Option Int × Bool :=
  let c := (s.cohByte (w.scale + (k - w.base) / w.blk)).toNat
  if w.mx then (if c = 0xFF then (some 0, true) else (some ((c : Int) - 127), false))
  else if c = 0x80 then (none, false) else (some (sextN c 8), false)

/-- A byte lies in a block whose shift count is -128 (R189). -/
def State.zeroBlk (s : State) (k : Nat) : Bool :=
  match s.winAt k with
  | none => false
  | some w => (s.blockScale w k).1.isNone

/-- A stored byte as every reader sees it, wherever it is held: zero in a block whose shift count is -128 (R189). -/
def State.seen (s : State) (k : Nat) (b : Byte) : Byte := if s.zeroBlk k then 0 else b

/-- A byte of the home's copy, as a reader sees it. -/
def State.homeByte (s : State) (k : Nat) : Byte := s.seen k (s.rd8 k)

/-- An element range that programs may not write raw (R437). -/
def State.rawRefused (s : State) (k : Nat) : Bool :=
  match s.winAt k with
  | none => false
  | some w => !w.raww

/-- Recall a line from the die that owns it: its dirty bytes reach the home; its copy goes (R219, R220). A write-back
buffer answers in its place. -/
def State.recallFrom (s : State) (d line : Nat) : State :=
  match Tab.get? s.rdc (rdcKey d line) with
  | some r => { (s.applyBytes r.dirty) with rdc := Tab.del s.rdc (rdcKey d line) }
  | none => match Tab.get? s.wbBuf (rdcKey d line) with
    | some r => s.applyBytes r.dirty
    | none => s

/-- Invalidate every sharer but one (R219). -/
def State.invalSharers (s : State) (line keep : Nat) : State :=
  { s with rdc := s.rdc.filter (fun e => e.1 % 2 ^ 64 != line || e.1 / 2 ^ 64 == keep) }

/-- Lines that a die's RDC holds: 64 MiB of 128 bytes (R7). -/
def rdcCap : Nat := 2 ^ 19

/-- A die's RDC gives up a line: an exclusive line of package HBM is written back and kept until the home acknowledges (R220), one of a host
or of another package goes back to it (R225), a shared line just goes: no request tells the home (log 79). -/
def State.rdcEvict (s : State) (d line : Nat) : State :=
  match Tab.get? s.rdc (rdcKey d line) with
  | none => s
  | some r =>
    let s1 : State := { s with rdc := Tab.del s.rdc (rdcKey d line) }
    if !tracked (line * 128) then s1.applyBytes r.dirty
    else if r.excl then { s1 with wbBuf := Tab.set s1.wbBuf (rdcKey d line) r }.send [.writeBack d line]
    else s1

/-- Put a line in a die's RDC; a full RDC gives up a free one first (log 83). -/
def State.rdcPut (s : State) (d line : Nat) (r : RdcLine) : State :=
  let mine := s.rdc.filter (fun e => e.1 / 2 ^ 64 == d)
  let s1 := if mine.length < rdcCap || (Tab.get? s.rdc (rdcKey d line)).isSome then s
    else { (s.rdcEvict d ((mine.map (·.1 % 2 ^ 64)).getD ((Config.freeWord s.free).toNat % rdcCap) 0)) with free := s.free + 1 }
  { s1 with rdc := Tab.set s1.rdc (rdcKey d line) r }

/-- Read-shared at the home (R219). -/
def State.readShared (s : State) (d line : Nat) : State :=
  let e := s.dirOf line
  let s1 := if e.state = 2#2 then s.recallFrom e.owner.toNat line else s
  let ver := e.version
  (s1.setDir line { e with sharers := e.sharers ||| (1#8 <<< d), state := 1 }).rdcPut d line { excl := false, version := ver }

/-- Read-for-ownership at the home (R219). SHARERS is cleared: whether the owner's own bit is set while STATE = 2 is the model's choice (log
77). -/
def State.readOwn (s : State) (d line : Nat) : State :=
  let e := s.dirOf line
  let s1 := if e.state = 2#2 && e.owner.toNat != d then s.recallFrom e.owner.toNat line else s
  let s2 := s1.invalSharers line d
  let keep := (Tab.get? s.rdc (rdcKey d line)).map (·.dirty)
  let e' := { e with sharers := 0, state := 2, owner := BitVec.ofNat 3 d, version := e.version + 1, host := false }
  (s2.setDir line e').rdcPut d line { excl := true, version := e'.version, dirty := keep.getD [] }

/-- A write-back at its home: accepted from the owner with the current version, else cancelled (R219). -/
def State.acceptWb (s : State) (d line : Nat) (r : RdcLine) : State :=
  let e := s.dirOf line
  if e.state = 2#2 && e.owner.toNat == d && e.version == r.version then (s.applyBytes r.dirty).setDir line { e with state := 0 } else s

/-- A die that needs a line again waits until the home has acknowledged the write-back that it keeps (R220): that write-back is finished
first. -/
def State.settleWb (s : State) (d line : Nat) : State :=
  match Tab.get? s.wbBuf (rdcKey d line) with
  | none => s
  | some r =>
    let s1 := s.acceptWb d line r
    { s1 with
      wbBuf := Tab.del s1.wbBuf (rdcKey d line)
      inflight := s1.inflight.filter (fun m => match m with
        | .writeBack x l => !(x == d && l == line)
        | .writeBackAck x l => !(x == d && l == line)
        | _ => true) }

/-- The response to a back-invalidation snoop: the host holds the line no longer, and the requests that waited at the home are performed in
their order of arrival (R219, R225). -/
def State.hostGone (s : State) (line : Nat) : State :=
  let q := Tab.getD s.homeQ line []
  let s1 := { (s.setDir line { s.dirOf line with host := false }) with homeQ := Tab.del s.homeQ line }
  q.foldl (fun s r =>
    if r.2 then s.readOwn r.1 line
    else if (s.dirOf line).remote || (Tab.get? s.rdc (rdcKey r.1 line)).isSome then s
    else s.readShared r.1 line) s1

/-- A request that finds another one in progress waits for it (R219): the snoop under way is finished first. -/
def State.settleHost (s : State) (line : Nat) : State :=
  let out := fun (m : Instr) => match m with | .bisnpResponse l => l == line | _ => false
  if s.inflight.any out then ({ s with inflight := s.inflight.filter (fun m => !out m) }).hostGone line else s

/-- A die takes a line homed outside the package's HBM: while one RDC holds it exclusive no other does (R185, R225). -/
def State.farTake (s : State) (d line : Nat) (own : Bool) : State :=
  let others := s.rdc.filter (fun e => e.1 % 2 ^ 64 == line && e.1 / 2 ^ 64 != d && (own || e.2.excl))
  let s1 := others.foldl (fun s e => { (s.applyBytes e.2.dirty) with rdc := Tab.del s.rdc e.1 }) s
  match Tab.get? s1.rdc (rdcKey d line) with
  | some r => if own && !r.excl then { s1 with rdc := Tab.set s1.rdc (rdcKey d line) { r with excl := true } } else s1
  | none => s1.rdcPut d line { excl := own, version := 0 }

/-- Selected lines of hosts or of other packages go back to them from every RDC (R222, R225). -/
def State.farBack (s : State) (sel : Nat → Bool) : State :=
  let mine := fun (e : Nat × RdcLine) => !tracked (e.1 % 2 ^ 64 * 128) && sel (e.1 % 2 ^ 64)
  let s1 := (s.rdc.filter mine).foldl (fun s e => s.applyBytes e.2.dirty) s
  { s1 with rdc := s1.rdc.filter (fun e => !mine e) }

/-- A page of another package is pinned at its home in this step: its home decides (log 84; R224). -/
def State.farPin (s : State) (k : Nat) : Bool := keyRemote k && Config.farPinned (k / 4096) s.steps

/-! ## Pages between packages (R221-R224) -/

/-- The 4 KiB page of a key, and the page of a line. -/
def pageOf (k : Nat) : Nat := k / 4096
def State.page (s : State) (g : Nat) : PageState := Tab.getD s.pages g {}
def State.modPage (s : State) (g : Nat) (f : PageState → PageState) : State := { s with pages := Tab.modD s.pages g {} f }
def State.setPageDir (s : State) (g : Nat) (f : DirEntry → DirEntry) : State :=
  (List.range 32).foldl (fun s i => s.setDir (g * 32 + i) (f (s.dirOf (g * 32 + i)))) s

/-- PCCFG of a page's home die (R224). -/
def State.pcThresh (s : State) (g : Nat) : Nat := bits (s.reg (keyDie (g * 4096)) 0x4000) 15 0
def State.pcWindow (s : State) (g : Nat) : Nat := bits (s.reg (keyDie (g * 4096)) 0x4000) 47 16

/-- The page is home-only again: its lines re-enter line tracking (R223). -/
def State.pageHome (s : State) (g : Nat) : State :=
  (s.setPageDir g (fun e => { e with remote := false, sharers := 0, state := 0 })).modPage g (fun p => { p with readers := [], excl := none })

/-- Count transfers; at THRESH within one window the page is pinned home (R224). A window begins at the first transfer after the last one
has ended: the spec does not align windows (log 80). -/
def State.countTransfers (s : State) (g n : Nat) : State :=
  let p := s.page g
  let now := s.tickOf (keyDie (g * 4096))
  let p1 : PageState := if now ≥ p.windowStart + s.pcWindow g then { p with windowStart := now, transfers := n } else { p with transfers := p.transfers + n }
  if s.pcThresh g ≠ 0 ∧ p1.transfers ≥ s.pcThresh g ∧ ¬ p1.pinned then
    (s.modPage g (fun _ => { p1 with pinned := true, windowStart := now, ops := 0 })).pageHome g
  else s.modPage g (fun _ => p1)

/-- The holder of an exclusive-remote page writes its dirty lines back: what it wrote there is not this package's to say, so the bytes are
free (log 30). -/
def State.pageBack (s : State) (g : Nat) : State :=
  let s1 := (List.range 4096).foldl (fun s i => s.wr8 (g * 4096 + i) (Config.freeByte s.free i)) s
  { s1 with free := s1.free + 1 }

/-- What an access makes of its page (R222): the holder of an exclusive-remote page gives it back; a write invalidates remote readers. -/
def State.pageTouch (s : State) (g : Nat) (forWrite : Bool) : State :=
  match Tab.get? s.pages g with
  | none => s
  | some p =>
    if p.excl.isSome then ((s.pageBack g).pageHome g).countTransfers g 1
    else if forWrite && !p.readers.isEmpty then (s.pageHome g).countTransfers g p.readers.length
    else s

/-- Another package reads the page: its lines are not tracked one by one (R222, R223). -/
def State.pageShared (s : State) (g : Nat) : Bool := !(s.page g).readers.isEmpty

/-- Before a page leaves home-only its lines are recalled from the package's RDCs, and REMOTE is set on them (R222). -/
def State.leaveHome (s : State) (g : Nat) : State :=
  let s1 := (List.range 32).foldl (fun s i =>
    let line := g * 32 + i
    let e := s.dirOf line
    let s' := if e.state = 2#2 then s.recallFrom e.owner.toNat line else s
    s'.invalSharers line 8) s
  s1.setPageDir g (fun e => { e with remote := true, sharers := 0, state := 0 })

/-- A package takes a page exclusively (R221, R222). -/
def State.pageExcl (s : State) (g node : Nat) : State :=
  let n := ((s.page g).readers.filter (· != node)).length
  let s1 := if s.pageShared g then s else s.leaveHome g
  (s1.modPage g (fun p => { p with readers := [], excl := some node })).countTransfers g (n + 1)

/-- Any access of the home die, or an uncached one, after the recall that STATE requires (R219). The owner's copy goes and the line is
home-only: the spec gives no state after such a recall (log 78). -/
def State.homeRecall (s : State) (line : Nat) (forWrite : Bool) : State :=
  let s0 := s.pageTouch (line / 32) forWrite
  let e := s0.dirOf line
  if e.state = 2#2 then (s0.recallFrom e.owner.toNat line).setDir line { e with state := 0, sharers := 0 }
  else if forWrite && e.state = 1#2 then (s0.invalSharers line 8).setDir line { e with state := 0, sharers := 0 }
  else s0

/-- What the home of a line outside the package's HBM needs before it is read or written there: a page of another package leaves this
package's RDCs, a line of a host leaves them. -/
def State.farHome (s : State) (k : Nat) : State :=
  s.farBack (fun l => if keyRemote k then l / 32 == lineOf k / 32 else l == lineOf k)

/-- Read or write at the home, whoever asks (R163, R199). -/
def State.homeRead (s : State) (k : Nat) : Byte × State :=
  let s1 := if !tracked k then s.farHome k else s.homeRecall (lineOf k) false
  (s1.homeByte k, s1)
def State.homeWrite (s : State) (k : Nat) (b : Byte) : State :=
  (if !tracked k then s.farHome k else s.homeRecall (lineOf k) true).wr8 k b
/-- Write n bytes at their homes. -/
def State.homeWriteN (s : State) (k n v : Nat) : State :=
  ((bytesOf v n).foldl (fun (acc : Nat × State) b => (acc.1 + 1, acc.2.homeWrite acc.1 b)) (k, s)).2

/-- Read a byte at the point of coherence of a die (R185, R199): home L2, or the die's RDC for lines homed elsewhere. -/
def State.dieRead (s : State) (d k : Nat) : Byte × State :=
  if (tracked k && keyDie k == d) || s.farPin k then s.homeRead k
  else
    let s1 := if !tracked k then s.farTake d (lineOf k) false
      else
        let s0 := (s.pageTouch (pageOf k) false).settleWb d (lineOf k)
        if (Tab.get? s0.rdc (rdcKey d (lineOf k))).isSome || s0.pageShared (pageOf k) then s0
        else (s0.settleHost (lineOf k)).readShared d (lineOf k)
    match s1.dieDirty d k with
    | some b => (s1.seen k b, s1)
    | none => (s1.homeByte k, s1)

/-- Write a byte at the point of coherence of a die. A write to a scale region drops nothing that this model keeps: sidebands are rebuilt at
each use (R190). A line that a host holds is snooped first (R225). -/
def State.dieWrite (s : State) (d k : Nat) (b : Byte) : State :=
  if (tracked k && keyDie k == d) || s.farPin k then s.homeWrite k b
  else
    let s1 := if !tracked k then s.farTake d (lineOf k) true
      else
        let s0 := (s.pageTouch (pageOf k) true).settleWb d (lineOf k)
        if ((Tab.get? s0.rdc (rdcKey d (lineOf k))).map (·.excl)).getD false then s0
        else (s0.settleHost (lineOf k)).readOwn d (lineOf k)
    { s1 with rdc := Tab.mod s1.rdc (rdcKey d (lineOf k)) (fun r => { r with dirty := Tab.set r.dirty k b }) }

/-! ## Poisoned sectors (R473, R479) -/

/-- The HBM stack of a 32-byte sector (R187). -/
def stackOf (q : Nat) : Nat :=
  let k := q * 32
  2 * keyDie k + b2n (bitOf k 8 != (bitOf k 17 != (bitOf k 26 != bitOf k 35)))

def State.badSector (s : State) (q : Nat) : Bool :=
  s.mpoison.contains q || (tracked (q * 32) && s.stackDown.contains (stackOf q) && !s.mclean.contains q)

/-- Mark a sector, or clear its mark. -/
def State.markSector (s : State) (q : Nat) (bad : Bool) : State :=
  if bad then { s with mpoison := insertSet s.mpoison q, mclean := s.mclean.filter (· != q) }
  else
    { s with
      mpoison := s.mpoison.filter (· != q)
      mclean := if tracked (q * 32) && s.stackDown.contains (stackOf q) then insertSet s.mclean q else s.mclean }

def State.poisonLine (s : State) (line : Nat) : State := (List.range 4).foldl (fun s i => s.markSector (line * 4 + i) true) s

/-! ## Acknowledgements (R215) -/

/-- Count a write that must be acknowledged against its wave and put its acknowledgement on the way. -/
def State.addAck (s : State) (w node die key : Nat) (atomic : Bool) : State :=
  let id := s.nextAck
  let crew := ((s.wave? w).map (·.crew)).getD 0
  let a : Ack := { wave := w, node := node, die := die, key := key, crew := crew, atomic := atomic }
  (({ s with acks := Tab.set s.acks id a, nextAck := id + 1 }).modWave w (fun v => { v with ackcnt := v.ackcnt + 1 })).send
    [.ackArrival id]

/-- Whether one more counted write would pass the limit (R215). -/
def ackFull (v : Wave) : Bool := v.ackcnt ≥ 65535

/-! ## The L1 (R184) -/

/-- Write back one dirty byte of a core's L1 to its die (R184, R215). -/
def State.wbByte (s : State) (c k : Nat) (b : L1Byte) : State :=
  if b.dirty then (s.dieWrite (coreDie c) k b.val).modCore c (fun x =>
    { x with l1 := Tab.mod x.l1 k (fun y => { y with dirty := false }) }) else s

/-- The lines and waves whose write-back from a core of die d is acknowledged: homes on other dies and packages. -/
def ackLines (d : Nat) (l : Tab L1Byte) : List (Nat × Nat) :=
  (l.filter (fun e => e.2.dirty && (!tracked e.1 || keyDie e.1 != d) )).foldl
    (fun acc e => let p := (lineOf e.1, e.2.wave); if acc.contains p then acc else acc ++ [p]) []

/-- The write-backs that the limit of their waves' counts holds back in the L1 (R215). -/
def State.heldBack (s : State) (l : List (Nat × Nat)) : List (Nat × Nat) :=
  (l.foldl (fun (acc : List (Nat × Nat) × List (Nat × Nat)) p =>
    if ((s.wave? p.2).map (·.ackcnt)).getD 0 + (acc.1.filter (fun q => q.2 == p.2)).length < 65535 then (acc.1 ++ [p], acc.2)
    else (acc.1, acc.2 ++ [p])) ([], [])).2

/-- Write back the dirty bytes that a test selects, and drop the selected bytes if asked (R167, R184, R203, R204). What the limit of R215
holds back stays. -/
def State.flushL1 (s : State) (c : Nat) (sel : Nat → Bool) (inval : Bool) : State :=
  let pairs := ackLines (coreDie c) ((s.core c).l1.filter (fun e => sel e.1))
  let held := s.heldBack pairs
  let stays := fun (e : Nat × L1Byte) => e.2.dirty && held.contains (lineOf e.1, e.2.wave)
  let part := (s.core c).l1.filter (fun e => sel e.1 && !stays e)
  let s1 := part.foldl (fun s e => s.wbByte c e.1 e.2) s
  let s2 := (pairs.filter (fun p => !held.contains p)).foldl (fun s p =>
    s.addAck p.2 (p.1 * 128 / 2 ^ 52) (keyDie (p.1 * 128)) (p.1 * 128) false) s1
  if inval then s2.modCore c (fun x => { x with l1 := x.l1.filter (fun e => !sel e.1 || stays e) }) else s2

/-- The lines that an L1 holds. -/
def l1Lines (l : Tab L1Byte) : List Nat :=
  l.foldl (fun acc e => if acc.head? == some (lineOf e.1) then acc else lineOf e.1 :: acc) []

/-- Lines of an L1: 128 KiB of 128 bytes (R7). -/
def l1Cap : Nat := 1024

/-- Room in an L1 for the line of a byte: a full L1 gives up a free line first (log 83). -/
def State.l1Room (s : State) (c k : Nat) : State :=
  let ls := l1Lines (s.core c).l1
  if ls.length < l1Cap || ls.contains (lineOf k) then s
  else
    let x := ls.getD ((Config.freeWord s.free).toNat % l1Cap) 0
    { (s.flushL1 c (fun q => lineOf q == x) true) with free := s.free + 1 }

/-- Bring the 32-byte sector of a byte into an L1, beside what it holds of it (R184). -/
def State.l1Fill (s : State) (c k : Nat) : State :=
  (List.range 32).foldl (fun s i =>
    let q := k / 32 * 32 + i
    match Tab.get? (s.core c).l1 q with
    | some _ => s
    | none =>
      let (b, s') := s.dieRead (coreDie c) q
      s'.modCore c (fun x => { x with l1 := Tab.set x.l1 q { val := b, dirty := false, wave := 0 } })) (s.l1Room c k)

/-- Read a byte through a core's L1: a load allocates its 32-byte sector (R184). -/
def State.l1Read (s : State) (c k : Nat) : Byte × State :=
  match Tab.get? (s.core c).l1 k with
  | some b => (s.seen k b.val, s)
  | none =>
    let s1 := s.l1Fill c k
    match Tab.get? (s1.core c).l1 k with
    | some b => (s1.seen k b.val, s1)
    | none => (0, s1)

/-- Store a byte in a core's L1 (R184). -/
def State.l1Write (s : State) (c w k : Nat) (b : Byte) : State :=
  (s.l1Room c k).modCore c (fun x => { x with l1 := Tab.set x.l1 k { val := b, dirty := true, wave := w } })

/-! ## Page tables and TLBs (R192-R198) -/

def pteV (e : W64) : Bool := e.getLsbD 0
def pteR (e : W64) : Bool := e.getLsbD 1
def pteW (e : W64) : Bool := e.getLsbD 2
def pteX (e : W64) : Bool := e.getLsbD 3
def pteA (e : W64) : Bool := e.getLsbD 4
def pteD (e : W64) : Bool := e.getLsbD 5
def pteGS (e : W64) : Nat := bits e.toNat 7 6
def pteCA (e : W64) : Nat := bits e.toNat 9 8
def pteCont (e : W64) : Bool := e.getLsbD 11
def pteFrame (e : W64) : Nat := bits e.toNat 47 12
def pteNode (e : W64) : Nat := bits e.toNat 63 48
def pteLeaf (e : W64) : Bool := pteR e || pteW e || pteX e

/-- A walk's result: a leaf with the key of its entry and its page size in bits, or the NOMAP subcode (R431). -/
inductive Walk where
  | leaf (e : W64) (key : Nat) (sz : Nat)
  | bad (sub : Nat)
  deriving DecidableEq, Repr

def levelShift (lv : Nat) : Nat := 39 - 9 * lv

/-- Walk from a level (R192); `fuel` levels remain. -/
def State.walkFrom (s : State) (table lv a : Nat) : Nat → Walk
  | 0 => .bad 6
  | n + 1 =>
    let key := table + 8 * (a / 2 ^ levelShift lv % 512)
    let e := BitVec.ofNat 64 (s.cohN key 8)
    if !pteV e then .bad lv
    else if pteLeaf e then
      (if lv = 0 then .bad 4
       else if pteFrame e * 4096 % 2 ^ levelShift lv != 0 then .bad 5
       else .leaf e key (levelShift lv))
    else if lv = 3 then .bad 6
    else s.walkFrom (pteFrame e * 4096) (lv + 1) a n

def State.walk (s : State) (root a : Nat) : Walk := s.walkFrom (root * 4096) 0 a 4

/-- The first poisoned entry that the walk of an address reads (R474). -/
def State.walkPoisonFrom (s : State) (table lv a : Nat) : Nat → Option Nat
  | 0 => none
  | n + 1 =>
    let key := table + 8 * (a / 2 ^ levelShift lv % 512)
    let e := BitVec.ofNat 64 (s.cohN key 8)
    if s.badSector (key / 32) then some key
    else if !pteV e || pteLeaf e || lv = 3 then none
    else s.walkPoisonFrom (pteFrame e * 4096) (lv + 1) a n

def State.walkPoison (s : State) (root a : Nat) : Option Nat := s.walkPoisonFrom (root * 4096) 0 a 4

/-- No route leads to a package: node number 0xFFFF names none (R10), or every Odyohal link is down (R477). -/
def State.noRoute (s : State) (node : Nat) : Bool :=
  node == 0xFFFF || (List.range 16).all (fun l => Tab.getD s.host.links l 0 == 2)

/-- A line's home serves no request: another package that no route leads to, or another die that is contained or lost; and neither this die's RDC nor this core's L1 holds it (R403, R451, R478). -/
def State.homeAway (s : State) (c k : Nat) : Bool :=
  ((tracked k && keyDie k != coreDie c && ((s.die (keyDie k)).contained || (s.die (keyDie k)).lostDie))
    || (keyRemote k && s.noRoute (k / 2 ^ 52 - 1)))
  && (Tab.get? s.rdc (rdcKey (coreDie c) (lineOf k))).isNone && (Tab.get? (s.core c).l1 k).isNone

/-- Sixteen valid leaves with consecutive frames that agree otherwise (R196). -/
def State.contGroup (s : State) (key : Nat) : Option W64 :=
  let base := key / 128 * 128
  let e0 := BitVec.ofNat 64 (s.cohN base 8)
  let ok := (List.range 16).all (fun i =>
    let e := BitVec.ofNat 64 (s.cohN (base + 8 * i) 8)
    pteV e && pteLeaf e && pteFrame e == pteFrame e0 + i
      && (e &&& ~~~(0x0000FFFFFFFFF000#64)) == (e0 &&& ~~~(0x0000FFFFFFFFF000#64)))
  if ok then some e0 else none

/-- Put an entry in a TLB of a size; a full one gives up the entry that a free number names (log 83). -/
def tlbPut (cap pick : Nat) (l : List TlbEntry) (t : TlbEntry) : List TlbEntry :=
  if l.contains t then l else if l.length < cap then l ++ [t] else l.eraseIdx (pick % cap) ++ [t]

/-- Sizes of the TLBs and of the walk cache (R197). -/
def coreTlbCap : Nat := 64
def clusterTlbCap : Nat := 2048
def dieTlbCap : Nat := 8192
def walkCap : Nat := 512

/-- An entry enters the core TLB, and the cluster TLB and the last-level TLB where it was not found there (R197). The core remembers the
translation for its L1 lines (log 11). -/
def State.fillTlb (s : State) (c depth : Nat) (t : TlbEntry) : State :=
  let d := coreDie c
  let cl := coreCluster c
  let pick := (Config.freeWord s.free).toNat
  let full := (s.core c).tlb.length ≥ coreTlbCap || (Tab.getD (s.die d).clTlb cl []).length ≥ clusterTlbCap || (s.die d).llTlb.length ≥ dieTlbCap
  let s1 := s.modCore c (fun x => { x with
    tlb := tlbPut coreTlbCap pick x.tlb t
    maps := if x.maps.contains t then x.maps else x.maps ++ [t] })
  let s2 := if depth = 0 then s1
    else s1.modDie d (fun x => { x with clTlb := Tab.set x.clTlb cl (tlbPut clusterTlbCap pick (Tab.getD x.clTlb cl []) t) })
  let s3 := if depth ≤ 1 then s2 else s2.modDie d (fun x => { x with llTlb := tlbPut dieTlbCap pick x.llTlb t })
  if full then { s3 with free := s3.free + 1 } else s3

/-- Install a leaf and set A in its entry, and in no other, if it is clear (R195, R196, log 76). -/
def State.install (s : State) (c asn a : Nat) (e : W64) (key sz : Nat) : W64 × State :=
  let ent : TlbEntry :=
    match (if sz = 12 && pteCont e then s.contGroup key else none) with
    | some g => { asn := asn, base := a / 2 ^ 16 * 2 ^ 16, size := 2 ^ 16, leaf := g ||| 0x10#64 }
    | none => { asn := asn, base := a / 2 ^ sz * 2 ^ sz, size := 2 ^ sz, leaf := e ||| 0x10#64 }
  let s1 := if pteA e then s else s.homeWriteN key 8 (e ||| 0x10#64).toNat
  (ent.leaf, s1.fillTlb c 2 ent)

def tlbHit (l : List TlbEntry) (asn a : Nat) : Option TlbEntry :=
  l.find? (fun t => t.asn == asn && t.base ≤ a && a < t.base + t.size)

/-- Look an address up in the core TLB, the cluster TLB and the last-level TLB; a hit fills the levels before it (R197). -/
def State.tlbLook (s : State) (c asn a : Nat) : Option TlbEntry × State :=
  let d := coreDie c
  match tlbHit (s.core c).tlb asn a with
  | some t => (some t, s)
  | none => match tlbHit (Tab.getD (s.die d).clTlb (coreCluster c) []) asn a with
    | some t => (some t, s.fillTlb c 0 t)
    | none => match tlbHit (s.die d).llTlb asn a with
      | some t => (some t, s.fillTlb c 1 t)
      | none => (none, s)

/-- A list that starts at another element. -/
def rotate {α : Type} (l : List α) (n : Nat) : List α := l.drop (n % l.length) ++ l.take (n % l.length)

/-- Where a walk starts: at the table of the deepest entry of the die's walk cache that covers the address, or at the root (R197). -/
def walkStart (l : List WalkEntry) (asn root a : Nat) : Nat × Nat :=
  l.foldl (fun acc t =>
    if t.asn == asn && a / 2 ^ levelShift t.level == t.top && acc.2 ≤ t.level then (t.table, t.level + 1) else acc) (root * 4096, 0)

/-- The non-leaf entries that a walk reads. -/
def State.walkSteps (s : State) (asn table lv a : Nat) : Nat → List WalkEntry
  | 0 => []
  | n + 1 =>
    let e := BitVec.ofNat 64 (s.cohN (table + 8 * (a / 2 ^ levelShift lv % 512)) 8)
    if !pteV e || pteLeaf e || lv ≥ 3 then []
    else { asn := asn, level := lv, top := a / 2 ^ levelShift lv, table := pteFrame e * 4096 } :: s.walkSteps asn (pteFrame e * 4096) (lv + 1) a n

/-- The walk of a miss, from the walk cache on; its non-leaf entries enter the cache (R192, R197). -/
def State.walkMiss (s : State) (d asn root a : Nat) : Option Nat × Walk × State :=
  let st := walkStart (s.die d).walkc asn root a
  let new := (s.walkSteps asn st.1 st.2 a 4).filter (fun t => !((s.die d).walkc.contains t))
  let excess := (s.die d).walkc.length + new.length - walkCap
  let s1 := s.modDie d (fun x => { x with walkc := (if excess = 0 then x.walkc else (rotate x.walkc (Config.freeWord s.free).toNat).drop excess) ++ new })
  (s.walkPoisonFrom st.1 st.2 a 4, s.walkFrom st.1 st.2 a 4, if excess = 0 then s1 else { s1 with free := s1.free + 1 })

/-- A translated address: key, coherence attribute, grant state, its leaf, and whether its page is pinned at another package's home. -/
structure Phys where
  key : Nat
  ca : Nat
  gs : Nat
  leaf : W64
  pin : Bool := false
  deriving DecidableEq, Repr

/-- The key that a leaf gives an address (R186, R193). -/
def physOf (leaf : W64) (base a : Nat) : Phys :=
  let ca := pteCA leaf
  let pa := pteFrame leaf * 4096 + (a - base)
  let key := if ca = 0 then keyOf none pa
    else if ca = 3 then keyOf (some (pteNode leaf)) pa
    else keyOf none (2 ^ 48 + pa)
  { key := key, ca := ca, gs := pteGS leaf, leaf := leaf }

/-- Access kinds of SUB [1:0] (R431). -/
def aREAD : Nat := 0
def aWRITE : Nat := 1
def aATOM : Nat := 2
def aFETCH : Nat := 3

def cSPACE : Nat := 0x20
def cMISALIGN : Nat := 0x21
def cNOMAP : Nat := 0x22
def cPERM : Nat := 0x23
def cGRANTED : Nat := 0x24
def cNOATOMIC : Nat := 0x25
def cBARBLOCK : Nat := 0x26
def cRAWFMT : Nat := 0x27
def cFUTWRITE : Nat := 0x28
def cPLANEACC : Nat := 0x29
def cUNWRITTEN : Nat := 0x2A
def cCOLLIDE : Nat := 0x2B

def accTrap (cause kind detail : Nat) (desc : Bool) (a : Nat) : Trap :=
  { cause := cause, sub := kind + 4 * b2n desc + 8 * detail, tval := BitVec.ofNat 64 a }

/-- A TLB entry of a page with D set. -/
def dirtyIn (asn a : Nat) (l : List TlbEntry) : List TlbEntry :=
  l.map (fun t => if t.asn == asn && t.base ≤ a && a < t.base + t.size then { t with leaf := t.leaf ||| 0x30#64 } else t)

/-- Set D in the entry of the written page, and in no other of a 64 KiB group, and in the TLBs that serve the core (R195, log 76). -/
def State.setDirty (s : State) (c root asn a : Nat) : State :=
  match s.walk root a with
  | .leaf e key _ =>
    ((s.homeWriteN key 8 (e ||| 0x30#64).toNat).modCore c (fun x => { x with tlb := dirtyIn asn a x.tlb })).modDie (coreDie c) (fun x =>
      { x with
        clTlb := Tab.modD x.clTlb (coreCluster c) [] (dirtyIn asn a)
        llTlb := dirtyIn asn a x.llTlb })
  | .bad _ => s

/-- Translate a global address for an access, but for its D bit (R192-R195, R429 checks 4 to 6). `lockish` needs R or W only. -/
def State.translate0 (s : State) (c proc a kind : Nat) (desc lockish : Bool) : Except Trap Phys × State :=
  match s.proc? proc with
  | none => (.error (accTrap cNOMAP kind 0 desc a), s)
  | some p =>
    let asn := p.asn.toNat
    let res : Except Nat (W64 × Nat) × State :=
      match s.tlbLook c asn a with
      | (some t, s1) => (.ok (t.leaf, t.base), s1)
      | (none, _) => match s.walkMiss (coreDie c) asn p.ptroot.toNat a with
        | (some key, _, s1) => (.error 8, s1.hbmue (coreDie c) proc key)
        | (none, .bad n, s1) => (.error n, s1)
        | (none, .leaf e key sz, s1) =>
          let (l, s2) := s1.install c asn a e key sz
          (match tlbHit (s2.core c).tlb asn a with
            | some t => (.ok (l, t.base), s2)
            | none => (.ok (l, a / 2 ^ sz * 2 ^ sz), s2))
    match res with
    | (.error n, s1) => (.error (if n = 8 then { cause := cHBMUE, sub := 0 } else accTrap cNOMAP kind n desc a), s1)
    | (.ok (l, base), s1) =>
      let ph := physOf l base a
      let perm : Option Nat :=
        if lockish then (if !pteR l && !pteW l then some 0 else none)
        else if kind = aFETCH then (if pteX l then none else some 2)
        else if kind = aREAD then (if pteR l then none else some 0)
        else if kind = aATOM then (if !pteR l then some 0 else if !pteW l then some 1 else none)
        else (if pteW l then none else some 1)
      let perm' := match perm with
        | some n => some n
        | none => if ph.ca = 1 && !s.cxl.contains (bits ph.key 47 47) then some 3 else none
      match perm' with
      | some n => (.error (accTrap cPERM kind n desc a), s1)
      | none =>
        if ph.gs = 1 then (.error (accTrap cGRANTED kind 0 desc a), s1)
        else if kind ≠ aWRITE ∧ ¬ lockish ∧ s1.homeAway c ph.key then (.error { cause := cACKLOST, sub := 0, tval := BitVec.ofNat 64 a }, s1)
        else (.ok { ph with pin := s1.farPin ph.key }, s1)

/-- The first write through a translation whose D is clear sets D (R195). -/
def State.markDirty (s : State) (c proc a kind : Nat) (lockish : Bool) (ph : Phys) : State :=
  if (kind = aWRITE ∨ kind = aATOM) ∧ ¬ lockish ∧ ¬ pteD ph.leaf then
    (match s.proc? proc with
      | some p => s.setDirty c p.ptroot.toNat p.asn.toNat a
      | none => s)
  else s

/-- Translate a global address for an access; a write that passes every check sets D. -/
def State.translate (s : State) (c proc a kind : Nat) (desc lockish : Bool) : Except Trap Phys × State :=
  match s.translate0 c proc a kind desc lockish with
  | (.error t, s1) => (.error t, s1)
  | (.ok ph, s1) => (.ok ph, s1.markDirty c proc a kind lockish ph)

end Sys2Proof.Machine
end

