-- ==== Sys2Proof/Machine/Access.lean ====
section
/-!
DEFINITION. Sys2Proof/Machine/Access.lean: an access of a wave to the generic address space: where it goes, the checks of its issue,
and what it reads or writes there (spec/08_memory_spaces_and_translation.md R175-R185, spec/11_crews_step_planes_line_locks.md R235,
R241, spec/23_memory_lock_plane_and_engine_faults.md R429-R440).
-/

namespace Sys2Proof.Machine

/-! ## Crews' scratchpad (R178-R183) -/

def gran : Nat := 4096
def Crew.bytes (c : Crew) : Nat := c.grans * gran
/-- Offset of the barrier block (R181). -/
def Crew.barOff (c : Crew) : Nat := c.bytes - 128

/-- State word of a barrier (R181). -/
def Barrier.word (b : Barrier) : Nat := packFields [(b.expected, 0, 16), (b.arrived, 16, 16), (b.phase, 32, 1)]

/-- A word of the allocation as loads see it, and whether its valid bit is set (R180, R181, R235). -/
def Crew.word (c : Crew) (i : Nat) : W32 × Bool :=
  if 4 * i ≥ c.barOff then
    let n := (4 * i - c.barOff) / 8
    (BitVec.ofNat 32 ((Tab.getD c.barriers n {}).word / 2 ^ (32 * (i % 2))), true)
  else match Tab.get? c.scratch i with
    | some w => (w, true)
    | none => (0, false)

/-- The bytes of a range of the allocation. -/
def Crew.read (c : Crew) (off n : Nat) : Nat :=
  ofBytes ((List.range n).map (fun j => BitVec.ofNat 8 ((c.word ((off + j) / 4)).1.toNat / 2 ^ (8 * ((off + j) % 4)))))

/-- Words of a range whose valid bit is clear. -/
def Crew.unwritten (c : Crew) (off n : Nat) : List Nat :=
  ((List.range (n + 3)).map (fun j => (off + j) / 4)).eraseDups.filter (fun i => 4 * i < off + n && !(c.word i).2)

def regionM (rule n : Nat) : Nat :=
  let m := 2 * n + n / 16 + (if rule = 0 then n / 2 else 0)
  (m + 127) / 128 * 128

/-- The configured region whose addressed words, or whose hidden bytes, hold an offset (R233). -/
def Crew.regionAt (c : Crew) (off : Nat) : Option (Nat × Region) :=
  c.regions.find? (fun e => e.2.off ≤ off && off < e.2.off + e.2.n)
def Crew.regionIn (c : Crew) (off n : Nat) : Bool := c.regions.any (fun e => e.2.off < off + n && off < e.2.off + e.2.n)
def Crew.hiddenIn (c : Crew) (off n : Nat) : Bool :=
  c.regions.any (fun e => e.2.off + e.2.n < off + n && off < e.2.off + regionM e.2.rule e.2.n)
def Crew.hiddenAt (c : Crew) (off : Nat) : Bool :=
  c.regions.any (fun e => e.2.off + e.2.n ≤ off && off < e.2.off + regionM e.2.rule e.2.n)

/-- One store of a word into a region (R235): the region after it, or none for a collision under FAULT. -/
def Region.store (r : Region) (i : Nat) (x : W32) (idx : Nat) : Option Region :=
  match Tab.get? r.next i with
  | none => some { r with next := Tab.set r.next i x, tags := Tab.set r.tags i idx }
  | some n =>
    match r.rule with
    | 0 => some (if idx ≤ Tab.getD r.tags i 0 then { r with next := Tab.set r.next i x, tags := Tab.set r.tags i idx } else r)
    | 1 => some { r with next := Tab.set r.next i (n + x) }
    | 2 => some { r with next := Tab.set r.next i (BitVec.ofNat 32 (Fmt.f32.addOp n.toNat x.toNat).1) }
    | _ => none

/-- Write bytes of one plain word of the allocation; this sets its valid bit (R180). -/
def Crew.putByte (c : Crew) (off : Nat) (b : Byte) : Crew :=
  let i := off / 4
  let sh := 8 * (off % 4)
  let old := (Tab.getD c.scratch i 0).toNat
  { c with scratch := Tab.set c.scratch i (BitVec.ofNat 32 (mergeBits old (b.toNat * 2 ^ sh) (0xFF * 2 ^ sh))) }

def Crew.putBytes (c : Crew) (off : Nat) : List Byte → Crew
  | [] => c
  | b :: t => (c.putByte off b).putBytes (off + 1) t

/-- Poison of the words of a range after a write (R473): a write of a whole clean word clears it. -/
def Crew.poisonAfter (c : Crew) (off n : Nat) (bad : Bool) : Crew :=
  let ws := ((List.range n).map (fun j => (off + j) / 4)).eraseDups
  if bad then { c with spoison := ws.foldl insertSet c.spoison }
  else { c with spoison := c.spoison.filter (fun i => !(ws.contains i && off ≤ 4 * i && 4 * i + 4 ≤ off + n)) }

/-- A store of n bytes at an offset with a writer index (R180, R235): into the next plane in a region. None: a collision. -/
def Crew.store (c : Crew) (off n v idx : Nat) (bad : Bool := false) : Option Crew :=
  match c.regionAt off with
  | none => some ((c.putBytes off (bytesOf v n)).poisonAfter off n bad)
  | some (k, r) =>
    let i := (off - r.off) / 4
    let one := r.store i (BitVec.ofNat 32 v) idx
    let two := if n = 8 then one.bind (fun r' => r'.store (i + 1) (BitVec.ofNat 32 (v / 2 ^ 32)) idx) else one
    two.map (fun r' => { c with regions := Tab.set c.regions k r' })

/-! ## Resolution of an address (R175, R429-R439) -/

/-- Where an access goes: the private window of a lane, an offset of a crew's allocation (`far` through the cluster window), or
global memory. -/
inductive Target where
  | priv (lane off : Nat)
  | scratch (crew off : Nat) (far : Bool)
  | glob (p : Phys)
  deriving DecidableEq, Repr

def privBase : Nat := 0xFD0000000000
def scratchBase : Nat := 0xFE0000000000
def clusterBase : Nat := 0xFE1000000000
def globalTop : Nat := 0xFC0000000000

/-- The crew of a process whose allocation holds a physical byte of a core's scratchpad, among resident crews (R183). -/
def State.crewAt (s : State) (core proc x : Nat) : Option (Nat × Crew) :=
  s.crews.find? (fun e => e.2.core == core && e.2.proc == proc && e.2.place == .resident
    && e.2.base * gran ≤ x && x < (e.2.base + e.2.grans) * gran)

/-- An access being checked: kind (R431), size, alignment, whether it is a read of a descriptor, whether every space of R430 is
accepted (false: global only), whether only CA = 0 is (`dev`), and its effect on barrier blocks and regions. -/
structure Acc0 where
  kind : Nat
  size : Nat
  align : Nat
  desc : Bool := false
  globalOnly : Bool := false
  noCluster : Bool := false
  noPriv : Bool := false
  dev : Bool := false
  deriving Repr

/-- BARBLOCK and PLANEACC of an access to a range of a crew's allocation (R436, R439). -/
def blockTrap (c : Crew) (a : Acc0) (off addr : Nat) : Option Trap :=
  if off + a.size > c.barOff && a.kind != aREAD then
    some { cause := cBARBLOCK, sub := if a.kind = aATOM then 2 else 1, tval := BitVec.ofNat 64 addr }
  else if c.hiddenIn off a.size then some { cause := cPLANEACC, sub := 4, tval := BitVec.ofNat 64 addr }
  else if c.regionIn off a.size && a.kind != aREAD then
    (if a.kind = aATOM then some { cause := cPLANEACC, sub := 3, tval := BitVec.ofNat 64 addr }
     else if a.size < 4 then some { cause := cPLANEACC, sub := 1, tval := BitVec.ofNat 64 addr }
     else if a.size > 8 then some { cause := cPLANEACC, sub := 2, tval := BitVec.ofNat 64 addr }
     else none)
  else none

/-- Resolve and check one access of a wave in a lane (R429). -/
def State.resolve (s : State) (v : Wave) (lane : Nat) (a : Acc0) (baseHi : Bool) (addr : Nat) :
    Except Trap Target × State :=
  let space := fun d => (Except.error (accTrap cSPACE a.kind d a.desc addr), s)
  let mis := a.align > 1 && addr % a.align != 0
  let misT := (Except.error (accTrap cMISALIGN a.kind 0 a.desc addr), s)
  if baseHi then space 4
  else if addr < globalTop then
    if mis then misT
    else match s.translate0 (s.coreOf v) v.proc addr a.kind a.desc false with
      | (.error t, s1) => (.error t, s1)
      | (.ok p, s1) =>
        if a.dev && p.ca != 0 then (.error (accTrap cSPACE a.kind 3 a.desc addr), s1)
        else (.ok (.glob p), s1.markDirty (s.coreOf v) v.proc addr a.kind false p)
  else if addr < privBase then space 0
  else if addr < scratchBase then
    (if a.globalOnly || a.noPriv then space 3
     else if addr - privBase + a.size > v.priv then space 1
     else if mis then misT else (.ok (.priv lane (addr - privBase)), s))
  else if addr < clusterBase then
    (match s.crew? v.crew with
     | none => space 1
     | some c =>
       let off := addr - scratchBase
       if a.globalOnly then space 3
       else if off + a.size > c.bytes then space 1
       else if mis then misT
       else match blockTrap c a off addr with
         | some t => (.error t, s)
         | none => (.ok (.scratch v.crew off false), s))
  else if addr < clusterBase + 0x400000 then
    (if a.globalOnly || a.noCluster then space 3
     else if mis then misT
     else
       let core := coreCluster (s.coreOf v) * 16 + (addr - clusterBase) / 0x40000
       let x := (addr - clusterBase) % 0x40000
       match s.crewAt core v.proc x with
       | none => space 2
       | some (k, c) =>
         let off := x - c.base * gran
         if off + a.size > c.bytes then space 2
         else match blockTrap c a off addr with
         | some t => (.error t, s)
         | none => (.ok (.scratch k off true), s))
  else space 0

/-- The lowest cause over the lanes, its lowest SUB, TVAL from its lowest lane; every lane that raises any cause (R393, R405). -/
def laneTrap (l : List (Nat × Trap)) : List Trap :=
  match minBy (fun e => e.2.cause * 64 + e.1) l with
  | none => []
  | some (lane, t) =>
    let subs := (l.filter (fun e => e.2.cause == t.cause)).map (fun e => e.2.sub)
    [{ t with sub := (minList subs).getD t.sub, lanes := maskOf (l.map (·.1)), low := lane }]

/-- Resolve the addresses of several lanes in ascending order. -/
def State.resolveAll (s : State) (v : Wave) (a : Acc0) (l : List (Nat × Bool × Nat)) :
    List (Nat × Trap) × List (Nat × Nat × Target) × State :=
  l.foldl (fun acc e =>
    match acc.2.2.resolve v e.1 a e.2.1 e.2.2 with
    | (.error t, s') => (acc.1 ++ [(e.1, t)], acc.2.1, s')
    | (.ok t, s') => (acc.1, acc.2.1 ++ [(e.1, e.2.2, t)], s')) ([], [], s)

/-! ## Locked lines (R241) -/

/-- The entry of a byte's line while it is locked: held, or released with the hand-off still to come. -/
def State.lockOf (s : State) (k : Nat) : Option Lock :=
  if tracked k then
    (match Tab.get? s.locks (lineOf k) with
      | some l => if l.holder.isSome || l.releasing then some l else none
      | none => none)
  else none
def State.modLock (s : State) (line : Nat) (f : Lock → Lock) : State := { s with locks := Tab.mod s.locks line f }

/-- A mapping whose accesses are not cached: host non-coherent, or a page pinned at its home (R185, R224). -/
def Phys.bare (p : Phys) : Bool := p.ca == 2 || p.pin

/-- The L1 keeps nothing of a line that is accessed at its home: a page may have been pinned while the L1 held lines of it. -/
def State.bareLine (s : State) (c : Nat) (p : Phys) (k : Nat) : State :=
  if p.pin then s.flushL1 c (fun q => lineOf q == lineOf k) true else s

/-- Read one byte of global memory for a wave of a core (R185, R241). -/
def State.gRead (s : State) (c w : Nat) (p : Phys) (k : Nat) : Byte × State :=
  match s.lockOf k with
  | some l =>
    if l.holder = some w then
      (match Tab.get? l.copy k with
        | some b => (s.seen k b, s)
        | none => s.homeRead k)
    else s.homeRead k
  | none => if p.bare then (s.bareLine c p k).homeRead k else s.l1Read c k

/-- Read n bytes at a key. -/
def State.gReadN (s : State) (c w : Nat) (p : Phys) (n : Nat) : Nat × State :=
  let r := (List.range n).foldl (fun acc i =>
    let (b, s') := acc.2.gRead c w p (p.key + i)
    (acc.1 ++ [b], s')) (([] : List Byte), s)
  (ofBytes r.1, r.2)

/-- Write one byte of global memory for a wave that may: the holder's copy of a locked line, host memory, or the L1. -/
def State.gWrite (s : State) (c w : Nat) (p : Phys) (k : Nat) (b : Byte) : State :=
  match s.lockOf k with
  | some l =>
    if l.holder = some w then s.modLock (lineOf k) (fun l => { l with copy := Tab.set l.copy k b })
    else s.modLock (lineOf k) (fun l => { l with writes := l.writes ++ [{ wave := w, key := k, bytes := [b] }] })
  | none => if p.bare then (s.bareLine c p k).homeWrite k b else s.l1Write c w k b

def State.gWriteN (s : State) (c w : Nat) (p : Phys) (bs : List Byte) : State :=
  (bs.foldl (fun (acc : Nat × State) b => (acc.1 + 1, acc.2.gWrite c w p acc.1 b)) (p.key, s)).2

/-! ## Poison (R472, R473) -/

def State.poisoned (s : State) (k n : Nat) : Bool := (List.range (n / 32 + 2)).any (fun i => (k / 32 + i) * 32 < k + n && s.badSector (k / 32 + i))

/-- The structure code of a poisoned granule: where the access was served (R470, R473, log 25). -/
def State.poisonSub (s : State) (c k : Nat) : Nat :=
  if (Tab.get? (s.core c).l1 k).isSome then 3
  else if tracked k && keyDie k != coreDie c then 5
  else if (Config.freeWord s.free).getLsbD 0 then 4 else 6

/-- Poison of the sectors that a list of written bytes (key, poisoned) covers. -/
def State.poisonAfter (s : State) (l : List (Nat × Bool)) : State :=
  let secs := (l.map (fun e => e.1 / 32)).eraseDups
  secs.foldl (fun s q =>
    let part := l.filter (fun e => e.1 / 32 == q)
    if part.any (·.2) then s.markSector q true
    else if (List.range 32).all (fun i => part.any (fun e => e.1 == q * 32 + i)) then s.markSector q false
    else s) s

/-! ## Futures' tags (R457) -/

def State.futFull (s : State) (g : Nat) : Bool := (s.rd8 (g + 8)).getLsbD 0
def State.futWaits (s : State) (g : Nat) : Bool := (s.rd8 (g + 8)).getLsbD 1
/-- The tagged granule that a range touches, if a write to it is refused. -/
def State.futRefuses (s : State) (k n : Nat) : Bool :=
  (Tab.keys s.futures).any (fun g => g < k + n && k < g + 16 && (s.futFull g || s.futWaits g))
/-- A write that is performed clears the tag. -/
def State.futClear (s : State) (k n : Nat) : State :=
  { s with futures := s.futures.filter (fun e => !(e.1 < k + n && k < e.1 + 16)) }

/-- Why a write of n bytes at a key is refused where it is performed (R437, R457). -/
def State.writeRefusal (s : State) (k n : Nat) : Option Nat :=
  if (List.range n).any (fun i => s.rawRefused (k + i)) then some cRAWFMT
  else if s.futRefuses k n then some cFUTWRITE else none

/-! ## Private window (R177) -/

/-- The offset in a wave's private backing of a byte of the window of a lane (R177). The backing's place in HBM is not given: it is a table of
its own (log 82). -/
def Wave.privOff (v : Wave) (lane o : Nat) : Nat := o / 16 * (16 * v.width) + 16 * lane + o % 16

def Wave.privRead (v : Wave) (lane off n : Nat) : Nat :=
  ofBytes ((List.range n).map (fun i => Tab.getD v.privMem (v.privOff lane (off + i)) 0))
def Wave.privWrite (v : Wave) (lane off : Nat) : List Byte → Wave
  | [] => v
  | b :: t => ({ v with privMem := Tab.set v.privMem (v.privOff lane off) b }).privWrite lane (off + 1) t

/-! ## Entry-consistency: releases and acquires (R203, R204) -/

/-- Synchronisation objects of a binding (R169). -/
structure SyncObj where
  kind : Nat
  ident : Nat
  deriving DecidableEq, Repr

/-- Whether a virtual address lies in a region bound to an object. -/
def Proc.bound (p : Proc) (o : SyncObj) (a : Nat) : Bool :=
  p.bindings.any (fun e => e.2.kind == o.kind && e.2.ident == o.ident && e.2.base ≤ a && a < e.2.base + e.2.size)

/-- Whether a key lies in a region bound to an object: through the translations that its core holds, one for every line that
its L1 can hold (log 11). -/
def boundKey (p : Proc) (o : SyncObj) (tlbs : List TlbEntry) (k : Nat) : Bool :=
  tlbs.any (fun t =>
    t.asn == p.asn.toNat &&
      (let k0 := (physOf t.leaf t.base t.base).key
       k0 ≤ k && k < k0 + t.size && p.bound o (t.base + (k - k0))))

def scWave : Nat := 0
def scDie : Nat := 2
def scPkg : Nat := 3
def scSys : Nat := 4

/-- Steps 2 of R203 for an object's release by a wave; steps 3 and 4 are the run's waits. -/
def State.relObj (s : State) (v : Wave) (scope : Nat) (o : SyncObj) : State :=
  if scope < scDie then s
  else match s.proc? v.proc with
    | none => s
    | some p => let c := s.coreOf v; s.flushL1 c (boundKey p o (s.core c).maps) false

/-- The acquire of an object (R204). -/
def State.acqObj (s : State) (v : Wave) (scope : Nat) (o : SyncObj) : State :=
  if scope < scDie then s
  else match s.proc? v.proc with
    | none => s
    | some p => let c := s.coreOf v; s.flushL1 c (boundKey p o (s.core c).maps) true

/-- fence.rel and fence.acq on the L1 (R167). -/
def State.fenceRel (s : State) (c scope : Nat) : State := if scope < scDie then s else s.flushL1 c (fun _ => true) false
def State.fenceAcq (s : State) (c scope : Nat) : State := if scope < scDie then s else s.flushL1 c (fun _ => true) true

/-! ## Address waits (R171) -/

/-- A hold that a value written at a word satisfies. -/
def addrHit (h : Held) (off size : Nat) (whole : Nat → Nat → Nat) : Bool :=
  match h.on with
  | .addr o n want _ =>
    o < off + size && off < o + n && (whole o n == want.toNat)
  | _ => false

/-- Evaluate the address waits of a crew at a write of `size` bytes at an offset; released batches acquire. -/
def State.wakeAddr (s : State) (crew off size : Nat) : State :=
  match s.crew? crew with
  | none => s
  | some c =>
    s.waves.foldl (fun s e =>
      if e.2.crew != crew then s
      else match e.2.held.find? (fun h => addrHit h off size (fun o n => c.read o n)) with
        | none => s
        | some _ =>
          let hit := e.2.held.filter (fun h => addrHit h off size (fun o n => c.read o n))
          let s1 := s.modWave e.1 (fun v => { v with held := v.held.filter (fun h => !hit.contains h) })
          hit.foldl (fun s h => match h.on with
            | .addr o _ _ sc => s.acqObj e.2 sc { kind := 7, ident := scratchBase + o }
            | _ => s) s1) s

/-- A store into a crew's allocation with its wake-ups; whether it was performed. -/
def State.scratchStore (s : State) (crew off n v idx : Nat) (bad : Bool := false) : State × Bool :=
  match s.crew? crew with
  | none => (s, false)
  | some c => match c.store off n v idx bad with
    | none => (s, false)
    | some c' => ((s.setCrew crew c').wakeAddr crew off n, true)

end Sys2Proof.Machine
end

