-- ==== Sys2Proof/Machine/Watch.lean ====
section
/-!
DEFINITION. Sys2Proof/Machine/Watch.lean: watchpoints and the sampler, as memory instructions meet them
(spec/18_debug_and_profiling.md R362, R367, R368, R372, R376).
-/

namespace Sys2Proof.Machine

/-- A debug register of a core. -/
def State.dreg (s : State) (c i : Nat) : W64 := Tab.getD (s.core c).dreg i 0
def State.setDreg (s : State) (c i : Nat) (x : W64) : State := s.modCore c (fun k => { k with dreg := Tab.set k.dreg i x })

/-- DBGBASE.EN (R365). -/
def State.dbgEn (s : State) (c : Nat) : Bool := (s.dreg c 1).getLsbD 0

/-- An access that an instruction performed: lane, virtual address, size, kind 1 read, 2 write, 4 atomic, target. -/
structure Note where
  lane : Nat
  addr : Nat
  size : Nat
  kind : Nat
  tgt : Target
  deriving Repr

/-- Where an access falls in the scratchpads: the core and the physical offset. -/
def State.physScratch (s : State) (t : Target) : Option (Nat × Nat) :=
  match t with
  | .scratch k off _ => (s.crew? k).map (fun c => (c.core, c.base * gran + off))
  | _ => none

def overlaps (a n b m : Nat) : Bool := a < b + m && b < a + n

/-- Whether watchpoint i of a core matches an access (R367). `local_`: the access is one of this core's waves. -/
def State.dwMatch (s : State) (core i asn : Nat) (local_ : Bool) (n : Note) : Bool :=
  let a := bits (s.dreg core (0x20 + i)).toNat 47 0
  let c := (s.dreg core (0x24 + i)).toNat
  let len := bits c 15 9 + 1
  let kindOk := (bitOf c 2 && n.kind == 1) || (bitOf c 3 && n.kind == 2) || (bitOf c 4 && n.kind == 4)
  bitOf c 0 && kindOk && len ≤ 64 &&
  (match bits c 6 5 with
   | 0 => local_ && (match n.tgt with | .glob _ => true | _ => false) && bits c 31 16 == asn && overlaps a len n.addr n.size
   | 1 => (if local_ then bitOf c 7 else bitOf c 8)
          && (match s.physScratch n.tgt with | some (k, off) => k == core && overlaps a len off n.size | none => false)
   | _ => false)

/-- The local hits of an instruction's accesses: watchpoint, address with its kind above bit 48, lane (R366, R368). -/
def State.localHits (s : State) (v : Wave) (l : List Note) : List (Nat × W64 × Nat) :=
  let core := s.coreOf v
  if !s.dbgEn core || v.dbg.isSome then []
  else
    let asn := ((s.proc? v.proc).map (·.asn.toNat)).getD 0
    ((List.range 4).filterMap (fun i =>
      (l.find? (s.dwMatch core i asn true)).map (fun n =>
        (i, BitVec.ofNat 64 (n.addr + n.kind * 2 ^ 48), n.lane))))

/-- The remote hits: a message to the lowest-numbered live member of the crew that owns the watched bytes (R368). -/
def State.remoteHits (s : State) (w : Nat) (v : Wave) (l : List Note) : List Instr :=
  l.filterMap (fun n =>
    match n.tgt, s.physScratch n.tgt with
    | .scratch k _ true, some (core, _) =>
      if core = s.coreOf v || !s.dbgEn core || v.dbg.isSome then none
      else match (List.range 4).find? (fun i => s.dwMatch core i 0 false n) with
        | none => none
        | some i =>
          (minBy (fun e => e.1) ((s.crew? k).map (·.members) |>.getD [])).map (fun m =>
            Instr.watchRemoteEntry m.2 i w n.lane n.addr n.kind)
    | _, _ => none)

/-- Distinct 32-byte sectors (R154). -/
def sectorsOf (l : List Note) : Nat := ((l.map (fun n => n.addr / 32)).eraseDups).length

/-- The record of a sample as its instruction issues (R372); the queue cycles and the total are free values, the stamps are set
when it is written. -/
def sampleRec (s : State) (c : Ctx) (l : List Note) : BitVec 512 :=
  let lane := lowLane (maskOf c.act)
  let w := (c.words.getD 0 0).toNat
  BitVec.ofNat 512 (packFields
    [(c.v.launch.toNat, 0, 32), (c.v.block.toNat, 32, 32), (c.v.threadOf lane, 64, 16), (c.pc.toNat, 80, 48)
     , (c.act.length, 128, 7), (w / 2 ^ 31, 135, 1), (bits w 27 21, 136, 7), (sectorsOf l, 144, 8)
     , ((Config.freeWord s.free).toNat, 152, 8), ((Config.freeWord (s.free + 1)).toNat, 160, 64)
     , ((Config.freeWord (s.free + 2)).toNat, 224, 16)
     , (c.v.threadOf (lowLane (maskOf c.act)), 240, 16), ((Config.freeWord (s.free + 3)).toNat, 256, 32)
     , (s.coreOf c.v, 352, 11)])

/-- The sampler counts a memory instruction; every PERIOD-th is sampled (R372, R373). -/
def State.sample (s : State) (c : Ctx) (l : List Note) : State :=
  let core := s.coreOf c.v
  let ctl := (s.dreg core 0x28).toNat
  let period := bits ctl 16 1 + 1
  let tenant := ((s.proc? c.v.proc).map (·.tenant.toNat)).getD 0
  if !bitOf ctl 0 || (bitOf ctl 33 && bits ctl 32 17 != tenant) then s
  else
    let left := (s.core core).sampLeft
    if left ≤ 1 then
      ({ (s.modCore core (fun k => { k with sampLeft := period })) with free := s.free + 4 }).send
        [.sampleRecordWrite core (sampleRec s c l)]
    else s.modCore core (fun k => { k with sampLeft := left - 1 })

end Sys2Proof.Machine
end

