-- ==== Sys2Proof/Machine/Perform.lean ====
section
/-!
DEFINITION. Sys2Proof/Machine/Perform.lean: performing checked accesses: loads, stores and atomics at their targets, with the
refusals and completion faults of each (spec/07_memory_instructions.md R154-R166, spec/21_fault_architecture.md R489,
spec/23_memory_lock_plane_and_engine_faults.md R434-R440, spec/24_kernel_scheduler_host_and_ras_faults.md R457, R473).
-/

namespace Sys2Proof.Machine

/-- The address of a lane access: whether bits [63:48] of the base are set, and the address (R150). -/
def laneAddr (c : Ctx) (f : LR) (l : Nat) : Bool × Nat :=
  if f.a.toNat = 0x38 then (false, (BitVec.ofInt 48 (xOff f.x)).toNat)
  else
    let p := (readPair c f.ow l f.a.toNat).toNat
    (decide (p ≥ 2 ^ 48), (BitVec.ofInt 48 ((p : Int) + xOff f.x)).toNat)

/-- The address of a uniform access (R151). -/
def uniAddr (c : Ctx) (f : GR) : Bool × Nat :=
  let a := (readA c f).toNat
  (decide (a ≥ 2 ^ 48), (BitVec.ofInt 48 ((a : Int) + xOff f.x)).toNat)

/-- Bytes of an access size (R152). -/
def sizeBytes (sz : Nat) : Nat := 2 ^ sz

/-- A value as a load leaves it in its group: narrow loads are zero- or sign-extended to 32 bits (R152). -/
def fill (sz : Nat) (sx : Bool) (w : Nat) (v : Nat) : Nat :=
  if sx && sz ≤ 1 then (sext64 v (8 * sizeBytes sz)).toNat % 2 ^ w else v

/-- The warning of a read of an unwritten word under VALIDTRAP = 0 (R435). -/
def State.warn (s : State) (c : Ctx) (lane addr : Nat) : State :=
  match s.crew? c.v.crew with
  | none => s
  | some k =>
    if k.warnFlight then s.modCrew c.v.crew (fun k => { k with warnCount := min 65535 (k.warnCount + 1) })
    else
      let fly := (s.faultPort? c.v.proc).isSome
      let s1 := s.modCrew c.v.crew (fun k => { k with warnFlight := fly, warnCount := 0 })
      s1.sendRecord (s.dieOf c.v) c.v.proc
        { s.waveRec c.v lane cUNWRITTEN 1 1 0 with
          pc := c.pc.toNat, val := addr, lanes := (maskOf [lane]).toNat, word := (c.words.getD 0 0).toNat
          xword := (c.words.getD 1 0).toNat, detail := k.warnCount }

/-- Whether the reading crew traps on unwritten words (R69, R434). -/
def validTrap (s : State) (c : Ctx) : Bool := ((s.crew? c.v.crew).map (·.validtrap)).getD false

/-- Check a read of a crew's allocation: UNWRITTEN, poison, or the state after a warning. -/
def State.scratchRead (s : State) (c : Ctx) (lane : Nat) (k : Crew) (off n : Nat) (ignoreValid : Bool) : Except Trap Nat × State :=
  match (k.unwritten off n).head? with
  | some i =>
    if ignoreValid then (.ok (k.read off n), s)
    else if validTrap s c then
      (.error { cause := cUNWRITTEN, sub := 0, tval := BitVec.ofNat 64 (scratchBase + 4 * i) }, s)
    else (.ok (k.read off n), s.warn c lane (scratchBase + 4 * i))
  | none => (.ok (k.read off n), s)

/-- A scratchpad word of the range is poisoned. -/
def Crew.poisoned (k : Crew) (off n : Nat) : Bool := k.spoison.any (fun i => 4 * i < off + n && off < 4 * i + 4)

/-- What became of a store: performed, a completion fault, or a refusal that travels to the wave (R489). -/
inductive Done where
  | ok
  | late (t : Trap)
  | refused (t : Trap)
  deriving Repr

/-- The writer index of a store (R235). -/
def writerIdx (c : Ctx) (lane : Nat) (far : Bool) : Nat := if far then 0xFFFE else c.v.threadOf lane

/-- Whether another wave holds the lock of a byte's line. -/
def State.lockedByOther (s : State) (w k : Nat) : Bool :=
  match s.lockOf k with
  | some l => l.holder != some w
  | none => false

/-- Bytes at a key as a point reads them: the L1, the die, or the home. -/
def State.pointRead (s : State) (rd : State → Nat → Byte × State) (k n : Nat) : Nat × State :=
  let r := (List.range n).foldl (fun acc i => let (b, s') := rd acc.2 (k + i); (acc.1 ++ [b], s')) (([] : List Byte), s)
  (ofBytes r.1, r.2)

def State.pointWrite (s : State) (wr : State → Nat → Byte → State) (k : Nat) (bs : List Byte) : State :=
  (bs.foldl (fun (acc : Nat × State) b => (acc.1 + 1, wr acc.2 acc.1 b)) (k, s)).2

/-- A write of a wave that did not hold the line's lock arrives at the home: held while another wave holds it (R241); its own core keeps no
older copy of the line (R155). -/
def State.writeArrives (s : State) (w key : Nat) (bytes : List Byte) : State :=
  match s.lockOf key with
  | some l =>
    if l.holder = some w then
      s.modLock (lineOf key) (fun l => { l with copy := ((bytes.zip (List.range bytes.length)).foldl (fun t b => Tab.set t (key + b.2) b.1) l.copy) })
    else s.modLock (lineOf key) (fun l => { l with writes := l.writes ++ [{ wave := w, key := key, bytes := bytes }] })
  | none =>
    let s1 := match s.wave? w with
      | some v => s.flushL1 (s.coreOf v) (fun k => lineOf k == lineOf key) true
      | none => s
    (s1.futClear key bytes.length).pointWrite (fun s k b => s.homeWrite k b) key bytes

/-- A wave's writes on their way to selected lines arrive, in their order, before a later access of it (R155, R201). -/
def State.landWrites (s : State) (w : Nat) (sel : Nat → Bool) : State :=
  let mine := fun (m : Instr) => match m with | .nonholderWriteAtHome x k _ => x == w && sel (lineOf k) | _ => false
  if !(s.inflight.any mine) then s
  else (s.inflight.filter mine).foldl (fun s m => match m with
    | .nonholderWriteAtHome _ k bs => s.writeArrives w k bs
    | _ => s) { s with inflight := s.inflight.filter (fun m => !mine m) }

/-- An operation of a wave on a future is still on its way to the home, and an access touches the future: the access does not issue yet (R155). -/
def State.futFlying (s : State) (w n : Nat) (ts : List Target) : Bool :=
  s.inflight.any (fun m => match m with
    | .futureOpAtHome x _ _ _ key _ _ _ _ _ _ =>
      x == w && ts.any (fun t => match t with | .glob p => p.key < key + 16 && key < p.key + n | _ => false)
    | _ => false)

/-- A wave's earlier writes to locked lines are performed (R203, R241). -/
def State.writesDone (s : State) (w : Nat) : Bool :=
  !(s.locks.any (fun e => e.2.writes.any (fun x => x.wave == w)))
  && !(s.inflight.any (fun m => match m with | .nonholderWriteAtHome x _ _ => x == w | _ => false))

/-- Read n bytes at a target (R154, R434, R473). -/
def State.loadT (s0 : State) (c : Ctx) (lane addr n : Nat) (t : Target) : Except Trap Nat × State :=
  let s := match t with | .glob p => s0.landWrites c.w (· == lineOf p.key) | _ => s0
  match t with
  | .priv l off => (.ok (c.v.privRead l off n), s)
  | .scratch k off _ =>
    (match s.crew? k with
     | none => (.ok 0, s)
     | some cr =>
       if cr.poisoned off n then (.error { cause := cPOISON, sub := 2, tval := BitVec.ofNat 64 addr }, s)
       else s.scratchRead c lane cr off n false)
  | .glob p =>
    if s.poisoned p.key n then
      (.error { cause := cPOISON, sub := s.poisonSub (s.coreOf c.v) p.key, tval := BitVec.ofNat 64 addr }
        , { s with free := s.free + 1 })
    else let (v, s') := s.gReadN (s.coreOf c.v) c.w p n; (.ok v, s')

/-- Store n bytes at a target (R154, R235, R437, R457). -/
def State.storeT (s0 : State) (c : Ctx) (lane addr n v : Nat) (bad : Bool) (t : Target) : Done × State :=
  let s := match t with | .glob p => s0.landWrites c.w (· == lineOf p.key) | _ => s0
  match t with
  | .priv l off => (.ok, s.modWave c.w (fun x => x.privWrite l off (bytesOf v n)))
  | .scratch k off far =>
    (match s.scratchStore k off n v (writerIdx c lane far) bad with
     | (s', true) => (.ok, s')
     | (s', false) => (.late { cause := cCOLLIDE, sub := 0, tval := BitVec.ofNat 64 (addr / 4 * 4) }, s'))
  | .glob p =>
    match s.writeRefusal p.key n with
    | some cause => (.refused { cause := cause, sub := 0, tval := BitVec.ofNat 64 addr }, s)
    | none =>
      if s.lockedByOther c.w p.key then
        (.ok, s.send [.nonholderWriteAtHome c.w p.key (bytesOf v n)])
      else (.ok, (s.futClear p.key n).gWriteN (s.coreOf c.v) c.w p (bytesOf v n))

/-! ## Atomics (R159-R166) -/

/-- The new value of an atomic of n bytes (R159). -/
def atomNew (op n m b cmp : Nat) : Nat :=
  let w := 8 * n
  match op with
  | 0 => (m + b) % 2 ^ w
  | 1 => if sextN m w ≤ sextN b w then m else b
  | 2 => if m ≤ b then m else b
  | 3 => if sextN m w ≤ sextN b w then b else m
  | 4 => if m ≤ b then b else m
  | 5 => m &&& b
  | 6 => m ||| b
  | 7 => m ^^^ b
  | 8 => b
  | 9 => (Fmt.f32.addOp m b).1
  | _ => if m = cmp then b else m

/-- Whether the completer of a PCI Express mapping has the AtomicOp (R166). -/
def completerHas (p : Phys) (op n : Nat) : Bool :=
  (op == 0 && (n == 4 || n == 8) || op == 8 && (n == 4 || n == 8) || op == 10 && (n == 4 || n == 8 || n == 16))
    && Config.completerAtomic (bits p.key 47 47) op n

/-- A read-modify-write of n bytes at the point of its scope (R163): the old value. -/
def State.rmw (s : State) (core w scope : Nat) (p : Phys) (n op b cmp : Nat) : Nat × State :=
  let d := coreDie core
  let sector := fun k => decide (k / 32 = p.key / 32)
  if ((s.lockOf p.key).bind (·.holder)) = some w ∧ (s.lockOf p.key).isSome then
    let (m, s1) := s.pointRead (fun s k => s.gRead core w p k) p.key n
    (m, s1.pointWrite (fun s k x => s.gWrite core w p k x) p.key (bytesOf (atomNew op n m b cmp) n))
  else if p.ca = 0 ∧ scope < scDie then
    let (m, s1) := s.pointRead (fun s k => s.l1Read core k) p.key n
    (m, s1.pointWrite (fun s k x => s.l1Write core w k x) p.key (bytesOf (atomNew op n m b cmp) n))
  else if (p.ca = 0 ∧ scope = scDie ∧ keyDie p.key ≠ d) ∨ p.ca = 1 then
    let s0 := s.flushL1 core sector true
    let (m, s1) := s0.pointRead (fun s k => s.dieRead d k) p.key n
    (m, s1.pointWrite (fun s k x => s.dieWrite d k x) p.key (bytesOf (atomNew op n m b cmp) n))
  else
    let s0 := s.flushL1 core sector true
    let (m, s1) := s0.pointRead (fun s k => s.homeRead k) p.key n
    (m, s1.pointWrite (fun s k x => s.homeWrite k x) p.key (bytesOf (atomNew op n m b cmp) n))

/-- The outcome of one atomic: the old value, that it waits at a locked line's home, a completion fault or a refusal. -/
inductive AtomOut where
  | old (m : Nat)
  | waits
  | late (t : Trap)
  | refused (t : Trap)
  deriving Repr

/-- Perform one atomic at a target (R160-R166, R241, R434, R437, R438, R457, R473). `ret` are the locations that the old value
goes to; none for a form that returns nothing. -/
def State.atomT (s0 : State) (c : Ctx) (lane addr n op b cmp scope : Nat) (ret : Option (List Loc)) (t : Target) : AtomOut × State :=
  let s := match t with | .glob p => s0.landWrites c.w (· == lineOf p.key) | _ => s0
  let bad := fun (tr : Trap) => if ret.isSome then AtomOut.late tr else AtomOut.refused tr
  match t with
  | .priv l off =>
    let m := ((s.wave? c.w).getD c.v).privRead l off n
    (.old m, s.modWave c.w (fun x => x.privWrite l off (bytesOf (atomNew op n m b cmp) n)))
  | .scratch k off far =>
    (match s.crew? k with
     | none => (.old 0, s)
     | some cr =>
       if cr.poisoned off n then (.late { cause := cPOISON, sub := 2, tval := BitVec.ofNat 64 addr }, s)
       else match s.scratchRead c lane cr off n false with
         | (.error tr, s1) => (.late tr, s1)
         | (.ok m, s1) => (.old m, (s1.scratchStore k off n (atomNew op n m b cmp) (writerIdx c lane far)).1))
  | .glob p =>
    if s.lockedByOther c.w p.key then
      (.waits, s.modLock (lineOf p.key) (fun l => { l with writes := l.writes ++
        [{ wave := c.w, key := p.key, atom := some { op := op, size := n, b := b, cmp := cmp }, seq := c.v.issues
           ret := ret.getD [], run := c.run.first, site := c.site, lane := lane, addr := addr, quiet := ret.isNone }] }))
    else if s.poisoned p.key n then
      (bad { cause := cPOISON, sub := s.poisonSub (s.coreOf c.v) p.key, tval := BitVec.ofNat 64 addr }, { s with free := s.free + 1 })
    else if p.ca = 2 ∧ completerHas p op n = false then
      (bad { cause := cNOATOMIC, sub := 0, tval := BitVec.ofNat 64 addr }, s)
    else match s.writeRefusal p.key n with
      | some cause => (bad { cause := cause, sub := 0, tval := BitVec.ofNat 64 addr }, s)
      | none =>
        let (m, s1) := (s.futClear p.key n).rmw (s.coreOf c.v) c.w scope p n op b cmp
        (.old m, s1)

/-- The writes of a wave that wait at locked lines are what a later release waits for (R203, R241). -/
def State.tagWrites (s : State) (w rel : Nat) : State :=
  { s with locks := s.locks.map (fun (e : Nat × Lock) =>
      (e.1, { e.2 with writes := e.2.writes.map (fun x => if x.wave == w then { x with rels := x.rels ++ [rel] } else x) })) }
def State.tagged (s : State) (w rel : Nat) : Bool := s.locks.any (fun e => e.2.writes.any (fun x => x.wave == w && x.rels.contains rel))

/-- The release of a future's write waits for the writes that were issued before it, under this number (R174, R203). -/
def futRel (seq : Nat) : Nat := 2 ^ 65 + seq

/-- A wave has no write that is still to be acknowledged (R203 step 3). -/
def State.acked (s : State) (w : Nat) : Bool :=
  match s.wave? w with
  | some v => v.dead || v.ackcnt == 0
  | none => true

/-! ## Acknowledged writes and refusals -/

/-- Writes to host memory under a non-coherent mapping and to pages pinned at another package's home, and no-return atomics to another package: one counted write a sector
(R215). -/
def counted (nrAtomic : Bool) (l : List (Nat × Nat × Target)) : List Phys :=
  l.foldl (fun acc e => match e.2.2 with
    | .glob p =>
      if (p.bare || (p.ca == 3 && nrAtomic)) && (nrAtomic || !(acc.any (fun q => q.key / 32 == p.key / 32))) then acc ++ [p] else acc
    | _ => acc) []

/-- Count them against the wave (R215, R167). -/
def State.countWrites (s : State) (c : Ctx) (ps : List Phys) (atomic : Bool) : State :=
  ps.foldl (fun s p =>
    let s1 := s.addAck c.w (p.key / 2 ^ 52) (s.dieOf c.v) p.key atomic
    if p.ca = 2 then s1.modWave c.w (fun v => { v with posted := insertSet v.posted (bits p.key 47 47) }) else s1) s

/-- The refusal messages of an instruction, one a cause (R489). -/
def refusalMsgs (c : Ctx) (l : List (Nat × Trap)) : List Instr :=
  ((l.map (·.2.cause)).eraseDups).filterMap (fun cause =>
    let same := l.filter (fun e => e.2.cause == cause)
    same.head?.map (fun e =>
      Instr.writeRefusalArrival c.w c.run.first
        { order := c.v.issues, cause := cause, sub := e.2.sub, tval := e.2.tval, lanes := maskOf (same.map (·.1))
          pc := c.pc, word := c.words.getD 0 0, x1 := c.words.getD 1 0, x2 := c.words.getD 2 0 }))

/-- A memory instruction's watchpoint hits, remote hits and sample (R367, R368, R372). -/
def State.noted (s : State) (c : Ctx) (l : List Note) : State × List (Nat × W64 × Nat) :=
  ((s.sample c l).send (s.remoteHits c.w c.v l), s.localHits c.v l)

end Sys2Proof.Machine
end

