-- ==== Sys2Proof/Machine/Objects.lean ====
section
/-!
DEFINITION. Sys2Proof/Machine/Objects.lean: kernel objects: entries, generations, references, handle slots, the checks of a slot;
waking blocked waves; destroying objects (spec/14_muhan_hardware_kernel.md R286-R305,
spec/22_execution_and_instruction_faults.md R426, R427, spec/24_kernel_scheduler_host_and_ras_faults.md R453, R454).
-/

namespace Sys2Proof.Machine

/-! ## Entries and handles -/

/-- Rights bits (R15). -/
def rtINFO : Nat := 0
def rtWAIT : Nat := 1
def rtSEND : Nat := 2
def rtRECV : Nat := 3
def rtSIGNAL : Nat := 4
def rtCTRL : Nat := 5
def rtDUP : Nat := 6
def rtXFER : Nat := 7
/-- INFO, WAIT, SIGNAL, CTRL, DUP and XFER (R296). -/
def rightsNew : BitVec 8 := 0xF3#8
/-- INFO, SEND, DUP and XFER (R324, R333). -/
def rightsSend : BitVec 8 := 0xC5#8

/-- The handle of a live entry. -/
def State.handleOf (s : State) (id : Nat) : W64 := mkHandle (s.nodeId (objDie id)) id (s.obj id).kind (s.obj id).gen

/-- A handle whose generation differs from its entry's is stale (R289). -/
def State.stale (s : State) (h : W64) : Bool := (s.obj (hId h)).kind != hKind h || (s.obj (hId h)).gen != hGen h

/-- A handle that names another package (R288). -/
def State.foreign (s : State) (h : W64) : Bool := hNode h != s.nodeId 0

/-- Entries of 64 bytes for which a die's cave has room: CAVESIZE is in units of 2 MiB (R286, R347). -/
def State.caveRoom (s : State) (die : Nat) : Nat := min (2 ^ 24) (s.reg die 0x48 * 2 ^ 15)

/-- The lowest free entry of a die's table (R286, log 14); none when all are in use or retired, or the cave has no room (R454). -/
def State.freeEntry (s : State) (die : Nat) : Option Nat :=
  (lowest 0 (fun n => n < s.caveRoom die && (s.obj (objId die n)).kind == 0 && !((s.die die).retired.contains n)) (s.objs.length + 1)).map (objId die)

/-- Make an entry (R290). -/
def State.makeObj (s : State) (id kind proc : Nat) : State :=
  let tenant := ((s.proc? proc).map (·.tenant.toNat)).getD 0
  s.modObj id (fun o => { o with kind := kind, refs := 0, tenant := tenant, owner := objIx proc, dying := false })

/-- Free an entry: its generation rises, or it is retired (R289). -/
def State.freeObj (s : State) (id : Nat) : State :=
  let g := (s.obj id).gen
  let s1 := s.modObj id (fun o => { o with kind := 0, gen := if g = 0xFFF then g else g + 1, refs := 0, dying := false })
  if g = 0xFFF then s1.modDie (objDie id) (fun d => { d with retired := insertSet d.retired (objIx id) }) else s1

/-- The lowest empty slot of a process's handle table (R15, R296). -/
def State.emptySlot (s : State) (p : Nat) : Option Nat :=
  let t := ((s.proc? p).map (·.handles)).getD []
  lowest 1 (fun n => (Tab.get? t n).isNone) 4095

/-- The slots of a process that are empty, up to a count. -/
def State.emptySlots (s : State) (p n : Nat) : List Nat :=
  let t := ((s.proc? p).map (·.handles)).getD []
  ((List.range 4096).filter (fun k => k != 0 && (Tab.get? t k).isNone)).take n

def State.slot? (s : State) (p n : Nat) : Option Handle := ((s.proc? p).bind (fun x => Tab.get? x.handles n))

/-- Put a handle into a slot; the object gains a reference (R290). -/
def State.putSlot (s : State) (p n : Nat) (h : W64) (r : BitVec 8) : State :=
  (s.modProc p (fun x => { x with handles := Tab.set x.handles n { handle := h, rights := r } })).modObj (hId h)
    (fun o => if !(s.foreign h) && !(s.stale h) then { o with refs := o.refs + 1 } else o)

/-- The checks of a handle slot in their order (R426): the status of the first failure. Node 0xFFFF names no package, so a handle that
carries it names no object (log 85). -/
def State.checkSlot (s : State) (p n : Nat) (kinds : List Nat) (right : Nat) (allowForeign : Bool := false) : Except Nat W64 :=
  if n = 0 then .error stEMPTY
  else match s.slot? p n with
    | none => .error stEMPTY
    | some h =>
      if !kinds.contains (hKind h.handle) then .error stBADDESC
      else if s.foreign h.handle && (!allowForeign || hNode h.handle == 0xFFFF) then .error stBADDESC
      else if !h.rights.getLsbD right then .error stNORIGHT
      else if !(s.foreign h.handle) && s.stale h.handle then .error stSTALE
      else .ok h.handle

/-! ## Pending results of a wave -/

def Run.modRes (r : Run) (seq : Nat) (f : Res → Res) : Run :=
  { r with pending := r.pending.map (fun x => if x.seq = seq && x.left.isNone then f x else x) }

/-- Change a pending variable result, wherever its run stands: open, frozen by a trap, or frozen by debug. -/
def Wave.modRes (v : Wave) (seq : Nat) (f : Res → Res) : Wave :=
  { v with
    run := v.run.map (fun r => r.modRes seq f)
    frozen := v.frozen.map (fun r => r.modRes seq f)
    resume := v.resume.map (fun r => r.modRes seq f)
    dbg := v.dbg.map (fun d => { d with frozen := d.frozen.map (fun r => r.modRes seq f) }) }

/-- The run that holds a pending result. -/
def Wave.hasRes (v : Wave) (seq : Nat) : Bool :=
  let has := fun (r : Option Run) => match r with
    | some r => r.pending.any (fun x => x.seq == seq && x.left.isNone)
    | none => false
  has v.run || has v.frozen || has v.resume || (match v.dbg with | some d => has d.frozen | none => false)

/-- The value of a pending result is known. -/
def State.fill (s : State) (w seq : Nat) (ws : List Write) : State :=
  s.modWave w (fun v => v.modRes seq (fun r => { r with ready := true, writes := r.writes ++ ws }))

/-- One register result of a uniform instruction. -/
def sOut (d v : Nat) : List Write := [{ loc := .s d, val := BitVec.ofNat 64 v }]

/-- Note a completion fault for the run that holds an issue (R392). -/
def Wave.addLate (v : Wave) (seq : Nat) (lf : LateFault) : Wave :=
  let add := fun (r : Run) => if r.pending.any (fun x => x.seq == seq && x.left.isNone) then { r with late := r.late ++ [lf] } else r
  { v with
    run := v.run.map add, frozen := v.frozen.map add, resume := v.resume.map add
    dbg := v.dbg.map (fun d => { d with frozen := d.frozen.map add }) }

/-! ## Runnable crews and wakes (R42, R298, R300) -/

def State.membersOf (s : State) (c : Nat) : List (Nat × Wave) := s.waves.filter (fun e => e.2.crew == c && !e.2.dead)

/-- Append a crew to the run queue (R298). -/
def State.enqueue (s : State) (c : Nat) : State :=
  if s.runq.contains c then s
  else
    match s.crew? c with
    | none => s
    | some k => { (s.modCrew c (fun x => { x with runnableAt := s.tickOf (coreDie k.core), starved := 0 })) with runq := s.runq ++ [c] }

/-- A non-resident crew with an active member is runnable once its context transfer is over (R300). -/
def State.makeRunnable (s : State) (c : Nat) : State :=
  match s.crew? c with
  | none => s
  | some k =>
    if (k.place == .shadow || k.place == .cave || k.place == .queued) && (s.membersOf c).any (fun e => e.2.active) then s.enqueue c else s

/-- A Muhan wait is satisfied: the result is known and the wave continues or becomes runnable (R300). -/
def State.wake (s : State) (w seq : Nat) (ws : List Write) : State :=
  let s1 := (s.fill w seq ws).modWave w (fun v => { v with wait := none })
  match s1.wave? w with
  | none => s1
  | some v => s1.makeRunnable v.crew

/-- A wave begins a Muhan wait. -/
def State.block (s : State) (w : Nat) (x : Wait) : State :=
  s.modWave w (fun v => { v with wait := some x, blockedAt := s.cycles })

/-! ## Wait sets (R303-R305) -/

def State.memberReady (s : State) (m : Member) : Bool :=
  match m with
  | .fut k => s.futFull k && (Tab.get? s.futures k).isSome
  | .obj id kind =>
    if kind = kPORT then ((Tab.get? s.ports id).map (fun p => !p.queue.isEmpty)).getD false
    else if kind = kWAVE then ((s.wave? id).map (·.dead)).getD false
    else ((Tab.get? s.timers id).map (fun t => decide (t.count > 0))).getD false

/-- The first ready key at or after the pointer, modulo 64 (R304). -/
def State.wsPick (s : State) (x : WaitSet) : Option Nat :=
  ((List.range 64).map (fun i => (x.ptr + i) % 64)).find? (fun k =>
    match Tab.get? x.members k with
    | some m => s.memberReady m
    | none => false)

/-- One selection (R304): the key, and the state with the pointer moved and a timer's count decremented. -/
def State.wsSelect (s : State) (id : Nat) : Option (Nat × State) :=
  match Tab.get? s.wsets id with
  | none => none
  | some x => match s.wsPick x with
    | none => none
    | some k =>
      let s1 := { s with wsets := Tab.set s.wsets id { x with ptr := (k + 1) % 64 } }
      let s2 := match Tab.get? x.members k with
        | some (.obj t kind) =>
          if kind = kTIMER then { s1 with timers := Tab.mod s1.timers t (fun y => { y with count := y.count - 1 }) } else s1
        | _ => s1
      some (k, s2)

/-- The head waiter of a set makes a selection and is woken (R305). -/
def State.wsServe (s : State) (id : Nat) : State :=
  match Tab.get? s.wsets id with
  | none => s
  | some x => match x.waiters with
    | [] => s
    | w :: rest =>
      match s.wsSelect id with
      | none => s
      | some (k, s1) =>
        let s2 := { s1 with wsets := Tab.mod s1.wsets id (fun y => { y with waiters := rest }) }
        match (s2.wave? w).bind (·.wait) with
        | some (.waitSet _ _ seq d _) => s2.wake w seq (sOut d (stOK + k * 2 ^ 8))
        | _ => s2

/-- A member has become ready: every set that holds it serves its head waiter (R305). -/
def State.wsReady (s : State) (m : Member) : State :=
  (s.wsets.filter (fun e => e.2.members.any (fun x => x.2 == m))).foldl (fun s e => s.wsServe e.1) s

/-! ## Shootdowns (R198) -/

/-- The keys that a range of an address space maps to through a core's translations. -/
def shotKey (tlbs : List TlbEntry) (asn base pages k : Nat) : Bool :=
  tlbs.any (fun t => t.asn == asn && t.base < base + pages * 4096 && base < t.base + t.size
    && (let k0 := (physOf t.leaf t.base t.base).key; k0 ≤ k && k < k0 + t.size))

/-- An entry of an address space that overlaps a range is removed. -/
def shotOff (asn base pages : Nat) (l : List TlbEntry) : List TlbEntry :=
  l.filter (fun t => !(t.asn == asn && t.base < base + pages * 4096 && base < t.base + t.size))

/-- Remove the entries of a range from a core, with write-back and invalidation of its frames where asked (R198). -/
def State.shootCore (s : State) (c asn base pages : Nat) (wb : Bool) : State :=
  let old := (s.core c).maps
  let s1 := if wb then s.flushL1 c (shotKey old asn base pages) true else s
  s1.modCore c (fun x => { x with
    tlb := shotOff asn base pages x.tlb
    maps := if wb then shotOff asn base pages x.maps else x.maps })

/-- Remove the entries of a range from a die's cluster TLBs, its last-level TLB and its walk cache (R198). -/
def State.shootTlbs (s : State) (d asn base pages : Nat) : State :=
  s.modDie d (fun x => { x with
    clTlb := x.clTlb.map (fun e => (e.1, shotOff asn base pages e.2))
    llTlb := shotOff asn base pages x.llTlb
    walkc := x.walkc.filter (fun t =>
      let sz := 2 ^ levelShift t.level
      !(t.asn == asn && t.top * sz < base + pages * 4096 && base < t.top * sz + sz)) })

def State.shootDie (s : State) (d asn base pages : Nat) (wb : Bool) : State :=
  ((Tab.keys s.cores).filter (fun c => coreDie c == d)).foldl (fun s c => s.shootCore c asn base pages wb) (s.shootTlbs d asn base pages)

/-- A package-scope shootdown that an instruction performs before it returns (R316, R322): what was translated before it is performed (R198
step 2). -/
def State.shootPkg (s : State) (asn base pages : Nat) (wb : Bool) : State :=
  let tlbs := s.cores.flatMap (fun k => k.2.maps)
  let on := fun (m : Instr) => match m with | .nonholderWriteAtHome _ k _ => shotKey tlbs asn base pages k | _ => false
  let s1 := (s.inflight.filter on).foldl (fun s m => match m with
    | .nonholderWriteAtHome w k bs => s.writeArrives w k bs
    | _ => s) { s with inflight := s.inflight.filter (fun m => !on m) }
  (List.range 8).foldl (fun s d => s.shootDie d asn base pages wb) s1

/-- Set GS of the leaf of a page (R193). -/
def State.setGS (s : State) (root a gs : Nat) : State :=
  match s.walk root a with
  | .leaf e key _ => s.homeWriteN key 8 ((e &&& ~~~(0xC0#64)).toNat + gs * 64)
  | .bad _ => s

/-! ## References and destruction (R290, R293, R311) -/

/-- The sending process of a message still exists. -/
def State.senderOf (s : State) (m : PortMsg) : Option Proc := if (s.obj m.proc).gen = m.pgen then s.proc? m.proc else none

/-- Discard a port's queued messages (R311): granted pages revert to the sender, or pass to the operating service. The page tables and frames
of another package's sender are not this package's. -/
def State.discardMsg (s : State) (portDie : Nat) (m : PortMsg) : State :=
  if m.node != s.nodeId portDie then s
  else m.grants.foldl (fun s g =>
    match s.senderOf m with
    | some p =>
      let s1 := s.shootPkg p.asn.toNat (g.first * 4096) g.leaves.length false
      (List.range g.leaves.length).foldl (fun s i => s.setGS p.ptroot.toNat ((g.first + i) * 4096) 0) s1
    | none =>
      s.modDie portDie (fun d => { d with orphans := d.orphans ++ g.leaves.map (fun l => pteFrame l * 4096) })) s

/-- Destroy an object whose last reference is gone and whose kind's condition holds (R293); `fuel` bounds the nesting of carried
handles. -/
def State.reap (s : State) (id : Nat) : Nat → State
  | 0 => s
  | fuel + 1 =>
    let o := s.obj id
    if o.refs != 0 || o.kind = 0 then s
    else if o.kind = kWAVE then
      (if ((s.wave? id).map (·.dead)).getD true then { (s.freeObj id) with waves := Tab.del s.waves id } else s)
    else if o.kind = kCREW then (if (s.crew? id).isNone then s.freeObj id else s)
    else if o.kind = kTIMER then { (s.freeObj id) with timers := Tab.del s.timers id }
    else if o.kind = kWS then
      (match Tab.get? s.wsets id with
       | none => s.freeObj id
       | some x =>
         if !x.waiters.isEmpty then s
         else
           let s1 := { (s.freeObj id) with wsets := Tab.del s.wsets id }
           x.members.foldl (fun s m => match m.2 with
             | .obj k _ => (s.modObj k (fun o => { o with refs := o.refs - 1 })).reap k fuel
             | .fut _ => s) s1)
    else if o.kind = kPORT then
      (match Tab.get? s.ports id with
       | none => s.freeObj id
       | some p =>
         let s1 := { (s.freeObj id) with ports := Tab.del s.ports id, names := s.names.filter (fun n => n.port != id), farNames := s.farNames.filter (fun n => n.port != id), nameCache := s.nameCache.filter (fun n => n.2.port != id) }
         let s2 := p.waiters.foldl (fun s w =>
           match (s.wave? w).bind (·.wait) with
           | some (.port _ _ seq d _) => s.wake w seq (sOut d stREVOKED)
           | _ => s) s1
         p.queue.foldl (fun s e =>
           let s' := s.discardMsg (objDie id) e.1
           e.1.handles.foldl (fun s h =>
             if !(s.foreign h.1) && hGen h.1 = (s.obj (hId h.1)).gen then
               (s.modObj (hId h.1) (fun o => { o with refs := o.refs - 1 })).reap (hId h.1) fuel
             else s) s') s2)
    else s

/-- Drop one reference of an object (R290, R293). -/
def State.unref (s : State) (h : W64) : State :=
  if s.foreign h || s.stale h then s
  else (s.modObj (hId h) (fun o => { o with refs := o.refs - 1 })).reap (hId h) 64

/-- Empty a slot; waves of the process that wait through it end their wait with REVOKED (R301, R453). -/
def State.emptyOne (s : State) (p n self : Nat) : State :=
  match s.slot? p n with
  | none => s
  | some h =>
    let s1 := s.modProc p (fun x => { x with handles := Tab.del x.handles n })
    let s2 := s1.waves.foldl (fun s e =>
      if e.1 = self || e.2.proc != p then s
      else match e.2.wait with
        | some (.port id slot seq d _) =>
          if slot = n then (s.wake e.1 seq (sOut d stREVOKED)).modPort id (fun q => { q with waiters := q.waiters.filter (· != e.1) }) else s
        | some (.waitSet id slot seq d _) =>
          if slot = n then
            { (s.wake e.1 seq (sOut d stREVOKED)) with
              wsets := Tab.mod s.wsets id (fun q => { q with waiters := q.waiters.filter (· != e.1) }) } else s
        | some (.join _ slot seq d) => if slot = n then s.wake e.1 seq (sOut d stREVOKED) else s
        | _ => s) s1
    s2.unref h.handle

end Sys2Proof.Machine
end

