-- ==== Sys2Proof/Machine/Holds.lean ====
section
/-!
DEFINITION. Sys2Proof/Machine/Holds.lean: batches that are held after their run: storage claims and gangs, streams, tokens, barriers,
steps, masks and cross-lane instances, and the conditions that release them (spec/02_execution_model.md R35,
spec/05_lane_instructions.md R115, spec/06_uniform_and_control_instructions.md R139, spec/11_crews_step_planes_line_locks.md R231-R236,
spec/12_matrix_engine.md R245-R247, R261, spec/13_copy_engines_and_streams.md R277-R284).
-/

namespace Sys2Proof.Machine

/-! ## Operand storage (R245-R247) -/

/-- A crew that holds space on its core: resident, or on its way in (R39, R299). -/
def Place.onCore : Place → Bool
  | .resident => true
  | .swapping => true
  | .restoring => true
  | .arrived => true
  | _ => false

/-- Crews whose storage stands on a core (R245). -/
def State.residentCrews (s : State) (core : Nat) : List (Nat × Crew) := s.crews.filter (fun e => e.2.core == core && e.2.place.onCore)

/-- Storage of a core that formed gangs hold for crews that have left them (R261). -/
def State.keptOn (s : State) (core : Nat) (acc : Bool) : Nat :=
  s.gangs.foldl (fun n g => n + (g.2.kept.filter (fun (x : Nat × Nat × Bool) => x.1 == core && x.2.2 == acc)).length) 0

def State.freeSlots (s : State) (core : Nat) : Nat :=
  16 - ((s.residentCrews core).foldl (fun n e => n + e.2.slots.length) 0 + ((s.core core).freeing.filter (fun x => !x.2)).length
    + s.keptOn core false)
def State.freeAccs (s : State) (core : Nat) : Nat :=
  4 - ((s.residentCrews core).foldl (fun n e => n + e.2.accs.length) 0 + ((s.core core).freeing.filter (fun x => x.2)).length
    + s.keptOn core true)

/-- The lowest n free logical numbers below a bound. -/
def lowestFree (t : Tab Nat) (bound n : Nat) : List Nat := ((List.range bound).filter (fun k => (Tab.get? t k).isNone)).take n

/-- Grant storage to one crew under given logical numbers: newly granted, it reads as R245 gives. -/
def State.grantStore (s : State) (c : Nat) (ns na : List Nat) : State :=
  let s1 := ns.foldl (fun s k =>
    { (s.modCrew c (fun x => { x with slots := Tab.set x.slots k s.nextStore })) with
      opslots := Tab.set s.opslots s.nextStore {}, nextStore := s.nextStore + 1 }) s
  na.foldl (fun s k =>
    { (s.modCrew c (fun x => { x with accs := Tab.set x.accs k s.nextStore })) with
      accs := Tab.set s.accs s.nextStore {}, nextStore := s.nextStore + 1 }) s1

/-- A claim's result word (R246). -/
def claimWord (ns na : List Nat) (k : Crew) : Nat :=
  let bm := fun (l : List Nat) => l.foldl (fun n i => n + 2 ^ i) 0
  packFields [(stOK, 0, 8), (bm ns, 8, 16), (bm na, 24, 4), (bm (Tab.keys k.slots), 32, 16), (bm (Tab.keys k.accs), 48, 4)]

/-- Whether a claim's storage is free on every core of its holder (R246). -/
def State.claimFits (s : State) (c nslot nacc : Nat) : Bool :=
  (s.holderCrews c).all (fun k =>
    match s.crew? k with
    | some x => x.place == .resident && nslot ≤ s.freeSlots x.core && nacc ≤ s.freeAccs x.core
    | none => false)

/-- The cores on which a crew's holder holds storage (R245). -/
def State.holderCores (s : State) (c : Nat) : List Nat := (s.holderCrews c).filterMap (fun k => (s.crew? k).map (·.core))

/-- Whether an earlier waiting claim of a resident crew is for one of the holder's cores (R246). -/
def State.claimBlocked (s : State) (w : Nat) (lanes : W64) (c : Nat) : Bool :=
  (s.claims.takeWhile (fun e => !(e.1 == w && e.2 == lanes))).any (fun e =>
    match s.wave? e.1 with
    | some v => s.isResident v && (s.holderCores v.crew).any (fun k => (s.holderCores c).contains k)
    | none => false)

/-! ## Releasing one hold -/

def State.dropHeld (s : State) (w : Nat) (h : Held) : State := s.modWave w (fun v => { v with held := v.held.filter (· != h) })

/-- The tile at the head of a stream's pops, when it is filled (R281, R283). -/
def Stream.filled (q : Stream) : Option Nat :=
  if q.nt = 0 then none
  else if Tab.getD q.tiles q.popNext .free == .filled then some q.popNext else none

/-- Whether every masked token reads zero (R277). -/
def Wave.tokensZero (v : Wave) (mask : Nat) : Bool := (List.range 8).all (fun k => !mask.testBit k || (v.token k).count == 0)

/-- The acquire of the commands counted on masked tokens (R202, R277). -/
def State.acqTokens (s : State) (w : Nat) (v : Wave) (mask : Nat) : State :=
  (List.range 8).foldl (fun s k =>
    if mask.testBit k then
      (s.acqObj v (v.token k).scope { kind := 3, ident := k }).modWave w (fun x =>
        { x with tokens := Tab.set x.tokens k { x.token k with scope := 0 } })
    else s) s

/-- A number for a command, a group of marks, or a release that waits. -/
def State.takeNum (s : State) : Nat × State := (s.nextFence, { s with nextFence := s.nextFence + 1 })

/-- Release a hold whose own condition holds (R171, R231, R246, R261, R277, R283); none where it stays. Masks, cross-lane instances
and steps are released together with others, below. -/
def State.tryRelease (s : State) (w : Nat) (h : Held) : Option State :=
  match s.wave? w with
  | none => none
  | some v =>
    match h.on with
    | .barrier nb _ => if Tab.getD v.pend nb 0 = 0 && !(v.arriving.any (fun a => a.nb == nb)) then some (s.dropHeld w h) else none
    | .tokens m => if v.tokensZero m then some ((s.dropHeld w h).acqTokens w v m) else none
    | .addr off n want sc =>
      (match s.crew? v.crew with
       | none => none
       | some c => if c.read off n = want.toNat then
           some ((s.dropHeld w h).acqObj v sc { kind := 7, ident := scratchBase + off }) else none)
    | .pop q d =>
      (match (v.stream q).filled with
       | none => none
       | some t =>
         let s1 := (s.dropHeld w h).modWave w (fun v =>
           let st := (v.stream q);
           { (v.setSreg d (BitVec.ofNat 64 (scratchBase + st.base + t * st.tsize))) with
             streams := Tab.set v.streams q { st with tiles := Tab.set st.tiles t .popped, popNext := (t + 1) % st.nt } })
         some (match Tab.get? (v.stream q).fills t with
           | some (k, sc) => s1.acqObj v sc { kind := 3, ident := k }
           | none => s1))
    | .claim nslot nacc d =>
      if s.claimFits v.crew nslot nacc && !(s.claimBlocked w h.lanes v.crew) then
        (match s.crew? v.crew with
         | none => none
         | some k =>
           let ns := lowestFree k.slots 16 nslot
           let na := lowestFree k.accs 4 nacc
           let s1 := (s.holderCrews v.crew).foldl (fun s c => s.grantStore c ns na) s
           let word := ((s1.crew? v.crew).map (claimWord ns na)).getD 0
           some ({ ((s1.dropHeld w h).modWave w (fun v => v.setSreg d (BitVec.ofNat 64 word))) with
                   claims := s1.claims.filter (fun e => !(e.1 == w && e.2 == h.lanes)) }))
      else none
    | .gang d =>
      (match s.gangOf v.crew with
       | some (_, x) => if x.formed then some ((s.dropHeld w h).modWave w (fun v => v.setSreg d (BitVec.ofNat 64 stOK))) else none
       | none => none)
    | _ => none

/-- Test every hold of a wave once. -/
def State.recheck (s : State) (w : Nat) : State :=
  ((s.wave? w).map (·.held)).getD [] |>.foldl (fun s h => (s.tryRelease w h).getD s) s

/-- Test every wave of a crew. -/
def State.recheckCrew (s : State) (c : Nat) : State := (s.membersOf c).foldl (fun s e => s.recheck e.1) s

/-- Storage has become free: waiting claims may be granted (R246). -/
def State.claimsChanged (s : State) : State :=
  s.send ((s.claims.map (·.1)).eraseDups.map (fun w => .omClaimGrant w))

/-! ## Masks and cross-lane instances (R35, R115, R139) -/

/-- Withdraw lanes from cross-lane holds at a PC. -/
def Wave.dropCross (v : Wave) (pc : BitVec 48) (lanes : W64) : Wave :=
  let cut := v.held.map (fun h => if h.on == .crossLane && h.site.pc == pc then { h with lanes := h.lanes &&& ~~~lanes } else h)
  { v with held := cut.filter (fun h => !(h.on == .crossLane && h.lanes == 0#64)) }

/-- Complete an instance: its writes and flags commit and its batches are released (R115). -/
def Wave.completeInstance (v : Wave) (i : Instance) : Wave :=
  let arr := i.arrived.filter (fun a => v.live.getLsbD a.lane)
  let (ws, fl) := groupWrites i.op i.ety i.members v.width arr
  let v1 := ws.foldl (fun v w => v.put w.loc w.val) v
  let v2 := v1.orFlags (BitVec.ofNat 5 (flagBits [fl]).toNat)
  { (v2.dropCross i.pc (maskOf (i.arrived.map (·.lane)))) with instances := v.instances.filter (fun x => x.pc != i.pc) }

/-- Complete every instance whose members have all arrived or ended (R115). -/
def Wave.settleInstances (v : Wave) : Wave :=
  v.instances.foldl (fun v i => if i.complete v.live then v.completeInstance i else v) v

def Wave.settle (v : Wave) : Wave := v.settleInstances.settleMasks

/-! ## Named barriers (R231) -/

/-- An arrival (R231): none when EXPECTED differs (R442); else the state after it. -/
def State.arrive (s : State) (w cr nb e : Nat) : Option State :=
  match s.crew? cr with
  | none => none
  | some c =>
    let b := Tab.getD c.barriers nb {}
    if b.arrived > 0 && b.expected != e then none
    else
      let n := b.arrived + 1
      let s1 := s.modWave w (fun v => { v with pend := Tab.set v.pend nb 1 })
      if n = e then
        let s2 := s1.setCrew cr { c with barriers := Tab.set c.barriers nb { expected := e, arrived := 0, phase := (b.phase + 1) % 2 } }
        let set := insertSet b.arrset w
        let s3 : State := { s2 with waves := s2.waves.map (fun (x : Nat × Wave) => if set.contains x.1 then (x.1, { x.2 with pend := Tab.set x.2.pend nb 0 }) else x) }
        some (set.foldl State.recheck s3)
      else some (s1.setCrew cr { c with barriers := Tab.set c.barriers nb { b with expected := e, arrived := n, arrset := insertSet b.arrset w } })

/-- Arrivals of a wave whose earlier writes have been performed take place (R232). -/
def State.landArrivals (s : State) (w : Nat) : State :=
  match s.wave? w with
  | none => s
  | some v => v.arriving.foldl (fun s a =>
      if s.tagged w a.rel then s
      else
        let s1 := s.modWave w (fun v => { v with arriving := v.arriving.filter (· != a) })
        match s1.arrive w v.crew a.nb a.count with
        | some s2 => s2.recheck w
        | none => (s1.modWave w (fun v => { v with refusals := v.refusals ++ [a.late] })).recheck w) s

/-! ## Step regions (R234-R236) -/

/-- Every live fibre of a wave is held at a step on a region (R236). -/
def Wave.atStep (v : Wave) (r : Nat) : Bool :=
  v.live != 0#64 && (v.live &&& ~~~(v.held.foldl (fun m h => if h.on == .step r then m ||| h.lanes else m) 0#64)) == 0#64

/-- The commit: written words' next slots become present and valid (R236). -/
def Crew.commitRegion (c : Crew) (k : Nat) (r : Region) : Crew :=
  { c with
    scratch := r.next.foldl (fun t e => Tab.set t (r.off / 4 + e.1) e.2) c.scratch
    regions := Tab.set c.regions k { r with next := [], tags := [] } }

/-- Commit a region when a batch is held at its step and every member of its step group has arrived with its earlier writes performed; every
held batch is released, that of a wave that has dropped out of the group too (R236). -/
def State.stepTest (s : State) (cr k : Nat) : State :=
  match s.crew? cr with
  | none => s
  | some c => match Tab.get? c.regions k with
    | none => s
    | some r =>
      let at_ := (s.membersOf cr).filter (fun e => e.2.held.any (fun h => h.on == .step k))
      if !at_.isEmpty && r.group.all (fun w => ((s.wave? w).map (·.atStep k)).getD false && s.writesDone w) then
        let s1 := s.setCrew cr (c.commitRegion k r)
        let s2 := at_.foldl (fun s e => s.modWave e.1 (fun v => { v with held := v.held.filter (fun h => h.on != .step k) })) s1
        r.next.foldl (fun s e => s.wakeAddr cr (r.off + 4 * e.1) 4) s2
      else s

/-- A pending step is evaluated again after a drop, an end or a leave (R234). -/
def State.stepTests (s : State) (cr : Nat) : State := (List.range 4).foldl (fun s k => s.stepTest cr k) s

/-- A wave leaves every step group of its crew (R229, R234). -/
def State.leaveGroups (s : State) (w cr : Nat) : State :=
  (s.modCrew cr (fun c => { c with regions := c.regions.map (fun e => (e.1, { e.2 with group := e.2.group.filter (· != w) })) })).stepTests cr

/-- Lanes that have arrived at the pending instance of a PC (R115). -/
def Wave.arrivedAt (v : Wave) (pc : BitVec 48) : W64 :=
  match v.instances.find? (fun i => i.pc == pc) with
  | some i => maskOf (i.arrived.map (·.lane))
  | none => 0#64

/-- Lanes that an instruction holds: at a cross-lane instance, the members (R115). -/
def State.holdLanes (s : State) (w : Nat) (lanes : W64) (site : Site) (on : OnEnd) : W64 :=
  match on with
  | .crossLane => (match s.wave? w with
    | some v => lanes &&& v.arrivedAt site.pc
    | none => lanes)
  | _ => lanes

/-- A batch begins a hold, or is released at once. -/
def State.beginHold (s : State) (w : Nat) (batch : W64) (site : Site) (on : OnEnd) : State :=
  let lanes := s.holdLanes w batch site on
  if lanes = 0#64 then s
  else
    let h : Held := { lanes := lanes, site := site, on := on, mode := ((s.wave? w).map Wave.mode).getD 0 }
    let s1 := s.modWave w (fun v => { v with held := v.held ++ [h] })
    let s2 := (s1.tryRelease w h).getD s1
    match on with
    | .step r => (match s2.wave? w with | some v => s2.stepTest v.crew r | none => s2)
    | .claim _ _ _ => s2.claimsChanged
    | _ => s2

end Sys2Proof.Machine
end

