-- ==== Sys2Proof/Machine/Locks.lean ====
section
/-!
DEFINITION. Sys2Proof/Machine/Locks.lean: line locks: the table at the home, hand-off, deadlock search, breaking, and the lock
instructions (spec/11_crews_step_planes_line_locks.md R238-R242, spec/23_memory_lock_plane_and_engine_faults.md R443-R446).
-/

namespace Sys2Proof.Machine

def cLKNOTHELD : Nat := 0x30
def cLKLIMIT : Nat := 0x31
def cLKSPACE : Nat := 0x32
def cLKBROKEN : Nat := 0x33

/-! ## The lock table -/

/-- The home die of a line. -/
def lineDie (line : Nat) : Nat := keyDie (line * 128)

/-- Line entries and waiter entries in use on a die (R239). -/
def State.lockLines (s : State) (d : Nat) : Nat := (s.locks.filter (fun e => lineDie e.1 == d)).length
def State.lockWaiters (s : State) (d : Nat) : Nat :=
  (s.locks.filter (fun e => lineDie e.1 == d)).foldl (fun n e => n + e.2.queue.length) 0

/-- No copy of a line stays in an L1 once it is locked: its dirty bytes are written back early (R184, R241). -/
def State.evictLine (s : State) (line : Nat) : State :=
  (Tab.keys s.cores).foldl (fun s c => s.flushL1 c (fun k => lineOf k == line) true) s

/-- A line gets its holder: the status, and the state (R239, R445). -/
def State.setHolder (s : State) (line w : Nat) : Nat × State :=
  let l := Tab.getD s.locks line { holder := none }
  (if l.broken then stACQBROKEN else stOK,
    { s with locks := Tab.set s.locks line { l with holder := some w, broken := false, releasing := false, copy := [] } })

/-- Give a lock to a wave (R239): the status travels with the line. -/
def State.grantLock (s : State) (line w : Nat) : State :=
  let (st, s1) := s.setHolder line w
  let s2 := if s1.isResident ((s1.wave? w).getD { proc := 0, crew := 0, member := 0, die := 0, width := 16, nvregs := 8 }) then s1
    else s1.modWave w (fun v => { v with boost := true })
  s2.send [.lockGrantArrival w line st]

/-- A waiter whose wave can take the lock at once (R239, R445). -/
def State.awake (s : State) (w : Nat) : Bool :=
  match s.wave? w with
  | some v => s.isResident v && !v.suspended
  | none => false

/-- Values of a returning atomic, register by register. -/
def splitLocs (m : Nat) : List Loc → List Write
  | [] => []
  | l :: t =>
    let w := match l with | .s _ => 64 | _ => 32
    { loc := l, val := BitVec.ofNat 64 (m % 2 ^ w) } :: splitLocs (m / 2 ^ w) t

/-- Whether an instruction of a wave still has a write waiting at a locked line. -/
def State.heldWrite (s : State) (w seq : Nat) : Bool :=
  s.locks.any (fun e => e.2.writes.any (fun x => x.wave == w && x.atom.isSome && x.seq == seq))

/-- Why a held atomic fails when it is applied: the checks that its performance makes (R437, R457, R473). -/
def State.heldRefusal (s : State) (x : HeldWrite) (n : Nat) : Option (Nat × Nat) :=
  if s.poisoned x.key n then some (cPOISON, s.poisonSub (keyDie x.key * 256) x.key) else (s.writeRefusal x.key n).map (fun c => (c, 0))

/-- A held atomic that fails: a completion fault, or the refusal of a form that returns nothing (R489). -/
def State.refuseHeld (s : State) (x : HeldWrite) (cause sub : Nat) : State :=
  let lanes := maskOf [x.lane]
  let tval := BitVec.ofNat 64 x.addr
  if x.quiet then
    s.send [.writeRefusalArrival x.wave x.run { order := x.seq, cause := cause, sub := sub, tval := tval, lanes := lanes, pc := x.site.pc
                                                word := x.site.word, x1 := x.site.x1, x2 := x.site.x2 }]
  else s.modWave x.wave (fun v => v.addLate x.seq
    { seq := x.seq, trap := { cause := cause, sub := sub, tval := tval, lanes := lanes }, pc := x.site.pc, word := x.site.word, x1 := x.site.x1, x2 := x.site.x2 })

/-- Apply one held non-holder write to the home copy (R241). -/
def State.applyHeld (s : State) (x : HeldWrite) : State :=
  match x.atom with
  | none => (s.futClear x.key x.bytes.length).pointWrite (fun s k b => s.homeWrite k b) x.key x.bytes
  | some a =>
    match s.heldRefusal x a.size with
    | some (cause, sub) => s.refuseHeld x cause sub
    | none =>
    let s := s.futClear x.key a.size
    let (m, s1) := s.pointRead (fun s k => s.homeRead k) x.key a.size
    let s2 := s1.pointWrite (fun s k b => s.homeWrite k b) x.key (bytesOf (atomNew a.op a.size m a.b a.cmp) a.size)
    if x.ret.isEmpty then s2
    else s2.modWave x.wave (fun v => v.modRes x.seq (fun r => { r with writes := r.writes ++ splitLocs m x.ret }))

/-- Write bytes listed by key at their home. -/
def State.pointBytes (s : State) (l : Tab Byte) : State := l.foldl (fun s e => s.homeWrite e.1 e.2) s

/-- Writes of a wave have been performed: what waits for them is looked at again (R232, R236). -/
def State.writesLanded (s : State) (w : Nat) : State :=
  match s.wave? w with
  | none => s
  | some v => (s.landArrivals w).stepTests v.crew

/-- Apply the holder's dirty bytes, then the held writes in their order (R239). -/
def State.settleLine (s : State) (line : Nat) : State :=
  match Tab.get? s.locks line with
  | none => s
  | some l =>
    let s0 := { s with locks := Tab.set s.locks line { l with holder := none, releasing := false, copy := [], writes := [] } }
    let s1 := s0.pointBytes l.copy
    let s2 := l.writes.foldl State.applyHeld s1
    let s3 := (l.writes.filter (fun x => x.atom.isSome)).foldl (fun s x =>
      if s.heldWrite x.wave x.seq then s else s.modWave x.wave (fun v => v.modRes x.seq (fun r => { r with ready := true }))) s2
    (l.writes.map (·.wave)).eraseDups.foldl State.writesLanded s3

/-- Hand the lock to the first waiter whose wave is awake, else to the head; with no waiter the entry goes, unless it is marked
broken (R239, R445). -/
def State.handOff (s : State) (line : Nat) : State :=
  match Tab.get? s.locks line with
  | none => s
  | some l =>
    match l.queue with
    | [] => if l.broken then s else { s with locks := Tab.del s.locks line }
    | h :: _ =>
      let y := (l.queue.find? (fun q => s.awake q.wave)).getD h
      let s1 : State := { s with locks := Tab.set s.locks line { l with queue := l.queue.filter (fun q => q.wave != y.wave) } }
      s1.grantLock line y.wave

/-- The line whose queue a wave waits in. -/
def State.waitsAt (s : State) (w : Nat) : Option Nat :=
  match (s.wave? w).bind (·.wait) with
  | some (.lock line _ _) => some line
  | _ => none

/-- The search along wait-for edges from a holder (R444). -/
def State.cycleFrom (s : State) (req : Nat) : Nat → Nat → Bool
  | _, 0 => false
  | h, n + 1 =>
    if h = req then true
    else match s.waitsAt h with
      | none => false
      | some line => match (Tab.get? s.locks line).bind (·.holder) with
        | none => false
        | some h' => s.cycleFrom req h' n

/-- Finish a request without a grant: its status goes to the wave. -/
def State.lockStatus (s : State) (w line seq d st : Nat) : State :=
  let s1 := (s.fill w seq (sOut d st)).modWave w (fun v => { v with lkPending := v.lkPending.filter (fun x => x.1 != line) })
  s1.modWave w (fun v => { v with run := v.run.map (fun r => { r with lkDone := r.lkDone + 1 }) })

/-- A request is performed at the line's home (R239, R444). -/
def State.lockRequest (s : State) (w seq d line : Nat) (isTry : Bool) (timeout : Nat) : State :=
  let die := lineDie line
  match Tab.get? s.locks line with
  | none =>
    if s.lockLines die ≥ 4096 then s.lockStatus w line seq d stBUSY
    else (s.evictLine line).grantLock line w
  | some l =>
    if l.holder.isNone && !l.releasing then (s.evictLine line).grantLock line w
    else if isTry then s.lockStatus w line seq d stBUSY
    else if s.lockWaiters die ≥ 16384 then s.lockStatus w line seq d stBUSY
    else if (match l.holder with | some h => s.cycleFrom w h (s.locks.length + 1) | none => false) then
      s.lockStatus w line seq d stDEADLOCK
    else
      let dl := if timeout = 0 then none else some (s.tickOf die + ceilDiv timeout 8)
      let s1 : State := { s with locks := Tab.set s.locks line { l with queue := l.queue ++ [{ wave := w, deadline := dl }] } }
      s1.block w (.lock line seq d)

/-- The LKBROKEN record (R446). -/
def State.brokenRecord (s : State) (v : Wave) (line reason waiters : Nat) (lost : Bool) : State :=
  let lane := lowLane v.lastMask
  s.sendRecord (s.dieOf v) v.proc
    { s.waveRec v lane cLKBROKEN 0 1 0 with
      pc := v.lastPc.toNat, val := line * 128
      detail := packFields [(b2n lost, 0, 1), (reason, 1, 3), (waiters, 8, 14)] }

/-- Break one lock of a holder that stops existing (R445). The dirty bytes of a wave that is resident on a contained die lie in its L1,
which cannot be read; those of any other are in the holder copy. -/
def State.breakLock (s : State) (v : Wave) (line reason : Nat) : State :=
  let n := ((Tab.get? s.locks line).map (·.queue.length)).getD 0
  let lost := reason = 3 && s.isResident v && ((Tab.get? s.locks line).map (fun l => !l.copy.isEmpty)).getD false
  let s0 := if lost then { s with locks := Tab.mod s.locks line (fun l => { l with copy := [] }) } else s
  let s1 := s0.settleLine line
  let s2 : State := { s1 with locks := Tab.mod s1.locks line (fun l => { l with broken := true }) }
  (s2.brokenRecord v line reason n lost).handOff line

/-- Every lock that a wave holds breaks, and its requests leave the queues (R445). A release already under way is performed. -/
def State.breakAll (s : State) (w : Nat) (v : Wave) (reason : Nat) : State :=
  let s1 : State := { s with locks := s.locks.map (fun (e : Nat × Lock) => (e.1, { e.2 with queue := e.2.queue.filter (fun q => q.wave != w) })) }
  ((s1.locks.filter (fun e => e.2.holder == some w)).map (·.1)).foldl (fun s line => s.breakLock v line reason) s1

/-- The identifiers under which a process has bound a line (R169). -/
def State.lockIdents (s : State) (p line : Nat) : List Nat :=
  match s.proc? p with
  | none => []
  | some pr => ((pr.bindings.filter (fun e => e.2.kind == 0)).map (·.2.ident)).filter (fun a =>
      match s.walk pr.ptroot.toNat a with
      | .leaf l _ sz => lineOf (physOf l (a / 2 ^ sz * 2 ^ sz) a).key == line
      | .bad _ => false)

/-- A release of a wave at .pkg or .sys can take effect: its earlier writes are acknowledged and performed (R203). -/
def State.relReady (s : State) (w : Nat) : Bool := s.acked w && s.writesDone w

/-- The release of a lock's line waits for the writes that were issued before it, under this number (R240). -/
def lineRel (line : Nat) : Nat := 2 ^ 64 + line

/-! ## Arrivals (events) -/

/-- R239, R444: performed only for a wave that lives. -/
def execLockRequestAtHome (w seq d line : Nat) (isTry : Bool) (timeout : Nat) (s : State) : Host.Outcome State Fault Refusal :=
  match s.wave? w with
  | none => .next s
  | some v => if v.dead then .next s else .next (s.lockRequest w seq d line isTry timeout)

/-- R239, R240: the hand-off follows the release of R202; until that can take effect the message stays on its way. -/
def execLockReleaseAtHome (w line : Nat) (s : State) : Host.Outcome State Fault Refusal :=
  match Tab.get? s.locks line with
  | none => .next s
  | some l =>
    if !l.releasing then .next s
    else if s.acked w && !(s.tagged w (lineRel line)) then .next ((s.settleLine line).handOff line)
    else .next (s.send [.lockReleaseAtHome w line])

/-- R239, R242: the lock and its status reach the wave, resident or saved; the acquire invalidates bound regions (R204). -/
def execLockGrantArrival (w line status : Nat) (s : State) : Host.Outcome State Fault Refusal :=
  match s.wave? w with
  | none => .next s
  | some v =>
    if v.dead then .next s
    else match v.lkPending.find? (fun x => x.1 == line) with
      | none => .next s
      | some (_, seq, d) =>
        let s1 := s.modWave w (fun v =>
          { v with heldLocks := insertSet v.heldLocks line, lockReqs := v.lockReqs - 1
                   lkPending := v.lkPending.filter (fun x => x.1 != line), boost := v.boost || !(s.isResident v) })
        let s2 := (s.lockIdents v.proc line).foldl (fun s a => s.acqObj v scPkg { kind := 0, ident := a }) s1
        .next (if v.wait.isSome then s2.wake w seq (sOut d status) else s2.fill w seq (sOut d status))

/-- R241: a non-holder's write waits at the home while the line is locked; otherwise it is performed. -/
def execNonholderWriteAtHome (w key : Nat) (bytes : List Byte) (s : State) : Host.Outcome State Fault Refusal :=
  .next ((s.writeArrives w key bytes).writesLanded w)

/-- R239: a waiter whose deadline has passed at the home receives TIMEOUT. -/
def execLockTimeout (w line : Nat) (s : State) : Host.Outcome State Fault Refusal :=
  match Tab.get? s.locks line with
  | none => .next s
  | some l =>
    match l.queue.find? (fun q => q.wave == w), (s.wave? w).bind (·.wait) with
    | some q, some (.lock ln seq d) =>
      (match q.deadline with
       | none => .next s
       | some t =>
         if ln = line ∧ t ≤ s.tickOf (lineDie line) then
           let s1 : State := { s with locks := Tab.set s.locks line { l with queue := l.queue.filter (fun q => q.wave != w) } }
           .next ((s1.lockStatus w line seq d stTIMEOUT).wake w seq [])
         else .next s)
    | _, _ => .next s

/-! ## The instructions (R238-R240, R443) -/

/-- The line that a lock instruction names, or the cause of its refusal (R443). -/
def lockLine (c : Ctx) (f : GR) (s : State) : Except Trap Nat × State :=
  let a := (readA c f).toNat
  let t := fun sub => (Except.error { cause := cLKSPACE, sub := sub, tval := BitVec.ofNat 64 a : Trap }, s)
  if a ≥ 2 ^ 48 then t 1
  else if a ≥ globalTop then t 0
  else match s.translate (s.coreOf c.v) c.v.proc a aATOM false true with
    | (.error e, s1) => (.error e, s1)
    | (.ok p, s1) =>
      if p.ca != 0 || p.gs = 3 then (.error { cause := cLKSPACE, sub := 0, tval := BitVec.ofNat 64 a }, s1)
      else (.ok (lineOf p.key), s1)

/-- A lock request may issue: its line, or why not (R443). A send that grants the line's page is one action (log 81), so that the walk at issue
is what R317 asks the home for. -/
def lockAsk (c : Ctx) (f : GR) (st : State) : Except Iss (Nat × State) :=
  let lim : List Trap := if c.v.heldLocks.length + c.v.lockReqs ≥ 4 then [{ cause := cLKLIMIT, sub := 0, tval := readA c f }] else []
  match lockLine c f st with
  | (.error t, st1) => .error (.trap (t :: lim) st1)
  | (.ok line, st1) =>
    match lim with
    | t :: ts => .error (.trap (t :: ts) st1)
    | [] => .ok (line, st1)

/-- lk.try at its issue, which the home has ordered (R317): the later instructions of the run come after its grant (R204, R239). -/
def State.tryLock (s : State) (w : Nat) (v : Wave) (line : Nat) : Nat × State :=
  let free := match Tab.get? s.locks line with
    | none => decide (s.lockLines (lineDie line) < 4096)
    | some l => l.holder.isNone && !l.releasing
  if !free then (stBUSY, s)
  else
    let (st, s1) := (s.evictLine line).setHolder line w
    let s2 := s1.modWave w (fun x => { x with heldLocks := insertSet x.heldLocks line })
    (st, (s2.lockIdents v.proc line).foldl (fun s a => s.acqObj v scPkg { kind := 0, ident := a }) s2)

/-- R238, R239. -/
def execLkAcq (f : GR) (s : State) : Host.Outcome State Fault Refusal :=
  issue (.lkAcq f) (fun c st => match lockAsk c f st with
    | .error x => x
    | .ok (line, st1) =>
      let st2 := st1.modWave c.w (fun v =>
        { v with lockReqs := v.lockReqs + 1, lkPending := v.lkPending ++ [(line, v.issues, f.d.toNat)] })
      .ok { s := st2.send [.lockRequestAtHome c.w c.v.issues f.d.toNat line false (readB c f).toNat], ready := false }) s
/-- R238, R239. -/
def execLkTry (f : GR) (s : State) : Host.Outcome State Fault Refusal :=
  issue (.lkTry f) (fun c st => match lockAsk c f st with
    | .error x => x
    | .ok (line, st1) =>
      let (e, st2) := st1.tryLock c.w c.v line
      .ok { s := st2, writes := sOut f.d.toNat e }) s
/-- R240: released at issue; the release of R202 and the hand-off follow. -/
def execLkRel (f : GR) (s : State) : Host.Outcome State Fault Refusal :=
  issue (.lkRel f) (fun c st =>
    match lockLine c f st with
    | (.error t, st1) => .trap [t] st1
    | (.ok line, st1) =>
      if !c.v.heldLocks.contains line then .trap [{ cause := cLKNOTHELD, sub := 0, tval := readA c f }] st1
      else
        let st0 := (st1.landWrites c.w (fun _ => true)).tagWrites c.w (lineRel line)
        let st2 := (st0.lockIdents c.v.proc line).foldl (fun s a => s.relObj c.v scPkg { kind := 0, ident := a }) st0
        let st3 := st2.modWave c.w (fun v => { v with heldLocks := v.heldLocks.filter (· != line) })
        .ok { s := (st3.modLock line (fun l => { l with holder := none, releasing := true })).send [.lockReleaseAtHome c.w line] }) s

end Sys2Proof.Machine
end

