-- ==== Sys2Proof/Machine/CrewInstr.lean ====
section
/-!
DEFINITION. Sys2Proof/Machine/CrewInstr.lean: named barriers, step regions and step (spec/11_crews_step_planes_line_locks.md R230-R237,
spec/23_memory_lock_plane_and_engine_faults.md R441, R442).
-/

namespace Sys2Proof.Machine

def batchOperand (c : Ctx) (sub : Nat) : Trap := { cause := cOPERAND, sub := sub, tval := 5, lanes := maskOf c.lanes }

/-- An arrival that waits for the wave's writes at locked lines (R203, R232): the wave goes on. -/
def State.arriveLater (s : State) (c : Ctx) (nb e : Nat) : State :=
  let (n, s1) := s.takeNum
  let t := batchOperand c 6
  (s1.tagWrites c.w n).modWave c.w (fun v =>
    { v with arriving := v.arriving ++ [{ nb := nb, count := e, rel := n
                                          late := { seq := c.v.issues, trap := t, pc := c.site.pc, word := c.site.word, x1 := c.site.x1, x2 := c.site.x2 } }] })

/-- An arrival as part of an instruction (R231, R442): its count is checked at issue, EXPECTED where it is performed. -/
def arriveIssue (c : Ctx) (f : GR) (on : OnEnd) (st0 : State) : Iss :=
  let e := (readB c f).toNat
  let st := st0.landWrites c.w (fun _ => true)
  if e = 0 || e > 65535 then .trap [batchOperand c 7]
  else if !(st.writesDone c.w) || !c.v.arriving.isEmpty then .ok { s := st.arriveLater c (f.d.toNat % 16) e, onEnd := on }
  else match st.arrive c.w c.v.crew (f.d.toNat % 16) e with
    | none => .ok { s := st, onEnd := on, late := [batchOperand c 6] }
    | some st1 => .ok { s := st1, onEnd := on }

/-- R231. -/
def execNbArrive (f : GR) (s : State) : Host.Outcome State Fault Refusal :=
  issue (.nbArrive f) (fun c st => arriveIssue c f .go st) s
/-- R231: waits on the phase in which it arrived. -/
def execNbSync (f : GR) (s : State) : Host.Outcome State Fault Refusal :=
  issue (.nbSync f) (fun c st => arriveIssue c f (.barrier (f.d.toNat % 16) 0) st) s
/-- R231. -/
def execNbWait (f : GR) (s : State) : Host.Outcome State Fault Refusal :=
  issue (.nbWait f) (fun _ st => .ok { s := st, onEnd := .barrier (f.d.toNat % 16) 0 }) s

/-! ## pl.cfg (R233, R441) -/

/-- Whether two byte ranges overlap. -/
def rangesMeet (a n b m : Nat) : Bool := a < b + m && b < a + n

/-- The word's failing checks (R441). -/
def plBad (s : State) (cr : Nat) (c : Crew) (w : Nat) : Bool :=
  let r := bits w 1 0
  let rule := bits w 3 2
  let off := bits w 18 8 * 128
  let n := bits w 29 20 * 128
  let m := regionM rule n
  bits w 7 4 != 0 || bitOf w 19 || bits w 63 30 != 0 || bits w 29 20 > 512 ||
  (n != 0 && (off + m > c.barOff
    || c.regions.any (fun e => e.1 != r && rangesMeet off m e.2.off (regionM e.2.rule e.2.n))
    || (s.membersOf cr).any (fun v => v.2.streams.any (fun q =>
        q.2.nt != 0 && rangesMeet off m q.2.base (q.2.nt * q.2.tsize)))))

/-- Release a region: the present plane stays; the rest of its bytes reads zero, not valid (R233). -/
def Crew.releaseRegion (c : Crew) (r : Nat) : Crew :=
  match Tab.get? c.regions r with
  | none => c
  | some g =>
    let lo := (g.off + g.n) / 4
    let hi := (g.off + regionM g.rule g.n) / 4
    { c with regions := Tab.del c.regions r, scratch := c.scratch.filter (fun e => !(lo ≤ e.1 && e.1 < hi)) }

/-- R233. -/
def execPlCfg (f : GR) (s : State) : Host.Outcome State Fault Refusal :=
  issue (.plCfg f) (fun c st =>
    let w := (readA c f).toNat
    let r := bits w 1 0
    let out := fun (x : Nat) (s' : State) => uniOut f (BitVec.ofNat 64 x) s'
    match st.crew? c.v.crew with
    | none => out stBADDESC st
    | some k =>
      if ((Tab.get? k.regions r).map (fun g => !g.group.isEmpty)).getD false then out stBUSY st
      else if plBad st c.v.crew k w then out stBADDESC st
      else if bits w 29 20 = 0 then
        (match Tab.get? k.regions r with
         | none => out stEMPTY st
         | some _ => out stOK (st.setCrew c.v.crew (k.releaseRegion r)))
      else
        let k1 := k.releaseRegion r
        let g : Region := { rule := bits w 3 2, off := bits w 18 8 * 128, n := bits w 29 20 * 128 }
        out stOK (st.setCrew c.v.crew { k1 with regions := Tab.set k1.regions r g })) s

def regionOf (f : GR) : Nat := f.b.toNat % 4

def State.regionConfigured (s : State) (cr r : Nat) : Option Region := (s.crew? cr).bind (fun k => Tab.get? k.regions r)

/-- R234. -/
def execPlJoin (f : GR) (s : State) : Host.Outcome State Fault Refusal :=
  issue (.plJoin f) (fun c st =>
    match st.regionConfigured c.v.crew (regionOf f) with
    | none => .trap [batchOperand c 6]
    | some g => .ok { s := st.modCrew c.v.crew (fun k =>
        { k with regions := Tab.set k.regions (regionOf f) { g with group := insertSet g.group c.w } }) }) s
/-- R234: a pending step is evaluated again. -/
def execPlJoinDrop (f : GR) (s : State) : Host.Outcome State Fault Refusal :=
  issue (.plJoinDrop f) (fun c st =>
    let st1 := st.modCrew c.v.crew (fun k =>
      { k with regions := Tab.mod k.regions (regionOf f) (fun g => { g with group := g.group.filter (· != c.w) }) })
    .ok { s := st1.stepTest c.v.crew (regionOf f) }) s
/-- R236, R442. -/
def execStep (f : GR) (s : State) : Host.Outcome State Fault Refusal :=
  issue (.step f) (fun c st =>
    match st.regionConfigured c.v.crew (regionOf f) with
    | none => .trap [batchOperand c 6]
    | some g => if g.group.contains c.w then .ok { s := st, onEnd := .step (regionOf f) } else .trap [batchOperand c 6]) s

end Sys2Proof.Machine
end

