-- ==== Sys2Proof/Machine/Crews.lean ====
section
/-!
DEFINITION. Sys2Proof/Machine/Crews.lean: crews on cores: rows, wave slots, granules and crew slots, fit, placement, descheduling, formation
and dissolution (spec/02_execution_model.md R19, R36-R42, spec/08_memory_spaces_and_translation.md R178,
spec/14_muhan_hardware_kernel.md R298-R300, spec/16_work_distribution.md R342, R343).
-/

namespace Sys2Proof.Machine

/-! ## Limits (R342, R347) -/

/-- The valid tenant-limit entry of a tenant on a die: priority cap, cluster mask, resident-wave cap (R342, R347). -/
def State.limit (s : State) (d tenant : Nat) : Option (Nat × Nat × Nat) :=
  (List.range 256).findSome? (fun i =>
    let e := (Tab.getD (s.die d).regs (0x11000 + 16 * i) 0).toNat
    if bitOf e 16 && bits e 15 0 == tenant then some (bits e 19 17, bits e 35 20, bits e 47 36 * 8) else none)

def State.tenantOf (s : State) (p : Nat) : Nat := ((s.proc? p).map (·.tenant.toNat)).getD 0

/-- Priority under the tenant's cap (R297, R330). -/
def State.capPrio (s : State) (d p prio : Nat) : Nat :=
  match s.limit d (s.tenantOf p) with
  | some (cap, _, _) => min prio cap
  | none => prio

/-! ## Room on a core (R19, R37, R178) -/

/-- Rows in use: first quad, quads, first row, rows. -/
structure RowUse where
  quad : Nat
  nq : Nat
  row : Nat
  n : Nat
  deriving DecidableEq, Repr

def RowUse.meets (a b : RowUse) : Bool :=
  a.quad < b.quad + b.nq && b.quad < a.quad + a.nq && a.row < b.row + b.n && b.row < a.row + a.n

def Wave.rowUse (v : Wave) : RowUse := { quad := v.firstQuad, nq := v.width / 16, row := v.firstRow, n := v.nvregs }

/-- The lowest first row, then the lowest quad or pair, that is free (R19). -/
def placeRows (used : List RowUse) (width n : Nat) : Option RowUse :=
  let nq := width / 16
  (List.range ((1024 - n) / 8 + 1)).findSome? (fun i =>
    ((List.range (4 / nq)).map (fun q => ({ quad := q * nq, nq := nq, row := 8 * i, n := n } : RowUse))).find? (fun r =>
      used.all (fun u => !(r.meets u))))

/-- Waves that hold rows and a wave slot on a core, except those of some crews. -/
def State.coreWaves (s : State) (core : Nat) (except_ : List Nat) : List (Nat × Wave) :=
  s.waves.filter (fun e => !e.2.dead && !except_.contains e.2.crew &&
    (match s.crew? e.2.crew with | some c => c.core == core && c.place.onCore | none => false))

/-- Rows and wave slots for several waves, one after another: wave, slot, rows. -/
def fitWaves (used : List RowUse) (slots : List Nat) : List (Nat × Wave) → Option (List (Nat × Nat × RowUse))
  | [] => some []
  | (w, v) :: t =>
    match lowest 0 (fun k => !slots.contains k) 32, placeRows used v.width v.nvregs with
    | some k, some r => (fitWaves (r :: used) (k :: slots) t).map (fun l => (w, k, r) :: l)
    | _, _ => none

/-- Granules in use on a core (base, count), except those of some crews. -/
def State.coreGrans (s : State) (core : Nat) (except_ : List Nat) : List (Nat × Nat) :=
  (s.crews.filter (fun e => e.2.core == core && e.2.place.onCore && !except_.contains e.1)).map (fun e => (e.2.base, e.2.grans))

def gransFree (used : List (Nat × Nat)) (base n : Nat) : Bool :=
  base + n ≤ 64 && used.all (fun u => !(base < u.1 + u.2 && u.1 < base + n))

/-- A base for an allocation: the kept one, or the lowest free run (R178, log 24). -/
def fitBase (used : List (Nat × Nat)) (c : Crew) : Option Nat :=
  if c.newBase then lowest 0 (fun b => gransFree used b c.grans) 64
  else if gransFree used c.base c.grans then some c.base else none

/-- The lowest free crew slot of a core (R37). -/
def State.freeCrewSlot (s : State) (core : Nat) : Option Nat :=
  lowest 0 (fun k => !(s.crews.any (fun e => e.2.core == core && e.2.slot == k && !e.2.floating))) 64

/-- Waves of a tenant that hold a wave slot on a core, except those of some crews. -/
def State.tenantHere (s : State) (core tenant : Nat) (except_ : List Nat) : Nat :=
  ((s.coreWaves core except_).filter (fun e => s.tenantOf e.2.proc == tenant)).length

/-- Resident waves of a tenant on a die (R342). -/
def State.tenantWaves (s : State) (d tenant : Nat) : Nat :=
  (s.waves.filter (fun e => !e.2.dead && s.tenantOf e.2.proc == tenant &&
    (match s.crew? e.2.crew with | some c => coreDie c.core == d && c.place.onCore | none => false))).length

/-- Whether a core takes placements: not stopped, its cluster and die not contained (R369, R403). -/
def State.coreOpen (s : State) (core : Nat) : Bool :=
  !(s.core core).stopped && !(s.die (coreDie core)).contained && !((s.die (coreDie core)).clusters.contains (coreCluster core % 16))

/-- Where a crew would stand on its core: its waves' slots and rows, and its base; none when it does not fit (R298). The crews of
`except_` count as gone. -/
def State.fitCrew (s : State) (c : Nat) (except_ : List Nat) : Option (List (Nat × Nat × RowUse) × Nat) :=
  match s.crew? c with
  | none => none
  | some k =>
    let ms := s.membersOf c
    let here := s.coreWaves k.core except_
    let d := coreDie k.core
    let ten := s.tenantOf k.proc
    let gone := except_.filterMap (fun x => s.crew? x)
    let okLimit := match s.limit d ten with
      | none => true
      | some (_, mask, cap) => mask.testBit (coreCluster k.core % 16)
          && s.tenantWaves d ten + ms.length ≤ cap + (s.tenantHere k.core ten [] - s.tenantHere k.core ten except_)
    let room := (s.residentCrews k.core).length - gone.length < 32
    let store := k.slots.length ≤ s.freeSlots k.core + (gone.foldl (fun n x => n + x.slots.length) 0)
      && k.accs.length ≤ s.freeAccs k.core + (gone.foldl (fun n x => n + x.accs.length) 0)
    if okLimit && room && store && s.coreOpen k.core then
      match fitWaves (here.map (fun e => e.2.rowUse)) (here.map (fun e => e.2.wslot)) ms, fitBase (s.coreGrans k.core except_) k with
      | some l, some b => some (l, b)
      | _, _ => none
    else none

/-! ## Placement (R298, R299) -/

/-- A crew's priority: the highest PRIO among its members, or a boost limited by the tenant's cap (R297, R298). -/
def State.crewPrio (s : State) (c : Nat) : Nat :=
  match s.crew? c with
  | none => 0
  | some k =>
    let p := (s.membersOf c).foldl (fun n e => max n e.2.prio) 0
    let cap := s.capPrio (coreDie k.core) k.proc 7
    if (s.membersOf c).any (fun e => e.2.boost) then cap else min p cap

/-- The result word of crew.join for the crew that a wave is in (R228). -/
def State.joinWord (s : State) (w st slot : Nat) : W64 :=
  match s.wave? w with
  | none => 0
  | some v => match s.crew? v.crew with
    | none => BitVec.ofNat 64 st
    | some k => BitVec.ofNat 64 (packFields [(st, 0, 8), (v.member, 8, 5), (k.base, 16, 6), (k.grans, 23, 7), (slot, 32, 12)])

/-- fence.ar.die of a wave that changes cores (R217): the old core writes back, the new one keeps nothing older. -/
def State.moveFence (s : State) (old new : Nat) : State := (s.fenceRel old scDie).fenceAcq new scDie

/-- A crew that has changed cores comes in only when its waves' fence.ar.die can end (R217). -/
def State.fenceDone (s : State) (c : Nat) (k : Crew) : Bool := !k.moved || (s.membersOf c).all (fun e => s.writesDone e.1)

/-- Bring one crew to its core: at once when it has no saved context, else its context starts to move (R299). -/
def State.bringIn (s : State) (c : Nat) : State :=
  match s.crew? c, s.fitCrew c [] with
  | some k, some (l, b) =>
    let s1 := l.foldl (fun s e =>
      s.modWave e.1 (fun v => { v with wslot := e.2.1, firstQuad := e.2.2.quad, firstRow := e.2.2.row, boost := false })) s
    let pl := match k.place with | .shadow => Place.swapping | .cave => Place.restoring | _ => Place.resident
    let s2 : State := { (s1.setCrew c { k with place := pl, base := b, newBase := false, swapIn := false, starved := 0, answer := none, moved := false }) with
      runq := s1.runq.filter (· != c) }
    let s3 := if k.moved then s2.fenceAcq k.core scDie else s2
    let s4 := match k.answer with
      | some (w, r, slot) => s3.modWave w (fun v => v.setSreg r (s3.joinWord w stOK slot))
      | none => s3
    match pl with
    | .swapping => s4.send [.shadowSwapDone c]
    | .restoring => s4.send [.caveRestoreDone c]
    | _ => s4
  | _, _ => s

/-- Crews that are placed and descheduled together: a formed gang, or the crew alone (R262). -/
def State.together (s : State) (c : Nat) : List Nat := s.holderCrews c

/-- Cores for a new crew: the issuing core, then the cluster's cores from the lowest (R227). -/
def crewCores (core : Nat) : List Nat := core :: ((List.range 16).map (fun i => coreCluster core * 16 + i)).filter (· != core)

/-- A crew that holds no crew slot takes one on a core where it fits (R227). -/
def State.landOn (s : State) (c core : Nat) : Option State :=
  match s.freeCrewSlot core with
  | none => none
  | some slot =>
    let s1 := s.modCrew c (fun k => { k with core := core, slot := slot, floating := false, newBase := true })
    if (s1.fitCrew c []).isSome then some s1 else none

/-- The crews come in one after another, every one of them or none (R262). -/
def State.bringAll (s : State) : List Nat → Option State
  | [] => some s
  | c :: l => if (s.fitCrew c []).isSome then (s.bringIn c).bringAll l else none

/-- Place a crew, with its gang, where every one of them fits (R262, R298); one that has no core yet goes to the first that fits (R227). -/
def State.placeCrew (s : State) (c : Nat) : Option State :=
  match s.crew? c with
  | none => none
  | some k =>
    if k.floating then ((crewCores k.core).findSome? (s.landOn c)).map (fun s1 => s1.bringIn c)
    else
      let g := (s.together c).filter (fun x => match s.crew? x with | some k => !k.place.onCore | none => false)
      if !g.isEmpty && g.all (fun x => match s.crew? x with | some y => s.fenceDone x y | none => false) then s.bringAll g else none

/-- Runnable crews of a cluster in the order in which the Muhan unit searches them: level 7 down, first in first out (R298). -/
def State.runOrder (s : State) (cluster : Nat) : List Nat :=
  let l := s.runq.filter (fun c => match s.crew? c with | some k => coreCluster k.core == cluster | none => false)
  (List.range 8).reverse.flatMap (fun p => l.filter (fun c => s.crewPrio c == p))

/-- Whether a crew would come to a core: its own, or the first that fits where it has none. -/
def State.comesTo (s : State) (core c : Nat) : Bool :=
  match s.crew? c with
  | none => false
  | some k => if k.floating then (crewCores k.core).find? (fun x => (s.landOn c x).isSome) == some core else k.core == core

/-- The first runnable crew that fits on a core is placed (R298). -/
def State.placeOn (s : State) (core : Nat) : Option State :=
  ((s.runOrder (coreCluster core)).filter (s.comesTo core)).findSome? s.placeCrew

/-- The partition's crews have left their cores: those held in the cluster's shadow banks come in (R12, R340). -/
def State.partitionIn (s : State) (cluster : Nat) : State :=
  if s.crews.any (fun e => coreCluster e.2.core == cluster && e.2.place == .resident && e.2.part) then s
  else (s.crews.filter (fun e => coreCluster e.2.core == cluster && e.2.place == .shadow && e.2.swapIn)).foldl (fun s e => (s.placeCrew e.1).getD s) s

/-! ## Decision events (R337) -/

/-- An event enters the die's event FIFO, behind the 256 that it holds where it is full (log 87); its hook runs later, in order, as the machine's own action (R337). -/
def State.distEvent (s : State) (d hook a0 a1 : Nat) : State :=
  s.modDie d (fun x => { x with dist := { x.dist with fifo := x.dist.fifo ++ [(hook, a0, a1)] } })

/-! ## Released storage and gangs (R245-R247, R261, R267) -/

/-- A command names a storage. -/
def Cmd.names (x : Cmd) (st : Nat) (acc : Bool) : Bool := (if acc then x.accs else x.slots).any (fun y => y.2 == st)
def Entry.names (e : Entry) (st : Nat) (acc : Bool) : Bool := e.cmds.any (fun x => x.names st acc)

/-- Some command that stands in a queue, in a staging or with a descheduled crew names a storage. -/
def State.namedStore (s : State) (st : Nat) (acc : Bool) : Bool :=
  s.cores.any (fun k => k.2.queues.any (fun q => q.2.any (fun e => e.names st acc)))
  || s.crews.any (fun c => c.2.saved.any (fun e => e.2.names st acc)
      || c.2.staging.any (fun g => g.2.2.2.any (fun x => x.2.names st acc)))

/-- Released storage goes when no command names it any more, else it is freed later (R245, R247). -/
def State.dropStore (s : State) (core st : Nat) (acc : Bool) : State :=
  if s.namedStore st acc then s.modCore core (fun k => { k with freeing := k.freeing ++ [(st, acc)] })
  else if acc then { s with accs := Tab.del s.accs st } else { s with opslots := Tab.del s.opslots st }

/-- Free what no command of a core names any more; waiting claims are looked at again (R246, R247). -/
def State.sweepStore (s : State) (core : Nat) : State :=
  let gone := (s.core core).freeing.filter (fun x => !s.namedStore x.1 x.2)
  if gone.isEmpty then s
  else
    let s1 := s.modCore core (fun k => { k with freeing := k.freeing.filter (fun x => !gone.contains x) })
    (gone.foldl (fun (s : State) x => if x.2 then { s with accs := Tab.del s.accs x.1 } else { s with opslots := Tab.del s.opslots x.1 }) s1).claimsChanged

/-- A crew's position in its gang is left; the last one frees the gang and its holdings (R261, R267). -/
def State.leavePlace (s : State) (c key : Nat) (g : Gang) : State :=
  let left := g.crews.filter (fun e => e.2 != c)
  if left.isEmpty then (g.kept.foldl (fun s x => s.dropStore x.1 x.2.1 x.2.2) ({ s with gangs := Tab.del s.gangs key } : State)).claimsChanged
  else { s with gangs := Tab.set s.gangs key { g with crews := left } }

/-- A formed gang keeps the storage that a crew of it held (R261). -/
def State.keepStore (s : State) (c : Nat) (k : Crew) (key : Nat) (g : Gang) : State × Gang :=
  let g1 := if g.formed then { g with kept := g.kept ++ k.slots.map (fun e => (k.core, e.2, false)) ++ k.accs.map (fun e => (k.core, e.2, true)) } else g
  (({ s with gangs := Tab.set s.gangs key g1 } : State).modCrew c (fun x =>
    if g.formed then { x with gang := none, slots := [], accs := [] } else { x with gang := none }), g1)

/-- A crew leaves its gang, whose storage stays the gang's (R261, R267). -/
def State.leaveGang (s : State) (c : Nat) : State :=
  match s.gangOf c with
  | none => s
  | some (key, g) =>
    match s.crew? c with
    | some k => let (s1, g1) := s.keepStore c k key g; s1.leavePlace c key g1
    | none => s.leavePlace c key g

/-! ## Queues and their marks (R261, R264, R279) -/

def State.queue (s : State) (core q : Nat) : List Entry := Tab.getD (s.core core).queues q []
def State.setQueue (s : State) (core q : Nat) (l : List Entry) : State := s.modCore core (fun k => { k with queues := Tab.set k.queues q l })
def State.setHead (s : State) (core q : Nat) (e : Entry) : State := s.setQueue core q (e :: (s.queue core q).drop 1)
def State.enqueueCmd (s : State) (core q : Nat) (e : Entry) : State := s.setQueue core q (s.queue core q ++ [e])

/-- What stands at the head of a queue and is no command. -/
def State.headMark (s : State) (core q : Nat) : Option CmdOp :=
  match (s.queue core q).head? with
  | some e => (match e.cmds with
    | x :: _ => (match x.op with
      | .fence i m => some (.fence i m)
      | .leave => some .leave
      | _ => none)
    | [] => none)
  | none => none

/-- A part of a gang operation that a crew issued before the command of a number stands in a queue or with a descheduled crew. -/
def State.partsBefore (s : State) (c num : Nat) : Bool :=
  let has := fun (e : Entry) => e.cmds.any (fun x => x.by_.crew == c && (match x.part with | some (n, _) => decide (n < num) | none => false))
  s.cores.any (fun k => k.2.queues.any (fun q => q.2.any has)) || s.crews.any (fun k => k.2.saved.any (fun e => has e.2))

/-- One mark passes: a fence that heads every queue it names, or a departure from a gang once the crew's earlier operations are performed on
every core (R261, R279). -/
def State.passOne (s : State) (core : Nat) : Option State :=
  (List.range 3).findSome? (fun (q : Nat) =>
    match (s.headMark core q : Option CmdOp) with
    | some (CmdOp.fence i m) =>
      let qs := (List.range 3).filter (fun j => m.testBit j)
      if qs.all (fun (j : Nat) => s.headMark core j == some (CmdOp.fence i m)) then
        some (qs.foldl (fun s j => s.setQueue core j ((s.queue core j).drop 1)) s)
      else none
    | some CmdOp.leave =>
      (match (s.queue core q).head? with
       | some e =>
         let c := ((e.cmds.head?).map (·.crew)).getD 0
         if s.partsBefore c e.num then none else some ((s.setQueue core q ((s.queue core q).drop 1)).leaveGang c)
       | none => none)
    | _ => none)

def State.passMarks (s : State) (core : Nat) : Nat → State
  | 0 => s
  | n + 1 => match s.passOne core with
    | some s1 => s1.passMarks core n
    | none => s

/-- Every mark that can pass. -/
def State.passAll (s : State) (core : Nat) : State :=
  s.passMarks core ((List.range 3).foldl (fun n q => n + (s.queue core q).length) 0)

/-! ## Descheduling (R42, R299, R343) -/

/-- A queue fence stands in the queue for every crew (R279). -/
def Entry.isFence (e : Entry) : Bool := e.cmds.any (fun x => match x.op with | .fence _ _ => true | _ => false)

/-- The commands of a crew that have not started leave their queues and are saved with it (R264, R285). A fence also stays for the other
crews' commands; what can pass then passes (R279). -/
def State.saveCmds (s : State) (c : Nat) : State :=
  match s.crew? c with
  | none => s
  | some k =>
    let qs := (s.core k.core).queues
    let mine := fun (e : Entry) => e.phase == 0 && e.cmds.all (fun x => x.crew == c)
    let saved := qs.flatMap (fun q => (q.2.filter mine).map (fun e => (q.1, e)))
    let s1 := s.modCore k.core (fun x =>
      { x with queues := qs.map (fun q => (q.1, q.2.filter (fun e => !mine e || e.isFence))) })
    (s1.modCrew c (fun x => { x with saved := x.saved ++ saved })).passAll k.core

/-- Saved commands re-enter their queues ahead of the crew's new commands; marks that head the queues pass (R264, R279, R285). -/
def State.restoreCmds (s : State) (c : Nat) : State :=
  match s.crew? c with
  | none => s
  | some k =>
    if k.saved.isEmpty then s
    else ((k.saved.foldl (fun s x =>
      s.modCore k.core (fun y => { y with queues := Tab.modD y.queues x.1 [] (fun l => l ++ [x.2]) })) s).modCrew c
      (fun x => { x with saved := [] })).passAll k.core


/-- The shadow bank of a core holds no context (R42). -/
def State.bankFree (s : State) (core : Nat) : Bool :=
  !(s.crews.any (fun e => e.2.core == core && (e.2.place == .shadow || e.2.place == .swapping)))

/-- A started command of a crew that has not ended (R343). -/
def State.cmdStarted (s : State) (c : Nat) : Bool :=
  match s.crew? c with
  | none => false
  | some k => (s.core k.core).queues.any (fun q => q.2.any (fun e => e.phase != 0 && e.cmds.any (fun x => x.crew == c)))

/-- A wave stands at a run boundary, or is blocked in a Muhan wait (R343). -/
def Wave.atBoundary (v : Wave) : Bool := v.run.isNone || v.wait.isSome

/-- Every crew of the group can leave its core now (R343). -/
def State.canLeave (s : State) (c : Nat) : Bool :=
  (s.together c).all (fun x =>
    (match s.crew? x with
      | some k => k.place == .resident && s.coreOpen k.core
      | none => false)
    && !s.cmdStarted x && (s.membersOf x).all (fun e => e.2.atBoundary && e.2.dbg.isNone))

/-- Take one crew off its core: to the shadow bank when it is free, or to the cave (R42, R299). -/
def State.takeOut (s : State) (c : Nat) : State :=
  match s.crew? c with
  | none => s
  | some k =>
    let pl := if k.part || s.bankFree k.core then Place.shadow else Place.cave
    let s1 := (s.saveCmds c).modCrew c (fun x => { x with place := pl, preempt := none, part := false })
    (s1.makeRunnable c).distEvent (coreDie k.core) 1 (k.core % 256) 1

/-- Deschedule a crew with its gang. -/
def State.deschedule (s : State) (c : Nat) : State := ((s.together c).foldl State.takeOut s).claimsChanged

/-- Every live member has been blocked in a Muhan wait, or suspended, for WAITSPIN cycles (R42, R403). -/
def State.spunOut (s : State) (c : Nat) : Bool :=
  (s.membersOf c).all (fun e =>
    e.2.suspended ||
    (e.2.wait.isSome &&
      s.cycles - e.2.blockedAt ≥ max 64 (((s.proc? e.2.proc).map (·.waitspin.toNat)).getD 4096)))

/-! ## Formation, membership, dissolution (R36, R37, R229) -/

/-- Remember a handle-less crew object (R286, R287). -/
def State.formCrew (s : State) (id proc core grans : Nat) (vt : Bool) (spawn : Nat) : State :=
  let slot := (s.freeCrewSlot core).getD 0
  let k : Crew := { proc := proc, core := core, slot := slot, grans := grans, validtrap := vt, spawn := BitVec.ofNat 16 spawn, place := .queued }
  (s.makeObj id kCREW proc).setCrew id k

/-- The lowest member index that no current member holds (R36, R227). -/
def Crew.freeMember (c : Crew) : Nat := (lowest 0 (fun n => (Tab.get? c.members n).isNone) 32).getD 0

/-- A wave becomes a member (R36). -/
def State.addMember (s : State) (c w : Nat) : State :=
  match s.crew? c with
  | none => s
  | some k =>
    let m := k.freeMember
    (s.setCrew c { k with members := Tab.set k.members m w }).modWave w (fun v => { v with crew := c, member := m })

/-- The release of every write of a task's waves at .pkg scope (R331 step 1): the write-backs of waves that are gone are counted against the
crew that dissolves, those of living waves against their own. -/
def State.taskRelease (s : State) (core crew : Nat) : State :=
  let n := s.nextAck
  let s1 := s.fenceRel core scPkg
  { s1 with acks := s1.acks.map (fun (e : Nat × Ack) => if n ≤ e.1 && e.2.crew == 0 then (e.1, { e.2 with crew := crew }) else e) }

/-- A crew that dissolves leaves its gang as a LEAVE does: after its matrix commands that are still to be performed (R261, R267). -/
def State.quitGang (s : State) (c : Nat) (k : Crew) : State :=
  match s.gangOf c with
  | none => s
  | some (key, g) =>
    let (num, s1) := s.takeNum
    if !g.formed || !(s.partsBefore c num) then s.leaveGang c
    else
      let by_ : Issuer := { wave := 0, wgen := 0, crew := c, cgen := 0, proc := k.proc, core := k.core, wslot := 0, pc := 0, launch := 0, block := 0, thread := 0 }
      (s1.keepStore c k key g).1.enqueueCmd k.core 2 { cmds := [{ by_ := by_, op := .leave, crew := c }], num := num }

/-- The crew dissolves: its slot, allocation and holdings are freed, and a task is complete (R36, R229, R245, R330). -/
def State.dissolve (s : State) (c : Nat) : State :=
  match s.crew? c with
  | none => s
  | some k =>
    let s0 := (s.restoreCmds c).quitGang c k
    let k0 := (s0.crew? c).getD k
    let s1 := k0.slots.foldl (fun s e => s.dropStore k.core e.2 false) s0
    let s2 := k0.accs.foldl (fun s e => s.dropStore k.core e.2 true) s1
    let s3 : State := { s2 with crews := Tab.del s2.crews c, runq := s2.runq.filter (· != c) }
    let s4 := match k.task with
      | none => s3
      | some t => (s3.taskRelease k.core c).send [.taskComplete t.die t.kind t.ix t.node t.succ k.proc c]
    ((((s4.sweepStore k.core).distEvent (coreDie k.core) 1 (k.core % 256) 0).claimsChanged).partitionIn (coreCluster k.core)).reap c 64

/-- A wave leaves its crew (R229): its step groups, pending bits and membership go; the last one dissolves the crew. -/
def State.leaveCrew (s : State) (w : Nat) : State :=
  match s.wave? w with
  | none => s
  | some v =>
    let c := v.crew
    let s1 := (s.leaveGroups w c).modWave w (fun x => { x with pend := [] })
    let s2 := s1.modCrew c (fun k => { k with members := k.members.filter (fun e => e.2 != w) })
    if ((s2.crew? c).map (·.members.isEmpty)).getD false then s2.dissolve c else s2.pruneRunq

/-! ## wv.yield (R297) -/

/-- A runnable crew of at least the issuing crew's priority that fits only in the space that crew holds. -/
def State.yieldTo (s : State) (c : Nat) : Bool :=
  match s.crew? c with
  | none => false
  | some k =>
    (s.runq.any (fun x => match s.crew? x with
      | some y => y.core == k.core && s.crewPrio x ≥ s.crewPrio c && (s.fitCrew x []).isNone && (s.fitCrew x (s.together c)).isSome
      | none => false))

/-- It joins the tail of its priority level at the next run boundaries (16: no pre-emption reason). -/
def State.yieldCrew (s : State) (w : Nat) : State :=
  match s.wave? w with
  | none => s
  | some v => if s.yieldTo v.crew then (s.together v.crew).foldl (fun s c => s.modCrew c (fun k => { k with preempt := some 16 })) s else s

end Sys2Proof.Machine
end

