-- ==== Sys2Proof/Machine/Debug.lean ====
section
/-!
DEFINITION. Sys2Proof/Machine/Debug.lean: the ready batch of a wave, debug entry and its report, the stop of a core or cluster
(spec/02_execution_model.md R24, R25, spec/18_debug_and_profiling.md R365-R371).
-/

namespace Sys2Proof.Machine

/-! ## The next batch (R24, R25) -/

/-- Lanes that may start a run: in debug and trap mode those of the entering batch that no hold of the handler holds, else those that
are not held (R24, R35, R366, R394, R397, R417). -/
def Wave.readyLanes (v : Wave) : W64 :=
  match v.dbg with
  | some d => d.mask &&& v.live &&& ~~~(v.heldIn 2)
  | none => if v.inTrap then v.trapMask &&& v.live &&& ~~~v.rfeMask &&& ~~~(v.heldIn 1) else v.live &&& ~~~v.heldLanes

def Wave.pcOf (v : Wave) (lane : Nat) : BitVec 48 := ((v.fibre? lane).map (·.pc)).getD 0#48

/-- The batch of the next run: the lowest PC above the start of the last run, else the lowest PC (R25). -/
def Wave.nextBatch (v : Wave) : Option (W64 × BitVec 48) :=
  let pcs := (lanesOf v.readyLanes v.width).map (fun l => (v.pcOf l).toNat)
  let pick := match minList (pcs.filter (fun p => v.lastStart.toNat < p)) with
    | some p => some p
    | none => minList pcs
  pick.map (fun p => (maskOf ((lanesOf v.readyLanes v.width).filter (fun l => (v.pcOf l).toNat == p)), va p))

/-! ## Debug entry (R365, R366) -/

/-- What the report says besides the entering batch (R366). -/
structure Report where
  cause : Nat
  index : Nat := 0
  matched : Nat := 0
  remote : Bool := false
  core : Nat := 0
  launch : Nat := 0
  block : Nat := 0
  thread : Nat := 0
  addr : Nat := 0
  kind : Nat := 0
  deriving DecidableEq, Repr

/-- Ask for a stop on a core (R369). A wider stop absorbs a narrower one. -/
def State.askStop (s : State) (core : Nat) (crew : Option Nat) (limit : Nat) (here : Bool) : State :=
  let base := (s.waves.filter (fun e => s.coreOf e.2 == core)).map (fun e => (e.1, e.2.issues))
  (s.modCore core (fun k =>
    { k with stop := some (match k.stop with
        | some q => { q with crew := if q.crew == crew then crew else none, here := q.here || here }
        | none => { crew := crew, base := base, limit := limit, here := here }) })).send [.stopEffect core]

/-- The waves that a debug entry stops: the partners at most three issues later, the cluster's other cores seven (R366, R369). -/
def State.askStops (s : State) (v : Wave) (cluster : Bool) : State :=
  let core := s.coreOf v
  let s1 := s.askStop core (if cluster then none else some v.crew) 3 true
  if cluster then
    ((List.range 16).map (fun i => coreCluster core * 16 + i)).foldl (fun s c => if c = core then s else s.askStop c none 7 false) s1
  else s1

/-- The handler is entered (R366): the run is frozen, s60-s63 are saved, the report is written, the partners stop. -/
def State.enterDebug (s : State) (w : Nat) (v : Wave) (lanes : W64) (retPc : BitVec 48) (frozen : Option Run) (held : Bool)
    (r : Report) (cluster : Bool) : State :=
  let core := s.coreOf v
  let d := s.dieOf v
  let (q, s1) := s.takeSeq d
  let lane := lowLane lanes
  let ctx : DebugCtx := { mask := lanes, retPc := retPc, held := held, frozen := frozen, s60 := v.sreg 60, s61 := v.sreg 61, s62 := v.sreg 62, s63 := v.sreg 63 }
  let base := va (bits (s.dreg core 1).toNat 47 2 * 4)
  let s2 := s1.setWave w { (v.enterAt lanes base) with dbg := some ctx, run := none, stepState := 0 }
  let rep : List (Nat × Nat) :=
    [(0x30, packFields [(r.cause, 0, 4), (b2n held, 4, 1), (r.index, 8, 8), (r.matched, 16, 8)])
     , (0x31, retPc.toNat)
     , (0x32, packFields [(v.launch.toNat, 0, 32), (v.block.toNat, 32, 32)])
     , (0x33, packFields [(v.threadOf lane, 0, 16), (b2n r.remote, 16, 1), (r.core, 17, 11), (r.launch, 32, 32)])
     , (0x34, packFields [(r.block, 0, 32), (r.thread, 32, 16)])
     , (0x35, packFields [(r.addr, 0, 48), (r.kind, 48, 3)])
     , (0x36, packFields [(s.tickOf d, 0, 48), (q, 48, 16)])]
  let s3 := rep.foldl (fun s e => s.setDreg core e.1 (BitVec.ofNat 64 e.2)) s2
  s3.askStops v cluster

/-- A trigger that finds another wave of the core in debug mode is suppressed and counted (R365). -/
def State.suppress (s : State) (core : Nat) : State :=
  let x := (s.dreg core 2).toNat
  s.setDreg core 2 (BitVec.ofNat 64 (mergeBits x (min 255 (bits x 15 8 + 1) * 2 ^ 8) 0xFF00))

/-- A trigger other than BRK: entered, suppressed and counted, or not enabled (R365). -/
def State.tryDebug (s : State) (w : Nat) (v : Wave) (lanes : W64) (retPc : BitVec 48) (frozen : Option Run) (held : Bool)
    (r : Report) (cluster : Bool) : State :=
  let core := s.coreOf v
  if !s.dbgEn core || v.dbg.isSome then s
  else if otherInDebug s w core then s.suppress core
  else s.enterDebug w v lanes retPc frozen held r cluster

/-- Who would enter now (R368, R370): the open run's batch; a batch parked in a Muhan wait; the run to be continued; the batch R25
chooses; a held batch. None: a run waits for its results. -/
def Wave.entrant (v : Wave) : Option (W64 × BitVec 48 × Option Run × Bool) :=
  match v.run with
  | some r =>
    if !r.ended then some (r.mask &&& v.live, r.pc, if r.issued = 0 then none else some r, false)
    else if v.wait.isSome then some (r.mask &&& v.live, r.pc, some r, true)
    else none
  | none => match v.resume with
    | some r => some (r.mask &&& v.live, r.pc, some r, false)
    | none => match v.nextBatch with
      | some (m, pc) => some (m, pc, none, false)
      | none => match v.held with
        | [] => none
        | h :: _ => some (h.lanes, v.pcOf (lowLane h.lanes), none, true)

/-! ## Comparators (R365) -/

/-- The comparators that match the instruction a wave is about to issue. -/
def State.bpcHits (s : State) (v : Wave) (r : Run) : List Nat :=
  let core := s.coreOf v
  if !s.dbgEn core || v.dbg.isSome || v.skipBpc || r.ended then []
  else
    match s.crew? v.crew with
    | none => []
    | some k =>
      (List.range 8).filter (fun i =>
        let a := (s.dreg core (8 + i)).toNat
        let q := (s.dreg core (0x18 + i)).toNat
        bitOf a 0 && bits a 47 2 * 4 == r.pc.toNat && (s.dreg core (0x10 + i)).getLsbD k.slot &&
        (!bitOf q 0 || (match k.task with
          | some t => if bitOf q 11 then t.kind == 1 && bits q 4 1 == t.ix else t.kind == 0 && bits q 10 1 == t.ix
          | none => false)))

/-! ## The stop takes effect (R369, R375) -/

/-- SKID[w] (R369). -/
def skidWord (v : Wave) (skid : Nat) (slot : Nat) : W64 :=
  let isOpen := match v.run with | some r => !r.ended && r.issued != 0 | none => false
  BitVec.ofNat 64 (packFields
    [(skid, 0, 8), (b2n isOpen, 9, 1), (v.member, 13, 5), (slot, 18, 6), (v.launch.toNat, 32, 32)])

/-- Stop one wave. The wave in debug mode keeps running with skid 0. -/
def State.stopWave (s : State) (core : Nat) (q : StopReq) (w : Nat) (v : Wave) : State :=
  let slot := ((s.crew? v.crew).map (·.slot)).getD 0
  if v.dbg.isSome then s.setDreg core (0x40 + v.wslot) (skidWord v 0 slot)
  else if q.crew == none || q.crew == some v.crew then
    (s.setDreg core (0x40 + v.wslot) (skidWord v (v.issues - Tab.getD q.base w v.issues) slot)).modWave w (fun x => { x with stopped := true })
  else s

/-- R369: freezes the waves of the core, writes SKID, and pulls the snapshot trigger where SNAPSTOP is set (R375). -/
def execStopEffect (core : Nat) (s : State) : Host.Outcome State Fault Refusal :=
  match (s.core core).stop with
  | none => .next s
  | some q =>
    let s1 := (s.waves.filter (fun e => !e.2.dead && s.coreOf e.2 == core && s.isResident e.2)).foldl (fun s e => s.stopWave core q e.1 e.2) s
    let s2 := s1.modCore core (fun k => { k with stop := none, stopped := true })
    .next (if q.here && (s.dreg core 0).getLsbD 2 then s2.send ((List.range 8).map Instr.snapshotLatch) else s2)

/-- Release waves of a core; with none left stopped, no stop is in force on it. -/
def State.releaseStop (s : State) (core : Nat) (sel : Wave → Bool) : State :=
  let s1 : State := { s with waves := s.waves.map (fun (e : Nat × Wave) =>
    if e.2.stopped && s.coreOf e.2 == core && sel e.2 then (e.1, { e.2 with stopped := false }) else e) }
  if s1.waves.any (fun e => e.2.stopped && s1.coreOf e.2 == core) then s1 else s1.modCore core (fun k => { k with stopped := false })

/-- R363: STOPREL releases the stop on every core of the cluster. -/
def State.stopRel (s : State) (core : Nat) : State :=
  ((List.range 16).map (fun i => coreCluster core * 16 + i)).foldl (fun s c => s.releaseStop c (fun _ => true)) s

end Sys2Proof.Machine
end

