-- ==== Sys2Proof/Machine/Life.lean ====
section
/-!
DEFINITION. Sys2Proof/Machine/Life.lean: the end of fibres and waves, the end of a run, held deadlocks, the return from the handlers, and
the start of a run (spec/02_execution_model.md R23-R31, spec/14_muhan_hardware_kernel.md R294, R297,
spec/21_fault_architecture.md R392, R397, R489, spec/22_execution_and_instruction_faults.md R422-R424).
-/

namespace Sys2Proof.Machine

/-! ## The end of a wave (R23, R293, R297, R445) -/

/-- A class-0 record of a refusal that no batch can take any more (R489). -/
def State.goneRecord (s : State) (v : Wave) (r : LateFault) : State :=
  s.sendRecord (s.dieOf v) v.proc
    { s.waveRec v r.trap.lane r.trap.cause r.trap.sub 0 0 with
      pc := r.pc.toNat, val := r.trap.tval.toNat, lanes := r.trap.lanes.toNat, word := r.word.toNat, xword := r.x1.toNat }

/-- Slots of a process that hold an object's handle. -/
def State.slotsOf (s : State) (p id : Nat) : List Nat :=
  (((s.proc? p).map (·.handles)).getD []).filterMap (fun e =>
    if hId e.2.handle == id && !(s.foreign e.2.handle) && !(s.stale e.2.handle) then some e.1 else none)

/-- Refusals on their way to a wave that ends are reported as those it holds (R489). -/
def lateOf (r : Refused) : LateFault :=
  { seq := r.order, trap := { cause := r.cause, sub := r.sub, tval := r.tval, lanes := r.lanes }, pc := r.pc, word := r.word, x1 := r.x1, x2 := r.x2 }

def refusalsFor (w : Nat) (l : List Instr) : List LateFault :=
  l.filterMap (fun m => match m with
    | .writeRefusalArrival x _ r => if x = w then some (lateOf r) else none
    | _ => none)

def dropRefusals (w : Nat) (l : List Instr) : List Instr :=
  l.filter (fun m => match m with
    | .writeRefusalArrival x _ _ => x != w
    | _ => true)

/-- A wave leaves every queue in which it waits. -/
def State.unwait (s : State) (w : Nat) : State :=
  { s with
    ports := s.ports.map (fun e => (e.1, { e.2 with waiters := e.2.waiters.filter (· != w) }))
    wsets := s.wsets.map (fun e => (e.1, { e.2 with waiters := e.2.waiters.filter (· != w) }))
    futures := s.futures.map (fun e => (e.1, e.2.filter (· != w)))
    claims := s.claims.filter (fun e => e.1 != w) }

/-- The waves that join a wave are woken; the return is an acquire (R202, R297). -/
def State.wakeJoiners (s : State) (w : Nat) : State :=
  s.waves.foldl (fun s e =>
    match e.2.wait with
    | some (.join x slot seq d) =>
      if x = w then (s.wake e.1 seq (sOut d stOK)).acqObj e.2 scPkg { kind := 6, ident := slot } else s
    | _ => s) s

/-- The wave is dead (R294). -/
def Wave.bury (v : Wave) : Wave :=
  { v with
    dead := true, fibres := [], run := none, held := [], instances := [], inTrap := false, frozen := none, resume := none, dbg := none
    killed := false, wait := none, refusals := [], polls := [], pull := none, suspended := false, stopped := false, heldLocks := [], lockReqs := 0, lkPending := [], arriving := [] }

/-- The write-backs of the release of a wave that ends (R202, R203): of the regions bound to it. -/
def State.endRelease (s : State) (w : Nat) : State :=
  match s.wave? w with
  | none => s
  | some v => (s.slotsOf v.proc w).foldl (fun s n => s.relObj v scPkg { kind := 6, ident := n }) s

/-- A wave ends: its release, its held refusals, its locks, its crew, its joiners (R23, R202, R445, R489). -/
def State.endWave (s : State) (w reason : Nat) : State :=
  match s.wave? w with
  | none => s
  | some v =>
    if v.dead then s
    else
      let s0 := s.endRelease w
      let s1 := (v.refusals ++ refusalsFor w s0.inflight).foldl (fun s r => s.goneRecord v r)
        { s0 with inflight := dropRefusals w s0.inflight }
      let s2 := ((s1.breakAll w v reason).unwait w).claimsChanged
      let s3 := (s2.leaveCrew w).modWave w Wave.bury
      ((s3.wakeJoiners w).wsReady (.obj w kWAVE)).reap w 64

/-- A wave that KILL names (R308): its fibres end, and the wave ends when its release is complete, as at wv.exit (R203, R297). -/
def State.killWave (s : State) (w : Nat) : State :=
  let s1 := s.endRelease w
  if s1.relReady w then s1.endWave w 1
  else (s1.unwait w).modWave w (fun v =>
    { v with killed := true, fibres := [], run := none, resume := none, frozen := none, dbg := none, held := [], instances := [], polls := [], pull := none })

/-- A killed wave whose release is complete. -/
def State.killOver (s : State) (w : Nat) (v : Wave) : Bool := v.killed && !v.dead && s.relReady w

/-- Held batches whose condition may have come true, and a pending step (R35, R115, R234). -/
def State.settleWave (s : State) (w : Nat) : State :=
  match s.wave? w with
  | none => s
  | some v => (s.setWave w v.settle).stepTests v.crew

/-- Words of an instruction by its first words; 1 where they are no instruction. -/
def siteLen (t : TrapFrame) : Nat :=
  match decode (BitVec.ofNat 32 t.tword.toNat) (BitVec.ofNat 32 (t.tword.toNat / 2 ^ 32)) (BitVec.ofNat 32 t.txword.toNat) with
  | .ok i => (encode i).length
  | .error _ => 1

/-- The frozen run as it goes on (R397): a skipped instruction counts as issued, and ends the run if it carries S. -/
def Wave.thaw (v : Wave) (r : Run) : Wave :=
  let t := v.frame
  let r1 := { r with pc := t.tepc, mask := r.mask &&& v.live }
  if t.tfpc.toNat + 4 * siteLen t ≤ t.tepc.toNat then
    let (v', r2) := countIssue v r1
    { v' with resume := some { r2 with issued := r2.issued + 1, ended := t.tword.getLsbD 30 && bits t.tword.toNat 29 28 == 0 } }
  else { v with resume := some r1 }

/-- Lanes reach an rfe in trap mode; when every live entered fibre stands at one, the wave returns (R397). -/
def Wave.rfeTrap (v : Wave) (lanes : W64) : Wave :=
  let at_ := v.rfeMask ||| lanes
  if (v.trapMask &&& v.live &&& ~~~at_) == 0#64 then
    let v1 := (v.enterAt (v.trapMask &&& v.live) v.frame.tepc).leaveTrap
    match v1.frozen with
    | some r => Wave.thaw { v1 with frozen := none } r
    | none => v1
  else { v with rfeMask := at_ }

/-- Fibres that entered the handler have ended there (R397): a later fibre of their lane has not entered. With none left, trap mode ends
and the frozen run is discarded; with all that are left at an rfe, the wave returns. -/
def Wave.trapEnded (v : Wave) (lanes : W64) : Wave :=
  if !v.inTrap then v
  else
    let v1 := { v with trapMask := v.trapMask &&& ~~~lanes, rfeMask := v.rfeMask &&& ~~~lanes }
    if (v1.trapMask &&& v1.live) == 0#64 then { v1.leaveTrap with frozen := none }
    else v1.rfeTrap 0

/-- Fibres end: their lanes are free and leave the masks (R23, R135). -/
def State.endFibres (s : State) (w : Nat) (lanes : W64) : State :=
  match s.wave? w with
  | none => s
  | some v =>
    let v1 : Wave :=
      { v with
        fibres := v.fibres.filter (fun e => !lanes.getLsbD e.1)
        masks := v.masks.map (fun e => (e.1, e.2 &&& ~~~lanes))
        dbg := v.dbg.map (fun d => { d with mask := d.mask &&& ~~~lanes }) }
    if v1.fibres.isEmpty then (s.setWave w v1).endWave w 0
    else (s.setWave w (v1.trapEnded lanes)).settleWave w

/-! ## Deadlocks among held batches (R422-R424) -/

/-- Every live fibre is held at a cross-lane instance or at a mask (R422). -/
def Wave.allHeld (v : Wave) : Bool :=
  v.live != 0#64 && (v.live &&& ~~~v.heldLanes) == 0#64 &&
  v.held.all (fun h => match h.on with | .crossLane => true | .maskWait _ => true | _ => false)

/-- The test of R422, and entry by the batch that R423 or R424 names. -/
def State.deadTest (s : State) (w : Nat) : State :=
  match s.wave? w with
  | none => s
  | some v =>
    if v.dead || v.stopped || v.suspended || v.inTrap || v.dbg.isSome || v.run.isSome || v.resume.isSome || !s.isResident v || !v.allHeld then s
    else if v.held.any (fun h => h.on == .crossLane) then
      (match v.instances.dropWhile (fun i => (maskOf (i.arrived.map (·.lane)) &&& v.live) == 0#64) with
       | [] => s
       | i :: rest =>
         let got := maskOf (i.arrived.map (·.lane)) &&& v.live
         match v.held.find? (fun h => h.on == .crossLane && h.site.pc == i.pc) with
         | none => s
         | some h =>
           let v1 := { (v.dropCross i.pc got) with instances := rest }
           s.deliverTrap w v1 { cause := cXLDEAD, sub := 0, tval := i.members, lanes := i.members &&& v.live &&& ~~~got } got h.site i.pc none 0 false)
    else
      match (List.range 12).find? (fun k => v.heldOn k != 0#64) with
      | none => s
      | some k =>
        let hs := v.held.filter (fun h => h.on == .maskWait k)
        match minBy (fun h => h.site.pc.toNat) hs with
        | none => s
        | some h =>
          let mine := hs.filter (fun x => x.site.pc == h.site.pc)
          let lanes := mine.foldl (fun m x => m ||| x.lanes) 0#64
          let v1 := { v with held := v.held.filter (fun x => !mine.contains x) }
          s.deliverTrap w v1 { cause := cMKDEAD, sub := k, tval := v.mask k, lanes := v.mask k &&& v.live &&& ~~~(v.heldOn k) } lanes h.site h.site.pc none 0 false

/-! ## Return from the handlers (R149, R366, R397) -/

/-- rfe from debug mode (R366, R370). -/
def State.rfeDebug (s : State) (w : Nat) (v : Wave) (d : DebugCtx) : State :=
  let v1 := (v.enterAt (d.mask &&& v.live) d.retPc)
  let v2 := (((v1.setSreg 60 d.s60).setSreg 61 d.s61).setSreg 62 d.s62).setSreg 63 d.s63
  let v3 := { v2 with dbg := none, skipBpc := true, stepState := b2n ((s.dreg (s.coreOf v) 0).getLsbD 0) }
  s.setWave w (match d.frozen with
    | some r => if r.ended then { v3 with run := some r } else { v3 with resume := some { r with pc := d.retPc } }
    | none => v3)

/-! ## The end of a run (R28-R31, R392) -/

/-- Everything the run waits for has come (R31, R167, R227, R241). -/
def State.closable (s : State) (w : Nat) (v : Wave) (r : Run) : Bool :=
  r.ended && r.pending.all (fun x => x.left.isSome || (x.back && x.ready))
  && (!r.waitAck || (v.ackcnt == 0 && !(s.inflight.any (fun m => match m with | .writeRefusalArrival x _ _ => x == w | _ => false))))
  && r.waitZlr.isEmpty
  && (!r.waitHeld || s.writesDone w)
  && (match r.onEnd with
      | .crewJoin _ _ _ _ => v.tokensZero 0xFF && s.writesDone w
      | .crewLeave => v.tokensZero 0xFF && s.writesDone w && (s.freeEntry (s.dieOf v)).isSome
      | .brk _ => !r.late.isEmpty || !(otherInDebug s w (s.coreOf v))
      | .waveExit => s.relReady w
      | .fibEnd => (v.live &&& ~~~r.mask) != 0#64 || s.relReady w
      | _ => true)

/-- Results of lanes that faulted keep their old values: their writes were never added; the rest commits, PCs and windows move, and
the run is gone (R28-R32, R122, R123). -/
def Wave.finishRun (v : Wave) (r : Run) : Wave :=
  let (v1, r1) := commitAll v r
  let lanes := lanesOf (r1.mask &&& v1.live) v1.width
  let v2 := lanes.foldl (fun v l => v.modFibre l (fun f =>
    { f with pc := Tab.getD r1.targets l r1.pc, winBase := Tab.getD r1.winNext l f.winBase })) v1
  { v2 with run := none, lastStart := r1.start, lockReqs := v2.lockReqs - r1.lkDone }

/-- The first completion fault in program order (R392). -/
def Run.firstLate (r : Run) : Option LateFault := minBy (fun l => l.seq) r.late

/-- What the last instruction does to its batch when the run has ended. -/
def State.applyEnd (s : State) (w : Nat) (lanes : W64) (r : Run) (moveCrew : State → Nat → OnEnd → State) : State :=
  match r.onEnd with
  | .go => s
  | .fibEnd => s.endFibres w lanes
  | .spawn l => s.modWave w (fun v => v.clearMasks l)
  | .waveExit => s.endWave w 0
  | .yield => s.yieldCrew w
  | .fence sc => (match s.wave? w with
    | some v => s.fenceAcq (s.coreOf v) sc
    | none => s)
  | .crewJoin a b c d => moveCrew s w (.crewJoin a b c d)
  | .crewLeave => moveCrew s w .crewLeave
  | .swTrap _ => s
  | .brk _ => s
  | .rfe => s
  | on => s.beginHold w lanes r.site on

/-- The handler that the run's end enters: the first completion fault, or its record where the wave `was` has gone; else trap n, brk or
rfe (R147-R149, R392, R489). -/
def State.applyEntry (s : State) (w : Nat) (was : Wave) (r : Run) : State :=
  match s.wave? w with
  | none => (match r.firstLate with | some l => s.goneRecord was l | none => s)
  | some v =>
    let lanes := r.mask &&& v.live
    match r.firstLate with
    | some l =>
      if v.dead then s.goneRecord v l
      else if lanes = 0#64 then s.setWave w { v with refusals := v.refusals ++ [l] }
      else s.lateTrap w v lanes l (v.pcOf (lowLane lanes))
    | none =>
      match r.onEnd with
      | .swTrap n => s.softTrap w v lanes n r.site
      | .brk n => s.enterDebug w v lanes (r.site.pc + 4#48) none false { cause := 2, index := n } false
      | .rfe => (match v.dbg with
        | some d => s.rfeDebug w v d
        | none => s.setWave w (v.rfeTrap lanes))
      | _ => s

/-- A local watchpoint hit enters after the run's results have committed (R368). -/
def State.applyWatch (s : State) (w : Nat) (r : Run) : State :=
  match r.watch, s.wave? w with
  | (i, a, lane) :: _, some v =>
    let lanes := r.mask &&& v.live
    if v.dead || lanes = 0#64 then s
    else
      let core := s.coreOf v
      s.tryDebug w v lanes (v.pcOf (lowLane lanes)) none ((lanes &&& v.heldLanes) != 0#64)
        { cause := 3, index := i, core := core, launch := v.launch.toNat, block := v.block.toNat, thread := v.threadOf lane
          addr := bits a.toNat 47 0, kind := bits a.toNat 50 48 } ((s.dreg core (0x24 + i)).getLsbD 1)
  | _, _ => s

/-- Close a run. -/
def State.closeRun (s : State) (w : Nat) (v : Wave) (r : Run) (moveCrew : State → Nat → OnEnd → State) : State :=
  let lanes := r.mask &&& v.live
  let s1 := s.setWave w (v.finishRun r)
  let s2 := s1.applyEnd w lanes r moveCrew
  let s3 := (s2.applyEntry w v r).applyWatch w r
  (s3.settleWave w).deadTest w

/-! ## The start of a run (R24, R25, R489) -/

/-- A wave may start a run: resident, at a boundary, neither stopped, suspended nor pre-empted (R39, R343, R369, R403). -/
def State.mayStart (s : State) (v : Wave) : Bool :=
  !v.dead && v.run.isNone && !v.stopped && (!v.suspended) && s.isResident v
  && (match s.crew? v.crew with | some k => k.preempt.isNone | none => false)
  && (s.together v.crew).all (fun c => match s.crew? c with | some k => k.place == .resident | none => false)

/-- A held refusal is taken by the batch that R25 chooses (R489). -/
def State.takeRefusal (s : State) (w : Nat) (v : Wave) : Option State :=
  if v.inTrap || v.dbg.isSome then none
  else match minBy (fun l => l.seq) v.refusals, v.nextBatch with
    | some l, some (lanes, pc) =>
      some (s.deliverTrap w { v with refusals := v.refusals.filter (· != l) } l.trap lanes { pc := l.pc, word := l.word, x1 := l.x1, x2 := l.x2 } pc none 0 false)
    | _, _ => none

/-- The batch that enters the handler once the stepped instruction has issued (R370). None: not yet possible. -/
def Wave.stepper (v : Wave) : Option (W64 × BitVec 48 × Option Run × Bool) :=
  let held := match v.held.getLast? with
    | some h => if v.run.isNone && h.site.pc == v.lastPc then some h else none
    | none => none
  match held with
  | some h => some (h.lanes, v.pcOf (lowLane h.lanes), none, true)
  | none => v.entrant

/-- The handler is entered again (R370). Where the entry is suppressed or not enabled the step is over. -/
def State.stepEntry (s : State) (w : Nat) (v : Wave) : Option State :=
  let v1 := { v with stepState := 0 }
  v.stepper.map (fun (lanes, pc, fr, hd) => (s.setWave w v1).tryDebug w v1 lanes pc fr hd { cause := 4 } false)

/-- The next run of a wave (R24, R25): the frozen run goes on, a held refusal is taken, or the batch of R25 starts. -/
def State.startRun (s : State) (w : Nat) (v : Wave) : State :=
  match v.resume with
  | some r => s.setWave w { v with run := some r, resume := none }
  | none => match s.takeRefusal w v with
    | some s1 => s1
    | none => match v.nextBatch with
      | none => s
      | some (lanes, pc) => s.setWave w { v with run := some { mask := lanes, start := pc, pc := pc, first := v.issues } }

end Sys2Proof.Machine
end

