-- ==== Sys2Proof/Machine/CrewMove.lean ====
section
/-!
DEFINITION. Sys2Proof/Machine/CrewMove.lean: crew.join and crew.leave, and the Muhan unit's placement, descheduling, restoring and ageing of crews
(spec/11_crews_step_planes_line_locks.md R227-R229, spec/14_muhan_hardware_kernel.md R298-R300,
spec/16_work_distribution.md R340, R343, spec/24_kernel_scheduler_host_and_ras_faults.md R454, R464).
-/

namespace Sys2Proof.Machine

/-! ## Joining and leaving (R227-R229) -/

/-- A wave that stays resident on its core keeps its rows and its wave slot (R19). -/
def State.keepRows (s : State) (w : Nat) (v : Wave) : State :=
  s.modWave w (fun x => { x with wslot := v.wslot, firstQuad := v.firstQuad, firstRow := v.firstRow })

/-- Form a crew for a wave that is in none (R227): on the first core where the slot, the allocation and the rows fit, or else without a
core, runnable and not resident until one fits. `move`: the wave comes from the core. A suspended wave is not placed (R294). -/
def State.newCrewFor (s : State) (w id core grans : Nat) (vt move : Bool) : State :=
  match s.wave? w with
  | none => s
  | some v =>
    let s1 := ((s.formCrew id v.proc core grans vt v.width).addMember id w).modCrew id (fun k => { k with floating := true, moved := move })
    if v.suspended then s1
    else match (crewCores core).findSome? (s1.landOn id) with
      | some s2 =>
        if move && ((s2.crew? id).map (·.core)) == some core then ((s2.modCrew id (fun k => { k with moved := false })).bringIn id).keepRows w v
        else (if move then s2.fenceRel core scDie else s2).bringIn id
      | none => (if move then s1.fenceRel core scDie else s1).makeRunnable id

/-- Whether a creating instruction of a process is refused with QUOTA (R454); `crew_` also asks for a tenant-limit entry. -/
def State.quota (s : State) (d p : Nat) (crew_ : Bool) : Bool :=
  (s.freeEntry d).isNone || ((s.proc? p).map (·.contained)).getD true || (crew_ && (s.limit d (s.tenantOf p)).isNone)

/-- A new crew is asked for (R227): with its handle in a slot, unless a status refuses it. -/
def State.joinNewCrew (s : State) (w : Nat) (v : Wave) (grans : Nat) (vt : Bool) (r : Nat) : State :=
  let core := s.coreOf v
  let d := coreDie core
  let answer := fun (st : Nat) => s.modWave w (fun x => x.setSreg r (s.joinWord w st 0))
  match s.emptySlot v.proc with
  | none => answer stFULL
  | some slot =>
    if s.quota d v.proc true then answer stQUOTA
    else match s.freeEntry d with
      | none => answer stQUOTA
      | some id =>
        let s1 := (s.makeObj id kCREW v.proc).putSlot v.proc slot (mkHandle (s.nodeId d) id kCREW (s.obj id).gen) rightsNew
        let s2 := (s1.leaveCrew w).recheck w
        let s3 := (s2.newCrewFor w id core grans vt true).modObj id (fun o => { o with refs := (s2.obj id).refs })
        if ((s3.crew? id).map (·.floating)).getD false then s3.modCrew id (fun k => { k with answer := some (w, r, slot) })
        else s3.modWave w (fun x => x.setSreg r (s3.joinWord w stOK slot))

/-- Rows and a wave slot for a wave on the core of a crew that it joins (R227, R228): its own where it stays on its core, none where the crew
has no core yet; no value where the core lacks them. -/
def State.rowsFor (s : State) (w : Nat) (v : Wave) (k : Crew) : Option (Nat × RowUse) :=
  if k.floating || (k.core = s.coreOf v && k.place == .resident) then some (v.wslot, v.rowUse)
  else
    let there := (s.coreWaves k.core []).filter (fun e => e.1 != w)
    match fitWaves (there.map (fun e => e.2.rowUse)) (there.map (fun e => e.2.wslot)) [(w, v)] with
    | some ((_, ws, ru) :: _) => some (ws, ru)
    | _ => none

/-- An existing crew is named (R227): the wave migrates to it, unless a status refuses it. -/
def State.joinOldCrew (s : State) (w : Nat) (v : Wave) (t slot r : Nat) : State :=
  let core := s.coreOf v
  let answer := fun (s : State) (st n : Nat) => s.modWave w (fun x => x.setSreg r (s.joinWord w st n))
  match s.crew? t with
  | none => answer s stSTALE 0
  | some k =>
    if t = v.crew then answer s stOK slot
    else if k.members.length ≥ 32 then answer s stFULL 0
    else match s.rowsFor w v k with
      | none => answer s stBUSY 0
      | some (ws, ru) =>
        let s1 := ((s.leaveCrew w).recheck w).addMember t w
        let s2 := s1.modWave w (fun x => { x with wslot := ws, firstQuad := ru.quad, firstRow := ru.row })
        let s3 := if k.core = core then s2 else s2.moveFence core k.core
        if k.floating then (s3.modCrew t (fun x => { x with moved := true })).makeRunnable t |> fun s4 => answer s4 stOK slot
        else answer (s3.makeRunnable t) stOK slot

/-- A crew of one for a wave that leaves its crew (R229). The instruction waits until the table has an entry (R31, log 24). -/
def State.leaveForNew (s : State) (w : Nat) (v : Wave) : State :=
  let core := s.coreOf v
  match s.freeEntry (coreDie core) with
  | none => s
  | some id =>
    let vt := ((s.crew? v.crew).map (·.validtrap)).getD false
    (((s.makeObj id kCREW v.proc).leaveCrew w).recheck w).newCrewFor w id core 1 vt true

/-- The tokens read zero: leave, then join (R227 steps 3 and 4). -/
def moveCrew (s : State) (w : Nat) (on : OnEnd) : State :=
  match s.wave? w with
  | none => s
  | some v =>
    match on with
    | .crewJoin none grans vt r => s.joinNewCrew w v grans vt r
    | .crewJoin (some (t, slot)) _ _ r => s.joinOldCrew w v t slot r
    | .crewLeave => s.leaveForNew w v
    | _ => s

/-- R227: checks at issue; the move when every token of the wave reads zero. -/
def execCrewJoin (f : GR) (s : State) : Host.Outcome State Fault Refusal :=
  issue (.crewJoin f) (fun c st =>
    let b := (readB c f).toNat
    let slot := bits (readA c f).toNat 11 0
    let out := fun (x : W64) => Iss.ok { s := st, writes := [{ loc := .s f.d.toNat, val := x }] }
    if bitOf b 7 then out (st.joinWord c.w stOK 0)
    else if slot = 0 then .ok { s := st, onEnd := .crewJoin none (bits b 5 0 + 1) (bitOf b 6) f.d.toNat }
    else match st.checkSlot c.v.proc slot [kCREW] rtCTRL with
      | .error e => out (st.joinWord c.w e 0)
      | .ok h =>
        if (st.crew? (hId h)).isNone then out (st.joinWord c.w stSTALE 0)
        else .ok { s := st, onEnd := .crewJoin (some (hId h, slot)) 1 false f.d.toNat }) s
/-- R229. -/
def execCrewLeave (f : GR) (s : State) : Host.Outcome State Fault Refusal :=
  issue (.crewLeave f) (fun _ st => .ok { s := st, onEnd := .crewLeave }) s

/-! ## Descheduling, migration, placement (R42, R298-R300, R340, R343) -/

/-- A crew takes a slot on another core; its context comes from the cave, under a new base (R37, R178, R217). -/
def State.migrateCrew (s : State) (c dest : Nat) : State :=
  match s.crew? c, s.freeCrewSlot dest with
  | some k, some slot =>
    (s.fenceRel k.core scDie).setCrew c { k with core := dest, slot := slot, newBase := true, moveTo := none, moved := true
                                                 place := if k.place == .queued then .queued else .cave }
  | some k, none => s.setCrew c { k with moveTo := none }
  | none, _ => s

/-- Count one in an 8-byte field of a queue control block (R332). -/
def State.qcbCount (s : State) (qcb off : Nat) : State :=
  s.pointWrite (fun s k b => s.homeWrite k b) (qcb + off) (bytesOf ((s.pointRead (fun s k => s.homeRead k) (qcb + off) 8).1 + 1) 8)

/-- PREEMPTED of a task's queue (R343 step 5). -/
def State.countPreempted (s : State) (k : Crew) : State :=
  match k.task with
  | some t => if t.kind = 0 then
      (match s.tqs.find? (fun e => e.2.die == t.die && e.2.ix == t.ix) with
        | some e => s.qcbCount e.2.qcb 48
        | none => s) else s
  | none => s

/-- R42, R343: a crew leaves its core when its live members have spun out, or when it is pre-empted, at run boundaries. One that has joined a
gang since it was to migrate stays on its core (R267). -/
def execCrewDeschedule (crew : Nat) (s : State) : Host.Outcome State Fault Refusal :=
  match s.crew? crew with
  | none => .next s
  | some k =>
    let g := s.together crew
    if s.canLeave crew && (k.preempt.isSome || g.all s.spunOut) then
      let s0 := g.foldl (fun s c => match s.crew? c with
        | some x => if (match x.preempt with | some r => decide (r < 16) | none => false) then s.countPreempted x else s
        | none => s) s
      let s1 := s0.deschedule crew
      let s2 := match k.moveTo with
        | some dest => if k.gang.isSome then s1.modCrew crew (fun x => { x with moveTo := none }) else s1.migrateCrew crew dest
        | none => s1
      .next (s2.partitionIn (coreCluster k.core))
    else .next s

/-- R298: the first runnable crew that fits on the core. -/
def execCrewPlacement (core : Nat) (s : State) : Host.Outcome State Fault Refusal := .next ((s.placeOn core).getD s)

/-- A crew is resident again: saved commands re-enter their queues, and holds and deadlocks are evaluated (R139, R171, R264, R422). -/
def State.arriveCrew (s : State) (c : Nat) : State :=
  let s1 := (s.modCrew c (fun k => { k with place := .resident })).restoreCmds c
  let s2 := (s1.membersOf c).foldl (fun s e => (s.recheck e.1).settleWave e.1) s1
  ((s2.membersOf c).foldl (fun s e => s.deadTest e.1) s2).claimsChanged

/-- A crew's context has come in; it is resident when every crew of its gang has its own (R262). -/
def State.contextIn (s : State) (c : Nat) : State :=
  let s1 := s.modCrew c (fun k => { k with place := .arrived })
  if (s1.together c).all (fun x => match s1.crew? x with | some k => k.place == .arrived || k.place == .resident | none => true) then
    ((s1.together c).filter (fun x => ((s1.crew? x).map (·.place)) == some .arrived)).foldl State.arriveCrew s1
  else s1

/-- R12, R43. -/
def execShadowSwapDone (crew : Nat) (s : State) : Host.Outcome State Fault Refusal :=
  match s.crew? crew with
  | none => .next s
  | some k => if k.place == .swapping then .next (s.contextIn crew) else .next s
/-- R299. -/
def execCaveRestoreDone (crew : Nat) (s : State) : Host.Outcome State Fault Refusal :=
  match s.crew? crew with
  | none => .next s
  | some k => if k.place == .restoring then .next (s.contextIn crew) else .next s

/-- DETAIL of a STARVE record (R464). -/
def State.starveDetail (s : State) (c : Nat) (k : Crew) : Nat :=
  let d := coreDie k.core
  let ten := s.tenantOf k.proc
  let ms := s.membersOf c
  let lim := s.limit d ten
  let mask := match lim with | some (_, m, _) => !(m.testBit (coreCluster k.core % 16)) | none => true
  let cap := match lim with | some (_, _, n) => decide (s.tenantWaves d ten + ms.length > n) | none => true
  let here := s.coreWaves k.core []
  let rows := (fitWaves (here.map (fun e => e.2.rowUse)) (here.map (fun e => e.2.wslot)) ms).isNone || (fitBase (s.coreGrans k.core []) k).isNone
  let hold := !(k.slots.length ≤ s.freeSlots k.core && k.accs.length ≤ s.freeAccs k.core)
  let gang := (s.together c).any (fun x => x != c && (match s.crew? x with | some y => !y.place.onCore | none => true))
  packFields [(b2n mask, 0, 1), (b2n cap, 1, 1), (b2n rows, 2, 1), (b2n hold, 3, 1), (b2n gang, 4, 1), (min 65535 (k.starved + 1), 16, 16)]

/-- R464: a crew that has been runnable for a further STARVELIM ticks. -/
def execStarveAging (crew : Nat) (s : State) : Host.Outcome State Fault Refusal :=
  match s.crew? crew with
  | none => .next s
  | some k =>
    let d := coreDie k.core
    let lim := s.reg d 0xC0020
    if s.runq.contains crew && lim ≠ 0 && decide (lim * (k.starved + 1) ≤ s.tickOf d - k.runnableAt) then
      let s1 := s.sendRecord d k.proc { cause := 0x46, cls := 1, scope := 0, core := k.core, crew := objIx crew, detail := s.starveDetail crew k }
      let s2 := s1.modCrew crew (fun x => { x with starved := x.starved + 1 })
      .next ((s2.membersOf crew).foldl (fun s e => s.modWave e.1 (fun v => { v with boost := true })) s2)
    else .next s

end Sys2Proof.Machine
end

