-- ==== Sys2Proof/Machine/MemLane.lean ====
section
/-!
DEFINITION. Sys2Proof/Machine/MemLane.lean: the memory instructions of the lane set (spec/07_memory_instructions.md R150-R166).
-/

namespace Sys2Proof.Machine

/-- Resolve the accesses of the active lanes; the traps of those that fail (R393, R429). -/
def laneResolve (c : Ctx) (f : LR) (a : Acc0) (s : State) : List Trap × List (Nat × Nat × Target) × State :=
  let (bad, ok, s') := s.resolveAll c.v a (c.act.map (fun l => (l, laneAddr c f l)))
  (laneTrap bad, ok, s')

def notesOf (l : List (Nat × Nat × Target)) (n kind : Nat) : List Note :=
  l.map (fun e => { lane := e.1, addr := e.2.1, size := n, kind := kind, tgt := e.2.2 })

/-- R154. -/
def execLd (f : LR) (s : State) : Host.Outcome State Fault Refusal :=
  issue (.ld f) (fun c st =>
    let n := sizeBytes (xSize f.x)
    match laneResolve c f { kind := aREAD, size := n, align := n } st with
    | (t :: ts, _, st1) => .trap (t :: ts) st1
    | ([], ok, st1) =>
      if st1.futFlying c.w n (ok.map (·.2.2)) then .stall st1 else
      let (outs, st2) := ok.foldl (fun acc e =>
        let (r, s') := acc.2.loadT c e.1 e.2.1 n e.2.2
        (acc.1 ++ [(e.1, r)], s')) (([] : List (Nat × Except Trap Nat)), st1)
      let (st3, hits) := st2.noted c (notesOf ok n 1)
      .ok { s := st3, watch := hits
            writes := outs.flatMap (fun e => match e.2 with
              | .ok v => laneWrites c f.v1 e.1 f.d.toNat (laneGroup (xSize f.x)) (fill (xSize f.x) (xSx f.x) 32 v)
              | .error _ => [])
            late := laneTrap (outs.filterMap (fun e => match e.2 with | .error t => some (e.1, t) | .ok _ => none)) }) s

/-- Whether a lane's data group holds a poisoned word (R472). -/
def dataPoisoned (c : Ctx) (lane code n : Nat) : Bool :=
  code < 0x30 && (List.range n).any (fun i => c.v.vpoison.contains (lane * 256 + c.v.winBase lane + code + i))

/-- Perform stores in ascending lane order, so that the highest lane's value remains (R154). -/
def storeAll (c : Ctx) (n : Nat) (val : Nat → Nat) (bad : Nat → Bool) (ok : List (Nat × Nat × Target)) (s : State) :
    List (Nat × Trap) × List (Nat × Trap) × State :=
  let r := ok.foldl (fun (acc : List (Nat × Trap) × List (Nat × Trap) × State) e =>
    match acc.2.2.storeT c e.1 e.2.1 n (val e.1) (bad e.1) e.2.2 with
    | (.ok, s') => (acc.1, acc.2.1, s')
    | (.late t, s') => (acc.1 ++ [(e.1, t)], acc.2.1, s')
    | (.refused t, s') => (acc.1, acc.2.1 ++ [(e.1, t)], s')) ([], [], s)
  let cover := ok.flatMap (fun e => match e.2.2 with
    | .glob p => (List.range n).map (fun i => (p.key + i, bad e.1))
    | _ => [])
  (r.1, r.2.1, r.2.2.poisonAfter cover)

/-- R154. -/
def execSt (f : LR) (s : State) : Host.Outcome State Fault Refusal :=
  issue (.st f) (fun c st =>
    let n := sizeBytes (xSize f.x)
    match laneResolve c f { kind := aWRITE, size := n, align := n } st with
    | (t :: ts, _, st1) => .trap (t :: ts) st1
    | ([], ok, st1) =>
      if st1.futFlying c.w n (ok.map (·.2.2)) then .stall st1 else
      let cnt := counted false ok
      if c.v.ackcnt + cnt.length > 65535 then .stall st1
      else
        let g := laneGroup (xSize f.x)
        let (late, refused, st2) := storeAll c n (fun l => readGroup c f.ow l f.b.toNat g) (fun l => dataPoisoned c l f.b.toNat g) ok st1
        let (st3, hits) := ((st2.countWrites c cnt false).send (refusalMsgs c refused)).noted c (notesOf ok n 2)
        .ok { s := st3, watch := hits, late := laneTrap late }) s

/-- A read of a polling load at its point: the L1 up to .crew, the home or the die's RDC beyond (R158). That it first writes back and drops the
core's own sector is the model's choice (log 75). -/
def State.pollRead (s : State) (c : Ctx) (lane addr n scope : Nat) (t : Target) : Except Trap Nat × State :=
  match t with
  | .glob p =>
    if s.poisoned p.key n then
      (.error { cause := cPOISON, sub := s.poisonSub (s.coreOf c.v) p.key, tval := BitVec.ofNat 64 addr }, { s with free := s.free + 1 })
    else if scope < scDie || p.bare || (s.lockOf p.key).isSome then
      (let (v, s') := s.gReadN (s.coreOf c.v) c.w p n; (.ok v, s'))
    else
      let s0 := s.flushL1 (s.coreOf c.v) (fun k => decide (k / 32 = p.key / 32)) true
      let (v, s') := s0.pointRead (fun s k => s.dieRead (s.dieOf c.v) k) p.key n
      (.ok v, s')
  | _ => s.loadT c lane addr n t

/-- R158: the first read of each fibre; those that still see b wait for their next read. -/
def execLdPoll (f : LR) (s : State) : Host.Outcome State Fault Refusal :=
  issue (.ldPoll f) (fun c st =>
    let n := sizeBytes (xSize f.x)
    let g := laneGroup (xSize f.x)
    match laneResolve c f { kind := aREAD, size := n, align := n } st with
    | (t :: ts, _, st1) => .trap (t :: ts) st1
    | ([], ok, st1) =>
      if st1.futFlying c.w n (ok.map (·.2.2)) then .stall st1 else
      let (outs, st2) := ok.foldl (fun acc e =>
        let (r, s') := acc.2.pollRead c e.1 e.2.1 n (xScope f.x) e.2.2
        (acc.1 ++ [(e.1, e.2.1, r)], s')) (([] : List (Nat × Nat × Except Trap Nat)), st1)
      let b := fun l => readGroup c f.ow l f.b.toNat g % 2 ^ (8 * n)
      let polls := outs.filterMap (fun e => match e.2.2 with
        | .ok v => if v = b e.1 then
            some { seq := c.v.issues, lane := e.1, addr := e.2.1, size := n, scope := xScope f.x, old := b e.1, reads := 1, last := v
                   d := if f.v1 && f.d.toNat ≥ 0x30 then 0x38 else f.d.toNat, winBase := c.v.winBase e.1 : Poll } else none
        | .error _ => none)
      let (st3, hits) := (st2.modWave c.w (fun v => { v with polls := v.polls ++ polls })).noted c (notesOf ok n 1)
      .ok { s := st3.send ((List.range polls.length).map (fun _ => .ldPollReread c.w 0)), watch := hits, ready := polls.isEmpty
            writes := outs.flatMap (fun e => match e.2.2 with
              | .ok v => if v = b e.1 then [] else laneWrites c f.v1 e.1 f.d.toNat g v
              | .error _ => [])
            late := laneTrap (outs.filterMap (fun e => match e.2.2 with | .error t => some (e.1, t) | .ok _ => none)) }) s

/-- The atomics of one instruction in ascending lane order (R160). -/
def atomAll (c : Ctx) (n op scope : Nat) (b cmp : Nat → Nat) (ret : Nat → Option (List Loc)) (ok : List (Nat × Nat × Target)) (s : State) :
    List (Nat × AtomOut) × State :=
  ok.foldl (fun acc e =>
    let (o, s') := acc.2.atomT c e.1 e.2.1 n op (b e.1) (cmp e.1) scope (ret e.1) e.2.2
    (acc.1 ++ [(e.1, o)], s')) ([], s)

/-- A lane atomic (R160, R161). -/
def laneAtom (i : Instr) (f : LR) (returns : Bool) (op : Nat) (operands : Ctx → Nat → Nat × Nat) (s : State) :
    Host.Outcome State Fault Refusal :=
  issue i (fun c st =>
    let n := sizeBytes (xSize f.x)
    let g := laneGroup (xSize f.x)
    match laneResolve c f { kind := aATOM, size := n, align := n } st with
    | (t :: ts, _, st1) => .trap (t :: ts) st1
    | ([], ok, st1) =>
      if st1.futFlying c.w n (ok.map (·.2.2)) then .stall st1 else
      let dst := fun l => (laneWrites c f.v1 l f.d.toNat g 0).map (·.loc)
      let (outs, st2) := atomAll c n op (xScope f.x) (fun l => (operands c l).1) (fun l => (operands c l).2)
        (fun l => if returns then some (dst l) else none) ok st1
      let refused := outs.filterMap (fun e => match e.2 with | .refused t => some (e.1, t) | _ => none)
      let cnt := if returns then [] else
        counted true (ok.filter (fun e => !(refused.any (fun r => r.1 == e.1))))
      if c.v.ackcnt + cnt.length > 65535 then .stall st1
      else
        let (st3, hits) := ((st2.countWrites c cnt true).send (refusalMsgs c refused)).noted c (notesOf ok n 4)
        .ok { s := st3, watch := hits
              ready := !returns || !(outs.any (fun e => match e.2 with | .waits => true | _ => false))
              writes := if returns then outs.flatMap (fun e => match e.2 with
                | .old m => laneWrites c f.v1 e.1 f.d.toNat g m
                | _ => []) else []
              late := laneTrap (outs.filterMap (fun e => match e.2 with | .late t => some (e.1, t) | _ => none)) }) s

/-- R160. -/
def execAtom (f : LR) (s : State) : Host.Outcome State Fault Refusal :=
  laneAtom (.atom f) f true (xOp f.x) (fun c l => (readGroup c f.ow l f.b.toNat (laneGroup (xSize f.x)), 0)) s
/-- R160. -/
def execAtomNr (f : LR) (s : State) : Host.Outcome State Fault Refusal :=
  laneAtom (.atomNr f) f false (xOp f.x) (fun c l => (readGroup c f.ow l f.b.toNat (laneGroup (xSize f.x)), 0)) s
/-- R161: compare at B, new value in the group after it. -/
def execCas128 (f : LR) (s : State) : Host.Outcome State Fault Refusal :=
  laneAtom (.cas128 f) f true 10 (fun c l =>
    let g := laneGroup (xSize f.x)
    let grp := fun code => (List.range g).foldl (fun a i => a + (readLane c f.ow l (code + i)).toNat * 2 ^ (32 * i)) 0
    (grp (f.b.toNat + g), grp f.b.toNat)) s

/-- The window offset of an ldp (R157). -/
def ldpOff (c : Ctx) (f : LR) (l : Nat) : Int := ((readLane c f.ow l f.a.toNat).toNat : Int) + xOff f.x

/-- R157. -/
def execLdp (f : LR) (s : State) : Host.Outcome State Fault Refusal :=
  issue (.ldp f) (fun c st =>
    let n := sizeBytes (xSize f.x)
    let win := Tab.getD c.v.pwin (xWin f.x) { base := 0, size := 0 }
    if win.size = 0 then
      (match c.act with
       | [] => .ok { s := st }
       | l :: _ => .trap [{ cause := cPWIN, sub := xWin f.x, tval := BitVec.ofInt 64 (ldpOff c f l), lanes := maskOf c.act }])
    else
      let addrOf := fun l (k : Nat) => (BitVec.ofInt 48 ((win.base : Int) + ldpOff c f l + k)).toNat
      let mis := c.act.filter (fun l => ldpOff c f l % (n : Int) != 0)
      let inside := fun l => (List.range n).filter (fun (k : Nat) => 0 ≤ ldpOff c f l + (k : Int) && ldpOff c f l + (k : Int) < (win.size : Int))
      let (bad, ok, st1) := st.resolveAll c.v { kind := aREAD, size := 1, align := 1, globalOnly := true }
        ((c.act.filter (fun l => !mis.contains l)).flatMap (fun l => (inside l).map (fun k => (l, false, addrOf l k))))
      let misT := mis.map (fun l => (l, accTrap cMISALIGN aREAD 0 false (addrOf l 0)))
      match laneTrap (misT ++ bad) with
      | t :: ts => .trap (t :: ts) st1
      | [] =>
        if st1.futFlying c.w 1 (ok.map (·.2.2)) then .stall st1 else
        let (bytes, st2) := ok.foldl (fun acc e =>
          let (r, s') := acc.2.loadT c e.1 e.2.1 1 e.2.2
          (acc.1 ++ [(e.1, e.2.1, r)], s')) (([] : List (Nat × Nat × Except Trap Nat)), st1)
        let late := bytes.filterMap (fun e => match e.2.2 with | .error t => some (e.1, t) | .ok _ => none)
        let byteAt := fun l k =>
          match bytes.find? (fun e => e.1 == l && e.2.1 == addrOf l k) with
          | some (_, _, .ok v) => if (inside l).contains k then v else 0
          | _ => 0
        let val := fun l => (List.range n).foldl (fun a k => a + byteAt l k * 2 ^ (8 * k)) 0
        let good := c.act.filter (fun l => !(late.any (fun e => e.1 == l)))
        .ok { s := st2
              writes := good.flatMap (fun l =>
                laneWrites c f.v1 l f.d.toNat (laneGroup (xSize f.x)) (fill (xSize f.x) (xSx f.x) 32 (val l)))
              oob := if good.any (fun l => (inside l).length != n) then 1#8 <<< xWin f.x else 0
              late := laneTrap late }) s

/-- R156: request the line; no fault, no change of a register or of a memory value. -/
def execPf (f : LR) (s : State) : Host.Outcome State Fault Refusal :=
  issue (.pf f) (fun c st =>
    .ok { s := c.act.foldl (fun s l =>
      let (hi, a) := laneAddr c f l
      if hi || a ≥ globalTop then s
      else match s.translate (s.coreOf c.v) c.v.proc a aREAD false false with
        | (.error _, s1) => s1
        | (.ok p, s1) =>
          if p.bare then s1
          else if xSize f.x = 0 then (List.range 4).foldl (fun s i => s.l1Fill (s.coreOf c.v) (lineOf p.key * 128 + 32 * i)) s1
          else (s1.dieRead (s1.dieOf c.v) p.key).2) st }) s

end Sys2Proof.Machine
end

