-- ==== Sys2Proof/Machine/MemUni.lean ====
section
/-!
DEFINITION. Sys2Proof/Machine/MemUni.lean: the memory instructions of the uniform set, fences, entry-consistency bindings, address
waits and futures (spec/07_memory_instructions.md R151-R174).
-/

namespace Sys2Proof.Machine

/-- Resolve the access of a uniform instruction; the private window is that of the batch's lowest lane (log 5). -/
def uniResolve (c : Ctx) (f : GR) (a : Acc0) (s : State) : Except Trap Target × State :=
  s.resolve c.v (lowLane (maskOf c.lanes)) a (uniAddr c f).1 (uniAddr c f).2

/-- A completion fault of a uniform instruction names the whole batch. -/
def batchTrap (c : Ctx) (t : Trap) : Trap := { t with lanes := maskOf c.lanes }

/-- Writes of a value to consecutive uniform registers (R152). -/
def uniWrites (r sz v : Nat) : List Write :=
  if sz = 4 then [{ loc := .s r, val := BitVec.ofNat 64 v }, { loc := .s (r + 1), val := BitVec.ofNat 64 (v / 2 ^ 64) }]
  else [{ loc := .s r, val := BitVec.ofNat 64 v }]

/-- R154. -/
def execSld (f : GR) (s : State) : Host.Outcome State Fault Refusal :=
  issue (.sld f) (fun c st =>
    let n := sizeBytes (xSize f.x)
    match uniResolve c f { kind := aREAD, size := n, align := n } st with
    | (.error t, st1) => .trap [t] st1
    | (.ok tgt, st1) =>
      if st1.futFlying c.w n [tgt] then .stall st1 else
      let (r, st2) := st1.loadT c (lowLane (maskOf c.lanes)) (uniAddr c f).2 n tgt
      let (st3, hits) := st2.noted c [{ lane := lowLane (maskOf c.lanes), addr := (uniAddr c f).2, size := n, kind := 1, tgt := tgt }]
      match r with
      | .ok v => .ok { s := st3, watch := hits, writes := uniWrites f.d.toNat (xSize f.x) (fill (xSize f.x) (xSx f.x) 64 v) }
      | .error t => .ok { s := st3, watch := hits, late := [batchTrap c t] }) s

/-- A data operand of a uniform memory instruction: b128 takes a register pair (R154). -/
def uniData (c : Ctx) (f : GR) (sz : Nat) : Nat :=
  if sz = 4 then (c.v.sreg (GR.bReg f)).toNat + (c.v.sreg (GR.bReg f + 1)).toNat * 2 ^ 64
  else (readB c f).toNat % 2 ^ (8 * sizeBytes sz)

/-- R154: once for the batch. -/
def execSst (f : GR) (s : State) : Host.Outcome State Fault Refusal :=
  issue (.sst f) (fun c st =>
    let n := sizeBytes (xSize f.x)
    let lane := lowLane (maskOf c.lanes)
    match uniResolve c f { kind := aWRITE, size := n, align := n } st with
    | (.error t, st1) => .trap [t] st1
    | (.ok tgt, st1) =>
      if st1.futFlying c.w n [tgt] then .stall st1 else
      let cnt := counted false [(lane, (uniAddr c f).2, tgt)]
      if c.v.ackcnt + cnt.length > 65535 then .stall st1
      else
        let (late, refused, st2) := storeAll c n (fun _ => uniData c f (xSize f.x)) (fun _ => false) [(lane, (uniAddr c f).2, tgt)] st1
        let (st3, hits) := ((st2.countWrites c cnt false).send (refusalMsgs c (refused.map (fun e => (e.1, e.2))))).noted c
          [{ lane := lane, addr := (uniAddr c f).2, size := n, kind := 2, tgt := tgt }]
        .ok { s := st3, watch := hits, late := late.map (fun e => batchTrap c e.2) }) s

/-- Operand and compare values of a satom (R162). -/
def satomOperands (c : Ctx) (f : GR) : Nat × Nat :=
  let sz := xSize f.x
  let w := 8 * sizeBytes sz
  let r := GR.bReg f
  if xOp f.x = 10 then
    (if sz = 4 then
      ((c.v.sreg (r + 2)).toNat + (c.v.sreg (r + 3)).toNat * 2 ^ 64, (c.v.sreg r).toNat + (c.v.sreg (r + 1)).toNat * 2 ^ 64)
     else ((c.v.sreg (r + 1)).toNat % 2 ^ w, (c.v.sreg r).toNat % 2 ^ w))
  else ((readB c f).toNat % 2 ^ w, 0)

/-- R162. -/
def execSatom (f : GR) (s : State) : Host.Outcome State Fault Refusal :=
  issue (.satom f) (fun c st =>
    let sz := xSize f.x
    let n := sizeBytes sz
    let lane := lowLane (maskOf c.lanes)
    match uniResolve c f { kind := aATOM, size := n, align := n } st with
    | (.error t, st1) => .trap [t] st1
    | (.ok tgt, st1) =>
      if st1.futFlying c.w n [tgt] then .stall st1 else
      let no := match tgt with
        | .glob p => p.ca == 2 && !(completerHas p (xOp f.x) n) && !(st1.lockedByOther c.w p.key)
        | _ => false
      let note : Note := { lane := lane, addr := (uniAddr c f).2, size := n, kind := 4, tgt := tgt }
      if no then
        let (st3, hits) := st1.noted c [note]
        .ok { s := st3, watch := hits, writes := [{ loc := .s f.d.toNat, val := BitVec.ofNat 64 stNOATOMIC }] }
      else
        let ret := uniWrites (f.d.toNat + 1) sz 0
        let (o, st2) := st1.atomT c lane (uniAddr c f).2 n (xOp f.x) (satomOperands c f).1 (satomOperands c f).2 (xScope f.x)
          (some (ret.map (·.loc))) tgt
        let (st3, hits) := st2.noted c [note]
        let status : Write := { loc := .s f.d.toNat, val := BitVec.ofNat 64 stOK }
        match o with
        | .old m => .ok { s := st3, watch := hits, writes := status :: uniWrites (f.d.toNat + 1) sz m }
        | .waits => .ok { s := st3, watch := hits, ready := false, writes := [status] }
        | .late t => .ok { s := st3, watch := hits, late := [batchTrap c t] }
        | .refused t => .ok { s := st3, watch := hits, late := [batchTrap c t] }) s

/-! ## Fences (R167) -/

/-- The release of a wave at a scope (R203 steps 1, 3 and 4): the host ports whose zero-length reads it completes, and the state
with those reads on their way. -/
def State.releaseWaits (s : State) (w scope : Nat) : List Nat × State :=
  if scope < scSys then ([], s)
  else
    let ports := ((s.wave? w).map (·.posted)).getD []
    (ports, (s.modWave w (fun v => { v with posted := [] })).send (ports.map (fun p => .zeroLengthReadCompletion w p)))

def fenceScope (f : GR) : Nat := f.b.toNat % 256

/-- A dirty line whose write-back would pass the limit of ACKCNT keeps a fence from its effect (R167, R215). -/
def State.fenceStuck (s : State) (core scope : Nat) : Bool := scope ≥ scDie && (s.core core).l1.any (fun e => e.2.dirty)

/-- R167. -/
def execFenceRel (f : GR) (s : State) : Host.Outcome State Fault Refusal :=
  issue (.fenceRel f) (fun c st =>
    let st0 := st.fenceRel (st.coreOf c.v) (fenceScope f)
    if st0.fenceStuck (st.coreOf c.v) (fenceScope f) then .stall st0
    else
    let (zl, st1) := st0.releaseWaits c.w (fenceScope f)
    .ok { s := st1, waitAck := fenceScope f ≥ scPkg, waitZlr := zl, waitHeld := true }) s
/-- R167: the invalidation comes when the run has ended, with every earlier atomic of it performed. -/
def execFenceAcq (f : GR) (s : State) : Host.Outcome State Fault Refusal :=
  issue (.fenceAcq f) (fun _ st => .ok { s := st, onEnd := .fence (fenceScope f) }) s
/-- R167: fence.rel, then fence.acq, which acts when the release has completed. -/
def execFenceAr (f : GR) (s : State) : Host.Outcome State Fault Refusal :=
  issue (.fenceAr f) (fun c st =>
    let st0 := st.fenceRel (st.coreOf c.v) (fenceScope f)
    if st0.fenceStuck (st.coreOf c.v) (fenceScope f) then .stall st0
    else
    let (zl, st1) := st0.releaseWaits c.w (fenceScope f)
    .ok { s := st1, onEnd := .fence (fenceScope f), waitAck := fenceScope f ≥ scPkg, waitZlr := zl, waitHeld := true }) s

/-! ## Entry-consistency bindings (R168-R170) -/

/-- The region word of ec.bind: base and size, or none where R170 refuses it. -/
def ecRegion (a : W64) : Option (Nat × Nat) :=
  let n := a.toNat
  let e := bits n 5 0
  if e < 7 || e > 47 || bitOf n 6 || bits n 63 48 != 0 || bits n 47 7 * 128 % 2 ^ e != 0 then none
  else some (bits n 47 7 * 128, 2 ^ e)

/-- The object word: kind and identifier, or none (R169, R170). -/
def ecObject (b : W64) : Option (Nat × Nat) :=
  let n := b.toNat
  let k := bits n 63 60
  let r := bits n 59 0
  let okBits := fun hi lo => if r = bits r hi lo * 2 ^ lo then some (k, r) else none
  match k with
  | 0 => okBits 47 7
  | 1 => okBits 3 0
  | 2 => okBits 1 0
  | 3 => okBits 2 0
  | 4 => okBits 11 0
  | 5 => okBits 47 4
  | 6 => okBits 11 0
  | 7 => okBits 47 2
  | _ => none

/-- R170. -/
def execEcBind (f : GR) (s : State) : Host.Outcome State Fault Refusal :=
  issue (.ecBind f) (fun c st =>
    let tab := ((st.proc? c.v.proc).map (·.bindings)).getD []
    match ecRegion (readA c f), ecObject (readB c f) with
    | some (base, size), some (k, i) =>
      (match lowest 0 (fun n => (Tab.get? tab n).isNone) 64 with
       | none => uniOut f (BitVec.ofNat 64 stFULL) st
       | some n =>
         uniOut f (BitVec.ofNat 64 (stOK + n * 2 ^ 8))
           (st.modProc c.v.proc (fun p => { p with bindings := Tab.set p.bindings n { base := base, size := size, kind := k, ident := i } })))
    | _, _ => uniOut f (BitVec.ofNat 64 stBADDESC) st) s
/-- R170. -/
def execEcDrop (f : GR) (s : State) : Host.Outcome State Fault Refusal :=
  issue (.ecDrop f) (fun c st =>
    let n := bits (readA c f).toNat 5 0
    let tab := ((st.proc? c.v.proc).map (·.bindings)).getD []
    match Tab.get? tab n with
    | none => uniOut f (BitVec.ofNat 64 stEMPTY) st
    | some _ => uniOut f (BitVec.ofNat 64 stOK) (st.modProc c.v.proc (fun p => { p with bindings := Tab.del p.bindings n }))) s

/-! ## Address waits and futures (R171-R174) -/

/-- R171, R430, R436: only the crew's own window; the hold begins when the run's results have committed. -/
def execWaitAddr (f : GR) (s : State) : Host.Outcome State Fault Refusal :=
  issue (.waitAddr f) (fun c st =>
    let n := sizeBytes (xSize f.x)
    let (hi, a) := uniAddr c f
    if !hi && a < globalTop then .trap [accTrap cSPACE aREAD 3 false a]
    else match st.resolve c.v 0 { kind := aREAD, size := n, align := n, noCluster := true, noPriv := true } hi a with
      | (.error t, st1) => .trap [t] st1
      | (.ok tgt, st1) =>
        let off := a - scratchBase
        if off ≥ ((st.crew? c.v.crew).map (·.barOff)).getD 0 then
          .trap [{ cause := cBARBLOCK, sub := 3, tval := BitVec.ofNat 64 a }]
        else
          .ok { s := st1
                watch := st1.localHits c.v [{ lane := lowLane (maskOf c.lanes), addr := a, size := n, kind := 1, tgt := tgt }]
                onEnd := .addr off n (BitVec.ofNat 64 ((readB c f).toNat % 2 ^ (8 * n))) (xScope f.x) }) s

/-- The future that an instruction names: global with CA = 0, 16-byte aligned (R173, R430). -/
def futResolve (c : Ctx) (f : GR) (s : State) : Except Trap Phys × State :=
  match uniResolve c f { kind := aATOM, size := 16, align := 16, globalOnly := true, dev := true } s with
  | (.error t, s1) => (.error t, s1)
  | (.ok (.glob p), s1) =>
    if p.ca = 0 then (.ok p, s1) else (.error (accTrap cSPACE aATOM 3 false (uniAddr c f).2), s1)
  | (.ok _, s1) => (.error (accTrap cSPACE aATOM 3 false (uniAddr c f).2), s1)

/-- Send a future operation to its home (R172). -/
def futSend (c : Ctx) (f : GR) (op : FutOp) (p : Phys) (s : State) : State :=
  ((s.landWrites c.w (fun _ => true)).tagWrites c.w (futRel c.v.issues)).send [.futureOpAtHome c.w c.v.issues f.d.toNat op p.key (xScope f.x) (uniAddr c f).2 c.pc
    (c.words.getD 0 0) (c.words.getD 1 0) (c.words.getD 2 0)]

/-- R173. -/
def execFutInit (f : GR) (s : State) : Host.Outcome State Fault Refusal :=
  issue (.futInit f) (fun c st =>
    match futResolve c f st with
    | (.error t, st1) => .trap [t] st1
    | (.ok p, st1) => if st1.futFlying c.w 16 [.glob p] then .stall st1 else .ok { s := futSend c f .init p st1, waitVar := true, ready := false }) s
/-- R173, R174: the batch's run ends; the result comes with the value. -/
def execFutRd (f : GR) (s : State) : Host.Outcome State Fault Refusal :=
  issue (.futRd f) (fun c st =>
    match futResolve c f st with
    | (.error t, st1) => .trap [t] st1
    | (.ok p, st1) => if st1.futFlying c.w 16 [.glob p] then .stall st1 else .ok { s := futSend c f .rd p st1, ready := false }) s
/-- R173, R174: a release at its scope. -/
def execFutWr (f : GR) (s : State) : Host.Outcome State Fault Refusal :=
  issue (.futWr f) (fun c st =>
    match futResolve c f st with
    | (.error t, st1) => .trap [t] st1
    | (.ok p, st1) => if st1.futFlying c.w 16 [.glob p] then .stall st1 else
      let st2 := st1.relObj c.v (xScope f.x) { kind := 5, ident := (uniAddr c f).2 }
      let (zl, st3) := st2.releaseWaits c.w (xScope f.x)
      .ok { s := futSend c f (.wr (readB c f)) p st3, ready := false, waitAck := xScope f.x ≥ scPkg, waitZlr := zl }) s

end Sys2Proof.Machine
end

