-- ==== Sys2Proof/Machine/Muhan.lean ====
section
/-!
DEFINITION. Sys2Proof/Machine/Muhan.lean: the wave, handle, wait-set, timer and system-call instructions
(spec/14_muhan_hardware_kernel.md R294-R307, spec/22_execution_and_instruction_faults.md R426-R428,
spec/24_kernel_scheduler_host_and_ras_faults.md R453-R456, R468).
-/

namespace Sys2Proof.Machine

/-! ## Reading a descriptor (R295, R429-R431) -/

/-- What became of an instruction's read of a block. -/
inductive Block where
  | trap (t : Trap)
  | late (t : Trap)
  | ok (n : Nat)
  deriving Repr

/-- Read n bytes of a descriptor for a batch; bits [63:48] of its address must be zero. -/
def State.readBlock (s : State) (c : Ctx) (a : W64) (n align : Nat) (globalOnly : Bool) : Block × State :=
  match s.resolve c.v 0 { kind := aREAD, size := n, align := align, desc := true, globalOnly := globalOnly, noCluster := true, noPriv := true }
      (decide (a.toNat ≥ 2 ^ 48)) (a.toNat % 2 ^ 48) with
  | (.error t, s1) => (.trap t, s1)
  | (.ok tgt, s1) => match s1.loadT c (lowLane (maskOf c.lanes)) a.toNat n tgt with
    | (.error t, s2) => (.late (batchTrap c t), s2)
    | (.ok v, s2) => (.ok v, s2)

/-- The pieces of a range in which one translation, and one allocation, holds. -/
def spanPieces (a n : Nat) : List (Nat × Nat) :=
  let f := min n (4096 - a % 4096)
  if f < n then [(a, f), (a + f, n - f)] else [(a, n)]

/-- Read a range of at most 4,096 bytes at any alignment, like `readBlock`. -/
def State.readSpan (s : State) (c : Ctx) (a : W64) (n : Nat) : Block × State :=
  match spanPieces a.toNat n with
  | [(x, k), (y, m)] =>
    (match s.readBlock c (BitVec.ofNat 64 x) k 1 false with
     | (.trap t, s1) => (.trap t, s1)
     | (.late t, s1) => (match s1.readBlock c (BitVec.ofNat 64 y) m 1 false with
       | (.trap t', s2) => (.trap t', s2)
       | (_, s2) => (.late t, s2))
     | (.ok u, s1) => (match s1.readBlock c (BitVec.ofNat 64 y) m 1 false with
       | (.ok v, s2) => (.ok (u + v * 2 ^ (8 * k)), s2)
       | r => r))
  | _ => s.readBlock c a n 1 false

/-- A status result. -/
def status (f : GR) (st : Nat) (s : State) : Iss := uniOut f (BitVec.ofNat 64 st) s
/-- OK with a new slot (R296). -/
def okSlot (f : GR) (slot : Nat) (s : State) : Iss := uniOut f (BitVec.ofNat 64 (stOK + slot * 2 ^ 8)) s
/-- The release of wave creation (R202, R203): the result waits for the wave's acknowledgements. -/
def withRel : Iss → Iss
  | .ok e => .ok { e with waitAck := true }
  | x => x
/-- The slot that a register names (R16). -/
def slotNum (x : W64) : Nat := bits x.toNat 11 0

/-! ## Waves (R295, R297) -/

/-- A wave as it is launched (R20, R88, R297). -/
def launchWave (proc die width nvregs priv prio member : Nat) (entry : BitVec 48) (arg : List (Nat × W64)) (launch block : Nat)
    (pwin : Tab PWin) (susp : Bool) : Wave :=
  { proc := proc, crew := 0, member := member, die := die, width := width, nvregs := nvregs, priv := priv, prio := prio
    launch := BitVec.ofNat 32 launch, block := BitVec.ofNat 32 block, tbase := BitVec.ofNat 16 (member * width)
    sregs := arg, pwin := pwin, suspended := susp
    fibres := (List.range width).map (fun l => (l, { pc := entry, thread := BitVec.ofNat 16 (member * width + l) })) }

/-- The window table of R295: window N at byte 16N, bound where its size is not 0. -/
def pwTable (n : Nat) : Tab PWin :=
  (List.range 8).filterMap (fun i =>
    let e := n / 2 ^ (128 * i)
    if bits e 95 64 = 0 then none else some (i, { base := bits e 47 0, size := bits e 95 64 }))

/-- A descriptor that R428 refuses. -/
def wvBad (n : Nat) : Bool :=
  bits n 1 0 != 0 || !([16, 32, 64].contains (bits n 55 48)) || bits n 63 56 % 8 != 0 || bits n 63 56 = 0 || bits n 63 56 > 192 ||
  bits n 223 208 > 4096 || bits n 127 112 != 0 || bits n 159 152 != 0 || bits n 511 288 != 0

/-- Put a launched wave into a named crew: BUSY where its core lacks a wave slot or rows (R297). -/
def State.joinNew (s : State) (w t : Nat) (v : Wave) : Option State :=
  match s.crew? t with
  | none => none
  | some k =>
    let there := s.coreWaves k.core []
    let m := k.freeMember
    let v' := launchWave v.proc v.die v.width v.nvregs v.priv v.prio m (v.pcOf 0) v.sregs v.launch.toNat v.block.toNat v.pwin v.suspended
    if k.floating then some (((s.setWave w v').addMember t w).makeRunnable t)
    else match fitWaves (there.map (fun e => e.2.rowUse)) (there.map (fun e => e.2.wslot)) [(w, v)] with
      | some ((_, ws, ru) :: _) => some (((s.setWave w { v' with wslot := ws, firstQuad := ru.quad, firstRow := ru.row }).addMember t w).makeRunnable t)
      | _ => none

/-- Create the wave that a checked descriptor gives (R297). -/
def wvCreate (c : Ctx) (f : GR) (n : Nat) (pw : Tab PWin) (target : Option Nat) (s : State) : Iss :=
  let p := c.v.proc
  let d := s.dieOf c.v
  let fail := fun st => status f st s
  match s.emptySlot p with
  | none => fail stFULL
  | some slot =>
    if s.quota d p true then fail stQUOTA
    else match s.freeEntry d with
      | none => fail stQUOTA
      | some id =>
        let v := launchWave p d (bits n 55 48) (bits n 63 56) (bits n 223 208 * 16) (s.capPrio d p (bits n 142 140)) 0 (va (bits n 47 0))
          [(0, BitVec.ofNat 64 (bits n 111 64))] (bits n 255 224) (bits n 287 256) pw (bitOf n 143)
        let s1 := (s.makeObj id kWAVE p).putSlot p slot (mkHandle (s.nodeId d) id kWAVE (s.obj id).gen) rightsNew
        match target with
        | some t =>
          (match s1.crew? t with
            | none => fail stSTALE
            | some k =>
              if k.members.length ≥ 32 then fail stFULL
              else match s1.joinNew id t v with
                | none => fail stBUSY
                | some s2 => withRel (okSlot f slot s2))
        | none => match s1.freeEntry d with
          | none => fail stQUOTA
          | some cid =>
            withRel (okSlot f slot (((s1.makeObj cid kCREW p).setWave id v).newCrewFor id cid (s.coreOf c.v) (bits n 149 144 + 1) (bitOf n 150) false))

/-- R297: the release of wave creation comes first (R202, R203). -/
def execWvNew (f : GR) (s : State) : Host.Outcome State Fault Refusal :=
  issue (.wvNew f) (fun c st =>
    if !(st.relReady c.w) then .stall st
    else match st.readBlock c (readA c f) 64 64 false with
    | (.trap t, st1) => .trap [t] st1
    | (.late t, st1) => .ok { s := st1, late := [t] }
    | (.ok n, st1) =>
      if wvBad n then status f stBADDESC st1
      else
        let slot := bits n 139 128
        let tgt : Except Nat (Option Nat) :=
          if slot = 0 then .ok none
          else match st1.checkSlot c.v.proc slot [kCREW] rtCTRL with
            | .error e => .error e
            | .ok h => if (st1.crew? (hId h)).isNone then .error stSTALE else .ok (some (hId h))
        match tgt with
        | .error e => status f e st1
        | .ok t =>
          let pa := bits n 207 160
          if pa = 0 then wvCreate c f n [] t st1
          else match st1.readSpan c (BitVec.ofNat 64 pa) 128 with
            | (.trap e, st2) => .trap [e] st2
            | (.late e, st2) => .ok { s := st2, late := [e] }
            | (.ok tab, st2) => wvCreate c f n (pwTable tab) t st2) s

/-- R135: every fibre of the batch ends when the run's results have committed. With the last of them the wave ends: the release of R202
begins. -/
def execFibEnd (f : GR) (s : State) : Host.Outcome State Fault Refusal :=
  issue (.fibEnd f) (fun c st =>
    .ok { s := if (c.v.live &&& ~~~(maskOf c.lanes)) == 0#64 then st.endRelease c.w else st, onEnd := .fibEnd }) s

/-- R297: every fibre of the wave ends when the run's results have committed; the release of R202 begins. -/
def execWvExit (f : GR) (s : State) : Host.Outcome State Fault Refusal :=
  issue (.wvExit f) (fun c st => .ok { s := st.endRelease c.w, onEnd := .waveExit }) s

/-- R297: at once when the wave is dead, else the batch blocks with REASON 5. -/
def execWvJoin (f : GR) (s : State) : Host.Outcome State Fault Refusal :=
  issue (.wvJoin f) (fun c st =>
    let n := slotNum (readA c f)
    match st.checkSlot c.v.proc n [kWAVE] rtWAIT with
    | .error e => status f e st
    | .ok h =>
      if ((st.wave? (hId h)).map (·.dead)).getD true then
        status f stOK (st.acqObj c.v scPkg { kind := 6, ident := n })
      else .ok { s := st.block c.w (.join (hId h) n c.v.issues f.d.toNat), ready := false }) s

/-- R297: the crew may be descheduled at the end of the run. -/
def execWvYield (f : GR) (s : State) : Host.Outcome State Fault Refusal :=
  issue (.wvYield f) (fun _ st => .ok { s := st, onEnd := .yield }) s

/-- R297: slot 0 names the issuing wave. -/
def execWvPrio (f : GR) (s : State) : Host.Outcome State Fault Refusal :=
  issue (.wvPrio f) (fun c st =>
    let n := slotNum (readA c f)
    let tgt : Except Nat Nat := if n = 0 then .ok c.w else (st.checkSlot c.v.proc n [kWAVE] rtCTRL).map hId
    match tgt with
    | .error e => status f e st
    | .ok w =>
      let d := ((st.wave? w).map st.dieOf).getD 0
      let p := st.capPrio d (((st.wave? w).map (·.proc)).getD 0) (bits (readB c f).toNat 2 0)
      uniOut f (BitVec.ofNat 64 (stOK + p * 2 ^ 8)) (st.modWave w (fun v => { v with prio := p }))) s

/-! ## Handles (R301, R302) -/

def anyKind : List Nat := List.range 32

/-- R301. -/
def execHDup (f : GR) (s : State) : Host.Outcome State Fault Refusal :=
  issue (.hDup f) (fun c st =>
    let n := slotNum (readA c f)
    match st.checkSlot c.v.proc n anyKind rtDUP true with
    | .error e => status f e st
    | .ok h => match st.emptySlot c.v.proc with
      | none => status f stFULL st
      | some k =>
        let r := ((st.slot? c.v.proc n).map (·.rights)).getD 0#8
        okSlot f k (st.putSlot c.v.proc k h (r &&& BitVec.ofNat 8 (readB c f).toNat))) s

/-- R301, R426: a stale handle's slot is emptied too. -/
def execHClose (f : GR) (s : State) : Host.Outcome State Fault Refusal :=
  issue (.hClose f) (fun c st =>
    let n := slotNum (readA c f)
    match if n = 0 then none else st.slot? c.v.proc n with
    | none => status f stEMPTY st
    | some h =>
      let gone := !(st.foreign h.handle) && st.stale h.handle
      status f (if gone then stSTALE else stOK) (st.emptyOne c.v.proc n c.w)) s

/-- REASON of a wait (R294). -/
def Wait.reason : Wait → Nat
  | .port _ _ _ _ _ => 1
  | .waitSet _ _ _ _ _ => 2
  | .future _ _ _ _ _ => 3
  | .lock _ _ _ => 4
  | .join _ _ _ _ => 5
  | .service _ _ _ => 6

/-- STATE of a wave (R294, R369). -/
def State.waveState (s : State) (v : Wave) : Nat :=
  if v.dead then 4 else if v.suspended || v.stopped then 3 else if v.wait.isSome then 2 else if s.isResident v then 1 else 0

/-- STATE of an object (R290). -/
def State.objState (s : State) (id : Nat) : Nat :=
  match s.wave? id with
  | some v => if (s.obj id).kind = kWAVE then s.waveState v else b2n (s.obj id).dying
  | none => b2n (s.obj id).dying

/-- DETAIL of h.info (R302). -/
def State.infoDetail (s : State) (id : Nat) : Nat :=
  let k := (s.obj id).kind
  if k = kWAVE then
    (match s.wave? id with
      | none => 0
      | some v =>
        packFields [(v.prio, 32, 3), ((match v.wait with | some x => if s.waveState v = 2 then x.reason else 0 | none => 0), 35, 4), (s.coreOf v, 39, 11)])
  else if k = kWS then
    (match Tab.get? s.wsets id with
      | none => 0
      | some x => packFields [(x.members.length, 32, 7), ((x.members.filter (fun m => s.memberReady m.2)).length, 39, 7)])
  else if k = kTIMER then
    (match Tab.get? s.timers id with
      | none => 0
      | some t => packFields [(b2n t.armed, 32, 1), (t.count, 33, 16)])
  else if k = kPORT then
    (match Tab.get? s.ports id with
      | none => 0
      | some p => packFields [(p.queue.length, 32, 11)])
  else 0

/-- R302; the state of another package's object is free (log 17). -/
def execHInfo (f : GR) (s : State) : Host.Outcome State Fault Refusal :=
  issue (.hInfo f) (fun c st =>
    let n := slotNum (readA c f)
    match st.checkSlot c.v.proc n anyKind rtINFO true with
    | .error e => status f e st
    | .ok h =>
      let r := ((st.slot? c.v.proc n).map (·.rights.toNat)).getD 0
      let head := packFields [(stOK, 0, 8), (hKind h, 8, 5), (r, 17, 8)]
      if st.foreign h then
        (let (x, st1) := st.drawFree
         uniOut f (BitVec.ofNat 64 (head + bits x.toNat 3 0 * 2 ^ 13 + bits x.toNat 63 32 * 2 ^ 32)) st1)
      else uniOut f (BitVec.ofNat 64 (head + st.objState (hId h) * 2 ^ 13 + st.infoDetail (hId h))) st) s

/-! ## Wait sets (R303-R305) -/

/-- Make an object of a kind with a handle in the lowest empty slot (R296, R454): its id and slot, or the status. -/
def State.create (s : State) (p d kind : Nat) (rights : BitVec 8) : Except Nat (Nat × Nat × State) :=
  match s.emptySlot p with
  | none => .error stFULL
  | some slot =>
    if s.quota d p false then .error stQUOTA
    else match s.freeEntry d with
      | none => .error stQUOTA
      | some id =>
        let s1 := s.makeObj id kind p
        .ok (id, slot, s1.putSlot p slot (mkHandle (s.nodeId d) id kind (s.obj id).gen) rights)

/-- R303. -/
def execWsNew (f : GR) (s : State) : Host.Outcome State Fault Refusal :=
  issue (.wsNew f) (fun c st =>
    match st.create c.v.proc (st.dieOf c.v) kWS rightsNew with
    | .error e => status f e st
    | .ok (id, slot, st1) => okSlot f slot { st1 with wsets := Tab.set st1.wsets id {} }) s

/-- The member that ws.add names: a trap, a status, or the member (R303, R426, R428). -/
def wsMember (c : Ctx) (b : W64) (s : State) : Except (Trap ⊕ Nat) Member × State :=
  let n := b.toNat
  if bits n 63 62 ≥ 2 then (.error (.inr stBADDESC), s)
  else if bits n 63 62 = 0 then
    (if bits n 61 12 != 0 then (.error (.inr stBADDESC), s)
     else match s.checkSlot c.v.proc (bits n 11 0) [kPORT, kTIMER, kWAVE] rtWAIT with
       | .error e => (.error (.inr e), s)
       | .ok h => (.ok (.obj (hId h) (hKind h)), s))
  else if bits n 61 48 != 0 || bits n 3 0 != 0 then (.error (.inr stBADDESC), s)
  else match s.resolve c.v 0 { kind := aREAD, size := 16, align := 16, globalOnly := true } false (bits n 47 0) with
    | (.error t, s1) => (.error (.inl t), s1)
    | (.ok (.glob p), s1) => (.ok (.fut p.key), s1)
    | (.ok _, s1) => (.error (.inr stBADDESC), s1)

/-- Add a member under the lowest free key (R303); a set that now holds a ready member serves its head waiter. -/
def State.wsAdd (s : State) (id : Nat) (x : WaitSet) (m : Member) : Except Nat (Nat × State) :=
  match x.members.find? (fun e => e.2 == m) with
  | some (k, _) => .ok (k, s)
  | none => match lowest 0 (fun k => (Tab.get? x.members k).isNone) 64 with
    | none => .error stFULL
    | some k =>
      let s1 : State := { s with wsets := Tab.set s.wsets id { x with members := Tab.set x.members k m } }
      let s2 := match m with
        | .obj o _ => s1.modObj o (fun y => { y with refs := y.refs + 1 })
        | .fut _ => s1
      .ok (k, if s.memberReady m then s2.wsServe id else s2)

/-- R303. -/
def execWsAdd (f : GR) (s : State) : Host.Outcome State Fault Refusal :=
  issue (.wsAdd f) (fun c st =>
    match st.checkSlot c.v.proc (slotNum (readA c f)) [kWS] rtCTRL with
    | .error e => status f e st
    | .ok h =>
      match wsMember c (readB c f) st, Tab.get? st.wsets (hId h) with
      | (.error (.inl t), st1), _ => .trap [t] st1
      | (.error (.inr e), st1), _ => status f e st1
      | (.ok m, st1), some x => (match st1.wsAdd (hId h) x m with
        | .error e => status f e st1
        | .ok (k, st2) => uniOut f (BitVec.ofNat 64 (stOK + k * 2 ^ 8)) st2)
      | (.ok _, st1), none => status f stSTALE st1) s

/-- R303. -/
def execWsDel (f : GR) (s : State) : Host.Outcome State Fault Refusal :=
  issue (.wsDel f) (fun c st =>
    match st.checkSlot c.v.proc (slotNum (readA c f)) [kWS] rtCTRL with
    | .error e => status f e st
    | .ok h =>
      let k := bits (readB c f).toNat 5 0
      match Tab.get? st.wsets (hId h) with
      | none => status f stSTALE st
      | some x => match Tab.get? x.members k with
        | none => status f stEMPTY st
        | some m =>
          let st1 : State := { st with wsets := Tab.set st.wsets (hId h) { x with members := Tab.del x.members k } }
          status f stOK (match m with
            | .obj o _ => (st1.modObj o (fun y => { y with refs := y.refs - 1 })).reap o 64
            | .fut _ => st1)) s

/-- R305. -/
def execWsWait (f : GR) (s : State) : Host.Outcome State Fault Refusal :=
  issue (.wsWait f) (fun c st =>
    let n := slotNum (readA c f)
    match st.checkSlot c.v.proc n [kWS] rtWAIT with
    | .error e => status f e st
    | .ok h =>
      match Tab.get? st.wsets (hId h) with
      | none => status f stSTALE st
      | some x =>
        if x.members.isEmpty then status f stEMPTY st
        else match st.wsSelect (hId h) with
          | some (k, st1) => uniOut f (BitVec.ofNat 64 (stOK + k * 2 ^ 8)) st1
          | none =>
            let t := (readB c f).toNat
            let dl := if t = 0 then none else some (st.tickOf (objDie (hId h)) + ceilDiv t 8)
            let st1 : State := { st with wsets := Tab.set st.wsets (hId h) { x with waiters := x.waiters ++ [c.w] } }
            .ok { s := st1.block c.w (.waitSet (hId h) n c.v.issues f.d.toNat dl), ready := false }) s

/-- R305. -/
def execWsPoll (f : GR) (s : State) : Host.Outcome State Fault Refusal :=
  issue (.wsPoll f) (fun c st =>
    match st.checkSlot c.v.proc (slotNum (readA c f)) [kWS] rtWAIT with
    | .error e => status f e st
    | .ok h => match st.wsSelect (hId h) with
      | some (k, st1) => uniOut f (BitVec.ofNat 64 (stOK + k * 2 ^ 8)) st1
      | none => status f stEMPTY st) s

/-- R305: a ws.wait whose timeout has passed. -/
def execWsWaitTimeout (w : Nat) (s : State) : Host.Outcome State Fault Refusal :=
  match (s.wave? w).bind (·.wait) with
  | some (.waitSet id _ seq d (some t)) =>
    if t ≤ s.tickOf (objDie id) then
      .next { (s.wake w seq (sOut d stTIMEOUT)) with wsets := Tab.mod s.wsets id (fun x => { x with waiters := x.waiters.filter (· != w) }) }
    else .next s
  | _ => .next s

/-! ## Timers (R306) -/

/-- R306. -/
def execTmNew (f : GR) (s : State) : Host.Outcome State Fault Refusal :=
  issue (.tmNew f) (fun c st =>
    match st.create c.v.proc (st.dieOf c.v) kTIMER rightsNew with
    | .error e => status f e st
    | .ok (id, slot, st1) => okSlot f slot { st1 with timers := Tab.set st1.timers id {} }) s
/-- R306. -/
def execTmArm (f : GR) (s : State) : Host.Outcome State Fault Refusal :=
  issue (.tmArm f) (fun c st =>
    match st.checkSlot c.v.proc (slotNum (readA c f)) [kTIMER] rtSIGNAL with
    | .error e => status f e st
    | .ok h =>
      let t : Timer := { armed := true, deadline := st.tickOf (objDie (hId h)) + (c.v.sreg (GR.bReg f)).toNat, period := (c.v.sreg (GR.bReg f + 1)).toNat }
      status f stOK { st with timers := Tab.set st.timers (hId h) t }) s
/-- R306. -/
def execTmStop (f : GR) (s : State) : Host.Outcome State Fault Refusal :=
  issue (.tmStop f) (fun c st =>
    match st.checkSlot c.v.proc (slotNum (readA c f)) [kTIMER] rtSIGNAL with
    | .error e => status f e st
    | .ok h => status f stOK { st with timers := Tab.mod st.timers (hId h) (fun t => { t with armed := false, count := 0 }) }) s

/-- R306: the deadline is reached: the count rises, and the timer is armed for the next period or disarmed. -/
def execTimerExpiry (id : Nat) (s : State) : Host.Outcome State Fault Refusal :=
  match Tab.get? s.timers id with
  | none => .next s
  | some t =>
    if t.armed && decide (t.deadline ≤ s.tickOf (objDie id)) then
      let t' := { t with count := min 65535 (t.count + 1), deadline := t.deadline + t.period, armed := t.period != 0 }
      .next ({ s with timers := Tab.set s.timers id t' }.wsReady (.obj id kTIMER))
    else .next s

/-! ## System calls (R307, R456, R468) -/

/-- The live port of a process's SVCPORT; a stale one is replaced by what name 0 of tenant 0 names (R468). -/
def State.servicePort (s : State) (p : Nat) : Option (Nat × State) :=
  match s.proc? p with
  | none => none
  | some pr =>
    let h := pr.svcport
    if h != 0#64 && !(s.foreign h) && !(s.stale h) && (Tab.get? s.ports (hId h)).isSome then some (hId h, s)
    else match s.names.find? (fun n => n.tenant == 0 && n.name == 0#64 && n.handle.isNone && n.gen == (s.obj n.port).gen) with
      | some n => some (n.port, s.modProc p (fun x => { x with svcport := s.handleOf n.port }))
      | none => none

/-- A pointer that R456 refuses. -/
def ptrBad (a : Nat) : Bool := a ≥ globalTop

/-- R307. -/
def execSysCall (f : GR) (s : State) : Host.Outcome State Fault Refusal :=
  issue (.sysCall f) (fun c st0 =>
    match st0.readBlock c (readA c f) 64 64 true with
    | (.trap t, st1) => .trap [t] st1
    | (.late t, st1) => .ok { s := st1, late := [t] }
    | (.ok n, st1) =>
      let (zl, st) := st1.releaseWaits c.w scSys
      let fail := fun (e : Nat) => Iss.ok { s := st, writes := sOut f.d.toNat e, waitAck := true, waitZlr := zl }
      if bits n 63 38 != 0 || bits n 511 448 != 0 then fail stBADDESC
      else if (List.range 6).any (fun i => bitOf n (32 + i) && ptrBad (bits n (127 + 64 * i) (64 + 64 * i))) then fail stBADSPACE
      else match st.servicePort c.v.proc with
        | none => fail stSTALE
        | some (port, st2) =>
          match Tab.get? st2.ports port with
          | none => fail stSTALE
          | some po =>
            if po.queue.length + po.reserved ≥ po.depth then fail stFULL
            else
              let msg : PortMsg :=
                { inl := bytesOf n 64, tenant := st2.tenantOf c.v.proc, node := st2.nodeId (st2.dieOf c.v), die := st2.dieOf c.v, proc := c.v.proc, wave := c.w, res := true }
              let st3 := (st2.modPort port (fun x => { x with reserved := x.reserved + 1 })).send [.portMessageEnqueue port (st2.obj port).gen msg none]
              .ok { s := st3.block c.w (.service port c.v.issues f.d.toNat), ready := false, waitAck := true, waitZlr := zl }) s

/-- R307: the reply: status and value commit together. -/
def execSystemCallReply (w : Nat) (value : W64) (s : State) : Host.Outcome State Fault Refusal :=
  match (s.wave? w).bind (·.wait) with
  | some (.service _ seq d) => .next (s.wake w seq (sOut d stOK ++ [{ loc := .s (d + 1), val := value }]))
  | _ => .next s

end Sys2Proof.Machine
end

