-- ==== Sys2Proof/Machine/Regs.lean ====
section
/-!
DEFINITION. Sys2Proof/Machine/Regs.lean: the register map of a die: who may write, what each register reads, registers with no behaviour of
their own, interrupt vectors (spec/17_external_interfaces_and_bringup.md R345-R361, spec/24_kernel_scheduler_host_and_ras_faults.md R463, R469).
-/

namespace Sys2Proof.Machine

/-! ## Writers (R347, R349, R354) -/

/-- The Writers column: none, S, H, A. -/
inductive WClass where
  | none | s | h | a
  deriving DecidableEq, Repr

/-- Writers: 0 host port A, 1 host port B, 2 + d the service core of die d, 10 the I3C sideband; 16 + d the distributor core of die d, which
writes its own registers only (R338). -/
def isHost (who : Nat) : Bool := decide (who < 2)

/-- BOOTSTAT.PASS of a die (R353). -/
def State.passed (s : State) (d : Nat) : Bool := bitOf (s.reg d 0x08) 4

/-- A lease is held: VALID clears by itself when CD0's TICK reaches EXPIRY (R350). -/
def State.leased (s : State) : Bool := s.host.valid && (s.host.noexp || decide (s.tickOf 0 < s.host.expiry))

/-- The lease is held by a port. -/
def State.holds (s : State) (port : Nat) : Bool := s.leased && s.host.holder == port

/-- Whether a write by `who` to a register of die d takes place (R347, R349); a die without PASS drops what its BAR0 window brings (R354). -/
def State.mayWrite (s : State) (who d : Nat) (c : WClass) : Bool :=
  who < 16 && match c with
  | .none => false
  | .s => !isHost who
  | .h => !isHost who || (s.passed d && s.holds who)
  | .a => !isHost who || s.passed d

/-! ## Registers with no behaviour of their own (R347) -/

/-- The writer class and the writable bits of such a register; none for any other offset. -/
def plainReg (d off : Nat) : Option (WClass × Nat) :=
  if off = 0x20 then some (.s, 0xFFFF)
  else if off = 0x28 then some (.s, 0x1FFFF)
  else if off = 0x40 || off = 0x48 then some (.s, 2 ^ 64 - 1)
  else if 0x3008 ≤ off && off ≤ 0x3030 && off % 8 == 0 then some (.h, 2 ^ 64 - 1)
  else if off = 0x4000 then some (.s, 2 ^ 48 - 1)
  else if off = 0x6000 || off = 0x6010 || off = 0x6018 then some (.s, 2 ^ 64 - 1)
  else if 0x10000 ≤ off && off < 0x11000 && off % 16 == 0 then some (.s, 0x00FFFFFFFFFF000F)
  else if 0x10000 ≤ off && off < 0x11000 && off % 16 == 8 then some (.s, 0xFFFF)
  else if 0x11000 ≤ off && off < 0x12000 && off % 16 == 0 then some (.s, 2 ^ 48 - 1)
  else if 0x20000 ≤ off && off < 0x40000 && off % 2 == 0 then some (.s, 0xFFFF)
  else if 0x60000 ≤ off && off < 0x64000 && off % 8 == 0 && d == 0 then some (.h, 2 ^ 40 - 1)
  else if 0x71000 ≤ off && off < 0x71020 && off % 8 == 0 then some (.a, 2 ^ 64 - 1)
  else if off = 0xC0000 then some (.s, 0xFFFF)
  else if off = 0xC0020 || off = 0xC0028 then some (.s, 2 ^ 32 - 1)
  else if off = 0x180018 then some (.h, 2 ^ 64 - 1)
  else none

/-- A resident crew is over its tenant's limit (R342, R463). -/
def State.overLimit (s : State) (k : Crew) : Bool :=
  let d := coreDie k.core
  match s.limit d (s.tenantOf k.proc) with
  | none => true
  | some (_, mask, cap) => !mask.testBit (coreCluster k.core % 16) || decide (s.tenantWaves d (s.tenantOf k.proc) > cap)

/-- A changed tenant limit asks the microcode about every resident crew of the die that is over it, with reason 15 (R463). -/
def State.limitsChanged (s old : State) (d : Nat) : State :=
  (s.crews.filter (fun e => coreDie e.2.core == d && e.2.place == .resident && s.overLimit e.2
    && !(decide (s.limit d (s.tenantOf e.2.proc) = old.limit d (s.tenantOf e.2.proc))))).foldl
    (fun s e => s.distEvent d 2 (objIx e.1) 15) s

/-- Write such a register: the writable bits change, the others keep their value. -/
def State.plainWrite (s : State) (who d off v : Nat) : State :=
  match plainReg d off with
  | none => s
  | some (c, mask) =>
    if s.mayWrite who d c then
      let s1 := s.setReg d off (mergeBits (s.reg d off) v mask)
      if 0x11000 ≤ off && off < 0x12000 then s1.limitsChanged s d else s1
    else s

/-! ## Reads (R347) -/

/-- LEASE[0] (R350). -/
def HostSide.lease (h : HostSide) (valid : Bool) : Nat :=
  packFields [(b2n valid, 0, 1), (h.holder, 1, 1), (b2n h.noexp, 2, 1), (h.expiry, 16, 48)]

/-- GSTAT.ACTIVE: graphs with a replay in progress or a kick waiting (R348). -/
def Dist.activeGraphs (x : Dist) : Nat :=
  (x.graphs.filter (fun e => e.2.active || !e.2.kicks.isEmpty)).foldl (fun n e => mergeBits n (2 ^ e.1) (2 ^ e.1)) 0

/-- CONTSTAT (R469). -/
def Die.contstat (x : Die) : Nat :=
  packFields [(x.clusters.foldl (fun n c => mergeBits n (2 ^ c) (2 ^ c)) 0, 0, 16), (b2n x.contained, 16, 1), (b2n x.dist.halted, 17, 1), (b2n x.svcStopped, 18, 1)]

/-- Eight bytes of a byte list, the first at the lowest address: the byte order of the hash registers DIGEST, LOG and QNONCE, which R358 does
not settle, is the model's choice (log 73). -/
def wordAt (l : List Byte) (off : Nat) : Nat := ofBytes ((l.drop off).take 8)

/-- What a register of a die reads, debug and snapshot blocks apart. Write-only registers read 0. The three measured values of the power block
are free. -/
def State.readReg (s : State) (d off : Nat) : Nat :=
  let x := s.die d
  if off = 0x00 then packFields [(d, 0, 3), ((Config.stepping d).toNat, 8, 8), (1, 16, 8)]
  else if off = 0x1000 then (if d = 0 then s.host.lease s.leased else 0)
  else if 0x5000 ≤ off && off < 0x5200 then bits (Tab.getD x.fmtwin ((off - 0x5000) / 32) 0).toNat (64 * (off % 32 / 8) + 63) (64 * (off % 32 / 8))
  else if 0x60000 ≤ off && off < 0x64000 && d != 0 then 0
  else if 0x70000 ≤ off && off < 0x71000 then ofBytes ((List.range 8).map (fun i => Config.idCert d (off - 0x70000 + i)))
  else if off = 0x71028 then packFields [(b2n (!x.qbuf.isEmpty && !x.qreq), 0, 1), (b2n x.qreq, 1, 1)]
  else if off = 0x71030 then x.log.length
  else if 0x71040 ≤ off && off < 0x71060 then wordAt x.digest (off - 0x71040)
  else if 0x71100 ≤ off && off < 0x71280 then wordAt x.qbuf (off - 0x71100)
  else if 0x72000 ≤ off && off < 0x74000 then wordAt (x.log.getD ((off - 0x72000) / 32) []) (off % 32)
  else if off = 0x80000 then s.host.plimit
  else if off = 0x80008 then x.pstate
  else if off = 0x80010 || off = 0x80018 || off = 0x80020 then bits (Config.freeWord s.free).toNat 15 0
  else if off = 0x2010 then mergeBits (s.reg d off) x.dist.activeGraphs 0xFFFF
  else if off = 0xC0008 then x.contstat
  else s.reg d off

/-! ## Interrupt vectors (R351, R352, R466) -/

/-- Raise a vector at the holder's port; it is pending while no lease is held. -/
def State.raiseVector (s : State) (v : Nat) : State :=
  if s.leased then { s with host := { s.host with raised := s.host.raised ++ [(s.host.holder, v)] } }
  else { s with host := { s.host with pendingVec := insertSet s.host.pendingVec v } }

/-- Vectors that wait go to the port that now holds the lease. -/
def State.flushVectors (s : State) : State :=
  if s.leased then
    { s with host := { s.host with raised := s.host.raised ++ s.host.pendingVec.map (fun v => (s.host.holder, v)), pendingVec := [] } }
  else s

/-- The vectors bound to a port whose generation is current. -/
def State.boundVectors (s : State) (id : Nat) : List Nat :=
  (s.die 0).regs.filterMap (fun e =>
    let n := e.2.toNat
    if 0x60000 ≤ e.1 && e.1 < 0x64000 && bitOf n 0 && objId (bits n 3 1) (bits n 27 4) == id && bits n 39 28 == (s.obj id).gen
    then some ((e.1 - 0x60000) / 8) else none)

/-- A port's queue has gone from empty to non-empty. -/
def State.portRaised (s : State) (id : Nat) : State := (s.boundVectors id).foldl State.raiseVector s

end Sys2Proof.Machine
end

