-- ==== Sys2Proof/Machine/Window.lean ====
section
/-!
DEFINITION. Sys2Proof/Machine/Window.lean: the Muhan command window and shootdowns (spec/14_muhan_hardware_kernel.md R290-R294, R308,
spec/08_memory_spaces_and_translation.md R198, spec/21_fault_architecture.md R398, R403).
-/

namespace Sys2Proof.Machine

/-! ## Arguments and completion (R308) -/

/-- ARGi of a die's window. -/
def State.arg (s : State) (d i : Nat) : Nat := s.reg d (0x3008 + 8 * i)
def State.setArgs (s : State) (d : Nat) (l : List W64) : State :=
  (l.foldl (fun (acc : Nat × State) v => (acc.1 + 1, acc.2.setReg d (0x3008 + 8 * acc.1) v.toNat)) (0, s)).2
/-- RESULT at completion. -/
def State.finish (s : State) (d st : Nat) : State := s.setReg d 0x3038 st
/-- A value goes to ARG5 before PEND clears. -/
def State.finishWith (s : State) (d st v : Nat) : State := (s.setReg d 0x3030 v).finish d st
def State.pendCmd (s : State) (d : Nat) : Bool := bitOf (s.reg d 0x3038) 63

/-- A handle argument (R287, R308): a kind that is not taken, or another package's, gives BADDESC, a stale one STALE. -/
def State.cmdHandle (s : State) (h : Nat) (kinds : List Nat) : Except Nat Nat :=
  let w := BitVec.ofNat 64 h
  if !kinds.contains (hKind w) || s.foreign w then .error stBADDESC
  else if s.stale w then .error stSTALE else .ok (hId w)

/-- A kind-0 physical address (R186) with an alignment. -/
def pa0 (a align : Nat) : Bool := decide (a < 2 ^ 40) && decide (a % align = 0)

/-- Waves that an object names: itself, its members, the process's waves on every die. -/
def State.wavesNamed (s : State) (id : Nat) : List Nat :=
  let k := (s.obj id).kind
  (s.waves.filter (fun e => !e.2.dead &&
    (if k = kWAVE then e.1 == id else if k = kCREW then e.2.crew == id else k == kPROC && e.2.proc == id))).map (·.1)

/-! ## Processes (R290, R291) -/

/-- PNEW: the image's TENANT and process body are used. -/
def State.cmdPnew (s : State) (d : Nat) : State :=
  let a := s.arg d 0
  if !pa0 a 64 then s.finish d stBADDESC
  else
    let (n, s1) := s.pointRead (fun s k => s.homeRead k) a 64
    match s1.freeEntry d with
    | none => s1.finish d stQUOTA
    | some id =>
      let p : Proc :=
        { die := d, ptroot := BitVec.ofNat 40 (bits n 167 128), asn := BitVec.ofNat 16 (bits n 183 168), waitspin := BitVec.ofNat 16 (bits n 199 184)
          htab := BitVec.ofNat 40 (bits n 239 200), trapbase := va (bits n 303 256), faultport := BitVec.ofNat 64 (bits n 383 320)
          svcport := BitVec.ofNat 64 (bits n 447 384), tenant := BitVec.ofNat 16 (bits n 79 64) }
      let s2 := s1.modObj id (fun o => { o with kind := kPROC, refs := 0, tenant := bits n 79 64, owner := objIx id, dying := false })
      let s3 : State := { s2 with procs := Tab.set s2.procs id p }
      s3.finishWith d stOK (s3.handleOf id).toNat

/-- Suspend the waves that an object names (R294). -/
def State.cmdSuspend (s : State) (d : Nat) : State :=
  match s.cmdHandle (s.arg d 0) [kPROC, kWAVE, kCREW] with
  | .error e => s.finish d e
  | .ok id => ((s.wavesNamed id).foldl State.suspendWave s).finish d stOK

/-- Resume one wave (R294, R398): an undelivered trap enters the handler now, or the wave goes on at TEPC. -/
def State.resumeWave (s : State) (w : Nat) : State :=
  match s.wave? w with
  | none => s
  | some v =>
    if !v.suspended then s
    else
      let base := ((s.proc? v.proc).map (·.trapbase)).getD 0#48
      let v0 := { v with suspended := false, undelivered := false }
      let v1 : Wave :=
        if !v.undelivered then v0
        else if base = 0#48 then
          (match v.frozen with
            | some r => { v0 with frozen := none, resume := some { r with pc := v.frame.tepc }, trapMask := 0 }
            | none => { (v0.enterAt (v.trapMask &&& v.live) v.frame.tepc) with trapMask := 0 })
        else { (v0.enterAt (v.trapMask &&& v.live) base) with inTrap := true, rfeMask := 0 }
      ((s.setWave w v1).makeRunnable v.crew).deadTest w

/-- RESUME; a process's containment ends with it (R403). -/
def State.cmdResume (s : State) (d : Nat) : State :=
  match s.cmdHandle (s.arg d 0) [kPROC, kWAVE, kCREW] with
  | .error e => s.finish d e
  | .ok id =>
    let s1 := if (s.obj id).kind = kPROC then s.modProc id (fun p => { p with contained := false }) else s
    ((s1.wavesNamed id).foldl State.resumeWave s1).finish d stOK

/-- KILL ends the waves as wv.exit does. -/
def State.cmdKill (s : State) (d : Nat) : State :=
  match s.cmdHandle (s.arg d 0) [kWAVE, kCREW] with
  | .error e => s.finish d e
  | .ok id => ((s.wavesNamed id).foldl State.killWave s).finish d stOK

/-! ## SHOOT (R198) -/

/-- A shootdown of a scope begins: every die in it is asked; the window reads PEND. -/
def State.cmdShoot (s : State) (d : Nat) : State :=
  let base := s.arg d 1
  let n := s.arg d 2
  let fl := s.arg d 3
  if base % 4096 != 0 || base ≥ 2 ^ 48 || n = 0 || n > 2 ^ 36 then s.finish d stBADDESC
  else
    let dies := if bitOf fl 0 then List.range 8 else [d]
    let x : Shoot := { asn := bits (s.arg d 0) 15 0, base := base, pages := n, wb := bitOf fl 1, dies := dies, window := some d }
    let s1 : State := { s with shoots := Tab.set s.shoots s.nextShoot x, nextShoot := s.nextShoot + 1 }
    (s1.setReg d 0x3038 (2 ^ 63)).send (dies.map (fun k => .shootdownRequest s.nextShoot k))

/-- The ranges of memory that the entries a shootdown removes from a die map. -/
def State.shotRanges (s : State) (d asn base pages : Nat) : List (Nat × Nat) :=
  ((Tab.keys s.cores).filter (fun c => coreDie c == d)).flatMap (fun c =>
    ((s.core c).maps.filter (fun t => t.asn == asn && t.base < base + pages * 4096 && base < t.base + t.size)).map (fun t =>
      ((physOf t.leaf t.base t.base).key, t.size)))

/-- R198 steps 1 and 3 on one die. -/
def execShootdownRequest (id die : Nat) (s : State) : Host.Outcome State Fault Refusal :=
  match Tab.get? s.shoots id with
  | none => .next s
  | some x =>
    let s1 := s.shootDie die x.asn x.base x.pages x.wb
    let x' := { x with dies := x.dies.filter (· != die), keys := x.keys ++ s.shotRanges die x.asn x.base x.pages }
    let s2 : State := { s1 with shoots := Tab.set s1.shoots id x' }
    .next (if x'.dies.isEmpty then s2.send [.shootdownComplete id] else s2)

/-- A write through a removed entry that has not been performed yet (R198 step 2). -/
def State.shotPending (s : State) (x : Shoot) : Bool :=
  let mine := fun (w k : Nat) =>
    x.keys.any (fun r => r.1 ≤ k && k < r.1 + r.2)
    && (match (s.wave? w).bind (fun v => s.proc? v.proc) with | some p => p.asn.toNat == x.asn | none => false)
  s.inflight.any (fun m => match m with | .nonholderWriteAtHome w k _ => mine w k | _ => false)
  || s.locks.any (fun e => e.2.writes.any (fun y => mine y.wave y.key))

/-- R198: complete once every die has answered and every access already translated has been performed. -/
def execShootdownComplete (id : Nat) (s : State) : Host.Outcome State Fault Refusal :=
  match Tab.get? s.shoots id with
  | none => .next s
  | some x =>
    if !x.dies.isEmpty then .next s
    else if s.shotPending x then .next (s.send [.shootdownComplete id])
    else
      let s1 : State := { s with shoots := Tab.del s.shoots id }
      .next (match x.window with
        | some d => s1.finish d stOK
        | none => s1)

/-! ## READ, POOL, ORPHAN (R290-R292, R308) -/

/-- What the wave waits on, by REASON (R292). -/
def Wait.on : Wait → Nat
  | .port id .. => objIx id
  | .waitSet id .. => objIx id
  | .future _ _ _ _ addr => addr
  | .lock line .. => line * 128
  | .join w .. => objIx w
  | .service p .. => objIx p

/-- The wave body (R292); the place of a context in the cave is free. -/
def State.waveBody (s : State) (v : Wave) : Nat :=
  let pl := ((s.crew? v.crew).map (·.place)).getD .resident
  let cave := pl == .cave || pl == .restoring
  packFields
    [(v.prio, 128, 3), (b2n v.boost, 131, 1), ((match v.wait with | some x => if s.waveState v = 2 then x.reason else 0 | none => 0), 132, 4)
     , (objIx v.crew, 144, 24), (v.member, 168, 5), (v.width, 176, 8), (v.nvregs, 184, 8), (s.coreOf v, 192, 11), (v.wslot, 203, 5)
     , (b2n cave, 208, 1), (v.launch.toNat, 256, 32), (v.block.toNat, 288, 32)
     , (if cave then (Config.freeWord s.free).toNat else 0, 320, 48)
     , ((match v.wait with | some x => x.on | none => 0), 368, 48)]

/-- The process body (R291). -/
def Proc.body (p : Proc) : Nat :=
  packFields [(p.ptroot.toNat, 128, 40), (p.asn.toNat, 168, 16), (p.waitspin.toNat, 184, 16), (p.htab.toNat, 200, 40), (p.trapbase.toNat, 256, 48)
    , (p.faultport.toNat, 320, 64), (p.svcport.toNat, 384, 64)]

/-- An object entry as READ shows it (R290); the bodies of the other kinds are internal, and free. -/
def State.entry (s : State) (id : Nat) : Nat :=
  let o := s.obj id
  packFields [(o.kind, 0, 5), (o.gen, 8, 12), (s.objState id, 20, 4), (o.refs, 32, 32), (o.tenant, 64, 16), (o.owner, 80, 24)]
  + (match s.proc? id, s.wave? id with
     | some p, _ => p.body
     | none, some v => s.waveBody v
     | none, none => (List.range 6).foldl (fun n i => n + (Config.freeWord (s.free + i)).toNat * 2 ^ (128 + 64 * i)) 0)

def State.cmdRead (s : State) (d : Nat) : State :=
  match s.cmdHandle (s.arg d 0) ((List.range 32).drop 1) with
  | .error e => s.finish d e
  | .ok id =>
    let a := s.arg d 1
    if !pa0 a 64 then s.finish d stBADDESC
    else
      let s1 := s.pointWrite (fun s k b => s.homeWrite k b) a (bytesOf (s.entry id) 64)
      { (s1.finish d stOK) with free := s.free + 6 }

/-- Frames of a range of this die's HBM join its pool. -/
def State.cmdPool (s : State) (d : Nat) : State :=
  let a := s.arg d 0
  let n := s.arg d 1
  if !pa0 a 4096 || keyDie a != d || a + n * 4096 > (d + 1) * 2 ^ 37 then s.finish d stBADDESC
  else
    let s1 := s.modDie d (fun x => { x with pool := x.pool ++ (List.range n).map (fun i => a + 4096 * i) })
    s1.finishWith d stOK (s1.die d).pool.length

def State.cmdOrphan (s : State) (d : Nat) : State :=
  match (s.die d).orphans with
  | [] => s.finish d stEMPTY
  | f :: rest => (s.modDie d (fun x => { x with orphans := rest })).finishWith d stOK f

/-! ## A write of CMD (R308) -/

def State.runCommand (s : State) (d code : Nat) : State :=
  match code with
  | 1 => s.cmdPnew d
  | 2 => s.cmdSuspend d
  | 3 => s.cmdResume d
  | 4 => s.cmdKill d
  | 5 => s.cmdShoot d
  | 6 => s.cmdRead d
  | 7 => s.cmdPool d
  | 8 => s.cmdOrphan d
  | _ => s.finish d stBADDESC

/-- A write of CMD after the arguments: dropped while PEND is set; a contained die serves it when its containment ends (R403). -/
def State.command (s : State) (who d code : Nat) (args : List W64) : State :=
  if !s.mayWrite who d .h then s
  else
    let s1 := s.setArgs d args
    if s.pendCmd d then s1
    else
      let s2 := s1.setReg d 0x3000 (code % 256)
      if (s.die d).contained then (s2.setReg d 0x3038 (2 ^ 63)).modDie d (fun x => { x with cmdHeld := true }) else s2.runCommand d (code % 256)

/-- R308. -/
def execPnew (who die : Nat) (arg0 : W64) (s : State) : Host.Outcome State Fault Refusal := .next (s.command who die 1 [arg0])
/-- R308, R294. -/
def execSuspend (who die : Nat) (h : W64) (s : State) : Host.Outcome State Fault Refusal := .next (s.command who die 2 [h])
/-- R308, R398. -/
def execResume (who die : Nat) (h : W64) (s : State) : Host.Outcome State Fault Refusal := .next (s.command who die 3 [h])
/-- R308. -/
def execKill (who die : Nat) (h : W64) (s : State) : Host.Outcome State Fault Refusal := .next (s.command who die 4 [h])
/-- R308, R198. -/
def execShoot (who die : Nat) (asn addr pages flags : W64) (s : State) : Host.Outcome State Fault Refusal :=
  .next (s.command who die 5 [asn, addr, pages, flags])
/-- R308, R290. -/
def execReadCmd (who die : Nat) (h pa : W64) (s : State) : Host.Outcome State Fault Refusal := .next (s.command who die 6 [h, pa])
/-- R308, R322. -/
def execPool (who die : Nat) (pa n : W64) (s : State) : Host.Outcome State Fault Refusal := .next (s.command who die 7 [pa, n])
/-- R308, R311. -/
def execOrphan (who die : Nat) (s : State) : Host.Outcome State Fault Refusal := .next (s.command who die 8 [])
/-- R308: a code outside the table. -/
def execUnknownCommand (who die code : Nat) (s : State) : Host.Outcome State Fault Refusal := .next (s.command who die code [])

end Sys2Proof.Machine
end

