-- ==== Sys2Proof/Machine/Ports.lean ====
section
/-!
DEFINITION. Sys2Proof/Machine/Ports.lean: ports, messages, page grants and pg.pull (spec/15_ports_grants_names.md R310-R322, R326,
spec/22_execution_and_instruction_faults.md R426-R428, spec/24_kernel_scheduler_host_and_ras_faults.md R453-R455).
-/

namespace Sys2Proof.Machine

/-! ## Creating a port (R313) -/

/-- R313. -/
def execPtNew (f : GR) (s : State) : Host.Outcome State Fault Refusal :=
  issue (.ptNew f) (fun c st =>
    let b := (readB c f).toNat
    let depth := bits b 10 0
    if depth = 0 || depth > 1024 || b ≥ 2 ^ 12 then status f stBADDESC st
    else match st.create c.v.proc (st.dieOf c.v) kPORT (rightsNew ||| 0x0C#8) with
      | .error e => status f e st
      | .ok (id, slot, st1) =>
        okSlot f slot { st1 with ports := Tab.set st1.ports id { proc := c.v.proc, depth := depth, launch := bitOf b 11 } }) s

/-! ## Page-table entries that grants touch (R315, R318) -/

/-- The level-3 entry of a page below valid tables; level-0 entries 504 to 511 are never read (R192). -/
def State.slotFrom (s : State) (table lv a : Nat) : Nat → Option Nat
  | 0 => none
  | n + 1 =>
    let key := table + 8 * (a / 2 ^ levelShift lv % 512)
    if lv = 3 then some key
    else
      let e := BitVec.ofNat 64 (s.cohN key 8)
      if pteV e && !pteLeaf e then s.slotFrom (pteFrame e * 4096) (lv + 1) a n else none
def State.pteSlot (s : State) (root vpn : Nat) : Option Nat := if vpn * 4096 < globalTop then s.slotFrom (root * 4096) 0 (vpn * 4096) 4 else none

/-- The leaf of a page that may be granted (R315). -/
def State.grantLeaf (s : State) (root vpn : Nat) : Option W64 :=
  if vpn * 4096 ≥ globalTop then none
  else match s.walk root (vpn * 4096) with
  | .leaf e _ sz => if sz = 12 && pteCA e = 0 && (pteGS e = 0 || pteGS e = 2) then some e else none
  | .bad _ => none

/-- An invalid level-3 entry under valid tables (R318). -/
def State.pageEmpty (s : State) (root vpn : Nat) : Bool :=
  match s.pteSlot root vpn with
  | some key => !pteV (BitVec.ofNat 64 (s.cohN key 8))
  | none => false

/-! ## pt.send (R314-R317, R321, R326) -/

/-- Grant g of a message descriptor: first page number and pages. -/
def grantOf (n g : Nat) : Nat × Nat := (bits n (227 + 64 * g) (192 + 64 * g), bits n (233 + 64 * g) (228 + 64 * g) + 1)

/-- A descriptor that R428 refuses. -/
def sendBad (n : Nat) : Bool :=
  bits n 8 0 > 256 || bits n 11 9 > 4 || bits n 13 12 = 3 || bits n 15 14 != 0 || bits n 31 17 != 0 || bits n 63 56 != 0
  || bits n 127 112 != 0 || bits n 511 448 != 0
  || (List.range (bits n 11 9)).any (fun g => bits n (255 + 64 * g) (234 + 64 * g) != 0)

/-- The launch-rights entry that admits a tenant's records to a port's owner: the lowest-numbered valid one (R326). -/
def State.launchEntry (s : State) (die tenant proc : Nat) : Option Nat :=
  (List.range 256).find? (fun i =>
    let e := s.reg die (0x10000 + 16 * i)
    bitOf e 0 && bits e 31 16 == tenant && bits e 55 32 == objIx proc)

/-- The checks of a send to a port of this package, after those of the descriptor (R326, R454, R455). -/
def State.launchRefuses (s : State) (grants handles len tenant : Nat) (id : Nat) (p : Port) : Option Nat :=
  if !p.launch then none
  else if grants != 0 || handles != 0 || !([64, 128, 192, 256].contains len) then some stBADDESC
  else if (s.launchEntry (objDie id) tenant p.proc).isNone then some stNORIGHT
  else if ((s.proc? p.proc).map (·.contained)).getD true then some stQUOTA
  else none

/-- The slots whose handles a message carries. -/
def sendSlots (n : Nat) : List Nat := (List.range (bits n 13 12)).map (fun i => bits n (43 + 12 * i) (32 + 12 * i))

/-- Their check (R455): a slot that is empty or lacks XFER, or another object's handle for another package. -/
def State.slotsRefuse (s : State) (p : Nat) (foreign : Bool) (l : List Nat) : Option Nat :=
  l.findSome? (fun k =>
    match (if k = 0 then none else s.slot? p k) with
    | none => some stEMPTY
    | some h =>
      if !h.rights.getLsbD rtXFER then some stNORIGHT
      else if foreign && hKind h.handle != kPORT then some stBADDESC else none)

/-- The pages of a message's grants, in order. -/
def grantPages (n : Nat) : List Nat :=
  (List.range (bits n 11 9)).flatMap (fun g => let (a, k) := grantOf n g; (List.range k).map (fun i => a + i))

/-- The grants with their leaves; none when a page breaks R315 or two grants overlap. -/
def State.grantsOf (s : State) (root n : Nat) : Option (List PageGrant) :=
  if (grantPages n).eraseDups.length != (grantPages n).length then none
  else (List.range (bits n 11 9)).mapM (fun g =>
    let (a, k) := grantOf n g
    ((List.range k).mapM (fun i => s.grantLeaf root (a + i))).map (fun ls => { first := a, leaves := ls }))

/-- A line of a page is locked, or a lock request for it has been ordered at its home (R242, R317). -/
def State.pageLocked (s : State) (leaf : W64) : Bool :=
  (List.range 32).any (fun i =>
    let line := lineOf (pteFrame leaf * 4096) + i
    (match Tab.get? s.locks line with | some l => l.holder.isSome || l.releasing | none => false)
    || s.inflight.any (fun m => match m with | .lockRequestAtHome w _ _ x _ _ => x == line && (s.wave? w).isSome | _ => false))

/-- The pages become granted-away and are shot down with write-back (R316); towards another package they are held there (R321). -/
def State.grantAway (s : State) (p : Proc) (node : Option Nat) (gs : List PageGrant) : State :=
  let s1 := gs.foldl (fun s g => (List.range g.leaves.length).foldl (fun s i => s.setGS p.ptroot.toNat ((g.first + i) * 4096) 1) s) s
  let s2 := gs.foldl (fun s g => s.shootPkg p.asn.toNat (g.first * 4096) g.leaves.length true) s1
  match node with
  | none => s2
  | some k => gs.foldl (fun s g => g.leaves.foldl (fun s l => s.pageExcl (pteFrame l) k) s) s2

/-- Carry the handles: each holds a reference; under MOVE the sender's slots are emptied (R310, R316). -/
def State.carry (s : State) (p self : Nat) (move : Bool) (foreign : Bool) (l : List Nat) : List (W64 × BitVec 8) × State :=
  let hs := l.filterMap (fun k => (s.slot? p k).map (fun h => (h.handle, h.rights)))
  let s1 := if foreign then s else hs.foldl (fun s h =>
    if s.foreign h.1 || s.stale h.1 then s else s.modObj (hId h.1) (fun o => { o with refs := o.refs + 1 })) s
  (hs, if move then l.foldl (fun s k => s.emptyOne p k self) s1 else s1)

/-- The statuses that a port of another package may answer a send with: its state is not this package's (log 17). -/
def farStatus (x : W64) : Nat := [stOK, stFULL, stSTALE, stBADDESC, stNORIGHT, stQUOTA].getD (x.toNat % 6) stOK

/-- A checked send, with its inline bytes (R316). -/
def sendGo (c : Ctx) (f : GR) (h : W64) (n : Nat) (inl : List Byte) (s : State) : Iss :=
  let far := s.foreign h
  let near := !far && objDie (hId h) == s.dieOf c.v
  let fail := fun (e : Nat) => if near then status f e s else withRel (status f e s)
  let p := c.v.proc
  match s.proc? p with
  | none => fail stSTALE
  | some pr =>
    let scope := if far then scSys else if near then scDie else scPkg
    let s0 := s.relObj c.v scope { kind := 4, ident := slotNum (readA c f) }
    let (zl, s1) := s0.releaseWaits c.w scope
    match s1.slotsRefuse p far (sendSlots n), s1.grantsOf pr.ptroot.toNat n with
    | some e, _ => fail e
    | none, none => fail stBADDESC
    | none, some gs =>
      let msg : PortMsg :=
        { inl := inl, tag := BitVec.ofNat 64 (bits n 191 128), tenant := pr.tenant.toNat, node := s.nodeId (s.dieOf c.v), die := s.dieOf c.v
          proc := p, grants := gs, wave := c.w, pgen := (s.obj p).gen, res := true, near := near }
      let locked := gs.any (fun g => g.leaves.any s1.pageLocked)
      if far then
        let (x, s2) := s1.drawFree
        let e := farStatus x
        if e != stOK then .ok { s := s2, writes := sOut f.d.toNat e, waitAck := true, waitZlr := zl }
        else if locked then .ok { s := s2, writes := sOut f.d.toNat stBUSY, waitAck := true, waitZlr := zl }
        else
          let (_, s3) := (s2.grantAway pr (some (hNode h)) gs).carry p c.w (bitOf n 16) true (sendSlots n)
          .ok { s := s3, writes := sOut f.d.toNat stOK, waitAck := true, waitZlr := zl }
      else match Tab.get? s1.ports (hId h) with
        | none => fail stSTALE
        | some po =>
          if po.queue.length + po.reserved ≥ po.depth then fail stFULL
          else if locked then fail stBUSY
          else
            let (hs, s2) := (s1.grantAway pr none gs).carry p c.w (bitOf n 16) false (sendSlots n)
            let s3 := (s2.modPort (hId h) (fun x => { x with reserved := x.reserved + 1 })).send
              [.portMessageEnqueue (hId h) (hGen h) { msg with handles := hs } (some (c.w, c.v.issues, f.d.toNat))]
            .ok { s := s3, ready := false, waitAck := !near, waitZlr := zl }

/-- R316: the release of R202 comes first. -/
def execPtSend (f : GR) (s : State) : Host.Outcome State Fault Refusal :=
  issue (.ptSend f) (fun c st =>
    if !(st.writesDone c.w) then .stall st
    else match st.readBlock c (readB c f) 64 64 false with
    | (.trap t, st1) => .trap [t] st1
    | (.late t, st1) => .ok { s := st1, late := [t] }
    | (.ok n, st1) =>
      match st1.checkSlot c.v.proc (slotNum (readA c f)) [kPORT] rtSEND true with
      | .error e => withRel (status f e st1)
      | .ok h =>
        if sendBad n then withRel (status f stBADDESC st1)
        else match (if st1.foreign h then none else
            (Tab.get? st1.ports (hId h)).bind (st1.launchRefuses (bits n 11 9) (bits n 13 12) (bits n 8 0) (st1.tenantOf c.v.proc) (hId h))) with
          | some e => withRel (status f e st1)
          | none =>
            let k := bits n 8 0
            if k = 0 then sendGo c f h n [] st1
            else match st1.readSpan c (BitVec.ofNat 64 (bits n 111 64)) k with
              | (.trap t, st2) => .trap [t] st2
              | (.late t, st2) => .ok { s := st2, late := [t] }
              | (.ok x, st2) => sendGo c f h n (bytesOf x k) st2) s

/-! ## Receiving (R318-R320) -/

/-- A descriptor that R428 refuses. -/
def recvBad (n : Nat) : Bool :=
  bits n 5 0 != 0 || bits n 63 48 != 0 || bits n 120 112 > 256 || bits n 127 121 != 0 || bits n 191 164 != 0 || bits n 511 208 != 0

/-- Check a range as writes (R429): its pieces with their targets. -/
def State.checkSpan (s : State) (v : Wave) (a n : Nat) : Except Trap (List (Nat × Nat × Target)) × State :=
  (spanPieces a n).foldl (fun acc p =>
    match acc with
    | (.error t, s) => (.error t, s)
    | (.ok l, s) => match s.resolve v 0 { kind := aWRITE, size := p.2, align := 1 } false p.1 with
      | (.error t, s1) => (.error t, s1)
      | (.ok tgt, s1) => (.ok (l ++ [(p.1, p.2, tgt)]), s1)) (.ok [], s)

/-- Header and inline ranges of a receive descriptor. -/
def State.checkRecv (s : State) (v : Wave) (n : Nat) :
    Except Trap (List (Nat × Nat × Target) × List (Nat × Nat × Target)) × State :=
  match s.checkSpan v (bits n 47 0) 64 with
  | (.error t, s1) => (.error t, s1)
  | (.ok h, s1) =>
    if bits n 120 112 = 0 then (.ok (h, []), s1)
    else match s1.checkSpan v (bits n 111 64) (bits n 120 112) with
      | (.error t, s2) => (.error t, s2)
      | (.ok i, s2) => (.ok (h, i), s2)

/-- Store bytes over checked pieces; the completion fault met first. Host writes are counted (R215). -/
def State.putSpan (s : State) (c : Ctx) (l : List (Nat × Nat × Target)) (bs : List Byte) : Option Trap × State :=
  let r := l.foldl (fun (acc : Option Trap × List Byte × State) p =>
    let part := acc.2.1.take p.2.1
    if part.isEmpty then acc
    else match acc.2.2.storeT c (lowLane (maskOf c.lanes)) p.1 part.length (ofBytes part) false p.2.2 with
      | (.ok, s1) => (acc.1, acc.2.1.drop p.2.1, s1)
      | (.late t, s1) => (if acc.1.isSome then acc.1 else some t, acc.2.1.drop p.2.1, s1)
      | (.refused t, s1) => (if acc.1.isSome then acc.1 else some t, acc.2.1.drop p.2.1, s1)) (none, bs, s)
  (r.1, r.2.2.countWrites c (counted false l) false)

/-- The leaf that the receiver gets (R320, R321). -/
def recvLeaf (far : Bool) (node : Nat) (l : W64) : Nat :=
  packFields ([(1, 0, 1), (bits l.toNat 3 1, 1, 3), (if far then 3 else 2, 6, 2), (pteFrame l, 12, 36)] ++ (if far then [(3, 8, 2), (node, 48, 16)] else []))

/-- Map a message's grants into the receiver's window (R320 step 3). -/
def State.mapGrants (s : State) (root gwin : Nat) (far : Bool) (m : PortMsg) : State :=
  (m.grants.flatMap (fun g => g.leaves)).zipIdx.foldl (fun s e =>
    match s.pteSlot root (gwin + e.2) with
    | some key => s.homeWriteN key 8 (recvLeaf far m.node e.1)
    | none => s) s

/-- The first page of each grant in the window. -/
def grantStarts (gwin : Nat) : List PageGrant → List (Nat × Nat)
  | [] => []
  | g :: t => (gwin, g.leaves.length) :: grantStarts (gwin + g.leaves.length) t

/-- The received header (R319). -/
def recvHeader (m : PortMsg) (gwin : Nat) (slots : List Nat) (seq : Nat) : Nat :=
  packFields
    ([(m.inl.length, 0, 9), (m.grants.length, 9, 3), (m.handles.length, 12, 2), (m.tenant, 16, 16), (m.node, 32, 16), (m.die, 48, 3)
      , (m.tag.toNat, 64, 64), (slots.getD 0 0, 128, 12), (slots.getD 1 0, 140, 12), (seq, 448, 64)]
     ++ (grantStarts gwin m.grants).zipIdx.flatMap (fun e => [(e.1.1, 192 + 64 * e.2, 36), (e.1.2 - 1, 228 + 64 * e.2, 6)]))

/-- The received rights of a handle from another package (R321). -/
def farRights (r : BitVec 8) : BitVec 8 := r &&& rightsSend

/-- Take the head message for a wave (R320 steps 1 to 5): a status, or the result word, a completion fault if one was met, and the
state. -/
def State.takeMsg (s : State) (c : Ctx) (id slot n : Nat) (hd inl : List (Nat × Nat × Target)) : Nat ⊕ (Nat × Option Trap × State) :=
  match Tab.get? s.ports id, s.proc? c.v.proc with
  | some po, some pr =>
    (match po.queue with
     | [] => .inl stEMPTY
     | (m, seq) :: rest =>
       let far := m.node != s.nodeId 0
       let pages := m.grants.foldl (fun k g => k + g.leaves.length) 0
       let gwin := bits n 163 128
       let slots := s.emptySlots c.v.proc m.handles.length
       if slots.length < m.handles.length then .inl stFULL
       else if bits n 207 192 < pages || !((List.range pages).all (fun i => s.pageEmpty pr.ptroot.toNat (gwin + i))) then .inl stBADDESC
       else
         let s1 := s.modPort id (fun x => { x with queue := rest })
         let s2 := s1.mapGrants pr.ptroot.toNat gwin far m
         let s3 := (m.handles.zip slots).foldl (fun s e =>
           let s' := s.putSlot c.v.proc e.2 e.1.1 (if far then farRights e.1.2 else e.1.2)
           if s'.foreign e.1.1 || s'.stale e.1.1 then s' else s'.modObj (hId e.1.1) (fun o => { o with refs := o.refs - 1 })) s2
         let s4 := s3.acqObj c.v (if m.die = s.dieOf c.v && !far then scDie else scPkg) { kind := 4, ident := slot }
         let (t1, s5) := s4.putSpan c hd (bytesOf (recvHeader m gwin slots seq) 64)
         let (t2, s6) := s5.putSpan c inl (m.inl.take (bits n 120 112))
         .inr (stOK + rest.length * 2 ^ 8, if t1.isSome then t1 else t2, s6))
  | _, _ => .inl stSTALE

/-- The head message can be taken on a wave's die: a release at .die scope holds no receiver of another die until its writes are acknowledged
(R202, R203). -/
def State.headReady (s : State) (v : Wave) (po : Port) : Bool :=
  match po.queue.head? with
  | some (m, _) => !m.near || s.dieOf v == m.die || s.acked m.wave
  | none => true

/-- R320; `block`: pt.recv. -/
def recvIssue (c : Ctx) (f : GR) (block : Bool) (st : State) : Iss :=
  match st.readBlock c (readB c f) 64 64 false with
  | (.trap t, st1) => .trap [t] st1
  | (.late t, st1) => .ok { s := st1, late := [t] }
  | (.ok n, st1) =>
    let slot := slotNum (readA c f)
    match st1.checkSlot c.v.proc slot [kPORT] rtRECV with
    | .error e => status f e st1
    | .ok h =>
      match Tab.get? st1.ports (hId h) with
      | none => status f stSTALE st1
      | some po =>
        if recvBad n || po.launch then status f stBADDESC st1
        else match st1.checkRecv c.v n with
          | (.error t, st2) => .trap [t] st2
          | (.ok (hd, inl), st2) =>
            if !(st2.headReady c.v po) || c.v.ackcnt + (counted false (hd ++ inl)).length > 65535 then .stall st2
            else if po.queue.isEmpty then
              (if block then
                .ok { s := (st2.modPort (hId h) (fun x => { x with waiters := x.waiters ++ [c.w] })).block c.w
                        (.port (hId h) slot c.v.issues f.d.toNat (BitVec.ofNat 512 n)), ready := false }
               else status f stEMPTY st2)
            else match st2.takeMsg c (hId h) slot n hd inl with
              | .inl e => status f e st2
              | .inr (x, none, st3) => uniOut f (BitVec.ofNat 64 x) st3
              | .inr (_, some t, st3) => .ok { s := st3, late := [batchTrap c t] }

/-- R320. -/
def execPtRecv (f : GR) (s : State) : Host.Outcome State Fault Refusal := issue (.ptRecv f) (fun c st => recvIssue c f true st) s
/-- R320. -/
def execPtTry (f : GR) (s : State) : Host.Outcome State Fault Refusal := issue (.ptTry f) (fun c st => recvIssue c f false st) s

/-! ## Arrival at the home (R310, R320, R326, R401) -/

/-- The run that holds a pending result, wherever it stands. -/
def Wave.runOf (v : Wave) (seq : Nat) : Run :=
  let has := fun (r : Option Run) => match r with
    | some r => if r.pending.any (fun x => x.seq == seq && x.left.isNone) then some r else none
    | none => none
  match has v.run with
  | some r => r
  | none => match has v.frozen with
    | some r => r
    | none => match has v.resume with
      | some r => r
      | none => match v.dbg.bind (fun d => has d.frozen) with
        | some r => r
        | none => { mask := 0, start := 0, pc := 0 }

/-- What an instruction that ends a blocked wait sees: the wave and the place of the blocked instruction. -/
def wakeCtx (w : Nat) (v : Wave) (seq : Nat) : Ctx :=
  let r := v.runOf seq
  { w := w, v := v, run := { r with pc := r.site.pc }, raw := .event, words := [r.site.word, r.site.x1, r.site.x2]
    lanes := lanesOf (r.mask &&& v.live) v.width, act := lanesOf (r.mask &&& v.live) v.width }

/-- A completion fault of a blocked instruction (R320, R392). -/
def State.wakeFault (s : State) (c : Ctx) (seq : Nat) (t : Trap) : State :=
  let lf : LateFault := { seq := seq, trap := batchTrap c t, pc := c.run.site.pc, word := c.run.site.word, x1 := c.run.site.x1, x2 := c.run.site.x2 }
  (s.modWave c.w (fun v => v.addLate seq lf)).wake c.w seq []

/-- Blocked receivers take messages in their order (R320); `fuel` bounds their number. -/
def State.servePort (s : State) (id : Nat) : Nat → State
  | 0 => s
  | fuel + 1 =>
    match Tab.get? s.ports id with
    | none => s
    | some po =>
      match po.waiters, po.queue with
      | w :: rest, _ :: _ =>
        let s0 := s.modPort id (fun x => { x with waiters := rest })
        let s1 := match (s0.wave? w).bind (fun v => v.wait.map (fun x => (v, x))) with
          | some (v, .port _ slot seq d desc) =>
            let c := wakeCtx w v seq
            (match s0.checkRecv v desc.toNat with
             | (.error t, s2) => s2.wakeFault c seq t
             | (.ok (hd, inl), s2) => match s2.takeMsg c id slot desc.toNat hd inl with
               | .inl e => s2.wake w seq (sOut d e)
               | .inr (x, none, s3) => s3.wake w seq (sOut d x)
               | .inr (_, some t, s3) => s3.wakeFault c seq t)
          | _ => s0
        s1.servePort id fuel
      | _, _ => s

/-- Close the handles that a discarded message carries (R311). -/
def State.closeCarried (s : State) (m : PortMsg) : State := m.handles.foldl (fun s h => s.unref h.1) s

/-- The sender's status. -/
def State.sent (s : State) (ret : Option (Nat × Nat × Nat)) : State :=
  match ret with
  | some (w, seq, d) => s.fill w seq (sOut d stOK)
  | none => s

/-- The release of a message's sender has taken effect (R202, R203): at .die scope where every blocked receiver is on the sender's die. -/
def State.msgReady (s : State) (port : Nat) (m : PortMsg) : Bool :=
  m.record || m.node != s.nodeId 0
  || (s.writesDone m.wave
    && (s.acked m.wave
      || (m.near && (((Tab.get? s.ports port).map (·.waiters)).getD []).all (fun w => ((s.wave? w).map (fun v => s.dieOf v == m.die)).getD true))))

/-- A message from another package that its port does not take: a launch port's home refuses it (R326). -/
def State.farRefused (s : State) (port : Nat) (m : PortMsg) (po : Port) : Bool :=
  m.node != s.nodeId 0 && (s.launchRefuses m.grants.length m.handles.length m.inl.length m.tenant port po).isSome

/-- The handles of this package's objects that a message from another package carries hold references from now on (R310). -/
def State.carryFar (s : State) (m : PortMsg) : State :=
  if m.node == s.nodeId 0 then s
  else m.handles.foldl (fun s h => if s.foreign h.1 || s.stale h.1 then s else s.modObj (hId h.1) (fun o => { o with refs := o.refs + 1 })) s

/-- R310: a message joins the queue; receivers and wait sets are served, bound vectors raised, a launch port's records considered. A message
waits, with those behind it, for the release of its sender (R203); one whose port is gone is discarded as a queued one is (R311). -/
def execPortMessageEnqueue (port gen : Nat) (msg : PortMsg) (ret : Option (Nat × Nat × Nat)) (s : State) : Host.Outcome State Fault Refusal :=
  if !(s.msgReady port msg) then .next { s with inflight := .portMessageEnqueue port gen msg ret :: s.inflight }
  else
  let s0 := ((if msg.record && msg.crew != 0 then s.modCrew msg.crew (fun k => { k with warnFlight := false }) else s).carryFar msg).sent ret
  match Tab.get? s0.ports port with
  | none => .next ((s0.discardMsg (objDie port) msg).closeCarried msg)
  | some po =>
    if (s0.obj port).gen != gen then .next ((s0.discardMsg (objDie port) msg).closeCarried msg)
    else if (!msg.res && po.queue.length + po.reserved ≥ po.depth) || s0.farRefused port msg po then .next (s0.closeCarried msg)
    else
      let s1 := s0.modPort port (fun x => { x with queue := x.queue ++ [(msg, x.count)], count := x.count + 1, reserved := x.reserved - b2n msg.res })
      let s2 := if po.queue.isEmpty then s1.portRaised port else s1
      if po.launch then .next (s2.send [.launchPortRecordLaunch port])
      else .next ((s2.servePort port (po.waiters.length + 1)).wsReady (.obj port kPORT))

/-! ## pg.pull (R322) -/

/-- R322, R428: the pages move one by one. -/
def execPgPull (f : GR) (s : State) : Host.Outcome State Fault Refusal :=
  issue (.pgPull f) (fun c st =>
    let a := (readA c f).toNat
    let n := (readB c f).toNat
    if bits n 6 0 = 0 || bits n 6 0 > 64 || a % 4096 != 0 then status f stBADDESC st
    else
      .ok { s := (st.modWave c.w (fun v => { v with pull := some (v.issues, f.d.toNat, bits a 47 12, bits n 6 0, 0) })).send [.pgPullPageDone c.w]
            ready := false }) s

/-- Copy a page of another package into a frame, poison with it (R322, R473). -/
def State.copyPage (s : State) (src dst : Nat) : State :=
  let s1 := s.pointWrite (fun s k b => s.homeWrite k b) dst ((List.range 4096).map (fun i => s.rd8 (src + i)))
  (List.range 128).foldl (fun t i => t.markSector (dst / 32 + i) (s.badSector (src / 32 + i))) s1

/-- The pull ends with a status and the pages moved. -/
def State.pullEnd (s : State) (w seq d st moved : Nat) : State :=
  (s.fill w seq (sOut d (st + moved * 2 ^ 8))).modWave w (fun v => { v with pull := none })

/-- R322: one page moves. -/
def execPgPullPageDone (w : Nat) (s : State) : Host.Outcome State Fault Refusal :=
  match s.wave? w with
  | none => .next s
  | some v => match v.pull, s.proc? v.proc with
    | some (seq, d, page, left, moved), some p =>
      let die := s.dieOf v
      match (if page * 4096 < globalTop then s.walk p.ptroot.toNat (page * 4096) else .bad 0) with
      | .bad _ => .next (s.pullEnd w seq d stBADDESC moved)
      | .leaf e key sz =>
        if sz != 12 || pteCA e != 3 || pteGS e != 3 then .next (s.pullEnd w seq d stBADDESC moved)
        else match (s.die die).pool with
          | [] => .next (s.pullEnd w seq d stBUSY moved)
          | fr :: rest =>
            let s1 := (s.modDie die (fun x => { x with pool := rest })).shootPkg p.asn.toNat (page * 4096) 1 true
            let s2 := s1.copyPage (keyOf (some (pteNode e)) (pteFrame e * 4096)) fr
            let e' := mergeBits e.toNat (packFields [(2, 6, 2), (fr / 4096, 12, 36)]) (packFields [(3, 6, 2), (3, 8, 2), (2 ^ 36 - 1, 12, 36), (2 ^ 16 - 1, 48, 16)])
            let s3 := s2.homeWriteN key 8 e'
            if left ≤ 1 then .next (s3.pullEnd w seq d stOK (moved + 1))
            else .next ((s3.modWave w (fun v => { v with pull := some (seq, d, page + 1, left - 1, moved + 1) })).send [.pgPullPageDone w])
    | _, _ => .next s

end Sys2Proof.Machine
end

