-- ==== Sys2Proof/Machine/Names.lean ====
section
/-!
DEFINITION. Sys2Proof/Machine/Names.lean: the name service (spec/15_ports_grants_names.md R312, R323-R325,
spec/22_execution_and_instruction_faults.md R426-R428, spec/24_kernel_scheduler_host_and_ras_faults.md R454).
-/

namespace Sys2Proof.Machine

/-- The authority of a name: node and die (R323). -/
def State.authority (s : State) (d tenant : Nat) (name : W64) : Nat × Nat :=
  let x := ((name ^^^ (BitVec.ofNat 64 tenant <<< 48)) * 0xC2B2AE3D27D4EB4F#64).toNat
  let nn := if s.reg d 0x28 = 0 then 1 else s.reg d 0x28
  (s.reg d (0x20000 + 2 * (bits x 60 0 % nn)), bits x 63 61)

/-- The binding of a name in a tenant. -/
def State.bound (s : State) (tenant : Nat) (name : W64) : Option Name :=
  s.names.find? (fun n => n.tenant == tenant && n.name == name && n.dropping.isNone)

/-- A lookup finds a binding: a public one when it names another tenant (R324). -/
def Name.found (n : Name) (other : Bool) : Bool := !other || n.pub

/-- Give a port's handle to a process for a lookup (R324): the result word. -/
def State.nameSlot (s : State) (p : Nat) (h : W64) : Nat × State :=
  match s.emptySlot p with
  | none => (stFULL, s)
  | some k => (stOK + k * 2 ^ 8, s.putSlot p k h rightsSend)

def State.portHandle (s : State) (n : Name) : W64 := n.handle.getD (mkHandle (s.nodeId (objDie n.port)) n.port kPORT n.gen)

/-- The status of a checked slot that needs SEND and DUP (R312, R426). -/
def State.pubSlot (s : State) (p n : Nat) : Except Nat W64 :=
  match s.checkSlot p n [kPORT] rtSEND, s.checkSlot p n [kPORT] rtDUP with
  | .error e, .error e' => .error (if e = stNORIGHT || e' = stNORIGHT then stNORIGHT else e)
  | .error e, .ok _ => .error e
  | .ok _, .error e => .error e
  | .ok h, .ok _ => .ok h

/-- This package's binding of a name at an authority of another package. -/
def State.farBound (s : State) (tenant : Nat) (name : W64) : Option Name :=
  s.farNames.find? (fun n => n.tenant == tenant && n.name == name)

/-- A publication at another package's authority, with a free status where this package has not bound the name itself (log 17): the binding
holds a reference to its port (R324). -/
def State.farPublish (s : State) (tenant : Nat) (name : W64) (port gen proc : Nat) (pub : Bool) : Nat × State :=
  if (s.farBound tenant name).isSome then (stBUSY, s)
  else
    let (x, s1) := s.drawFree
    let r := [stOK, stBUSY, stFULL].getD (x.toNat % 3) stOK
    if r = stOK then
      (stOK, { (s1.modObj port (fun o => { o with refs := o.refs + 1 })) with
        farNames := s1.farNames ++ [{ die := 0, tenant := tenant, name := name, pub := pub, port := port, gen := gen, proc := proc }] })
    else (r, s1)

/-- A drop at another package's authority (R324): OK only for the process's own binding; of a name that this package has not bound the
status is free between NONAME and NORIGHT (log 17). -/
def State.farDrop (s : State) (tenant : Nat) (name : W64) (proc : Nat) : Nat × State :=
  match s.farBound tenant name with
  | some n =>
    if n.proc != proc then (stNORIGHT, s)
    else (stOK, ({ s with farNames := s.farNames.filter (fun m => !(m.tenant == tenant && m.name == name)) } : State).unref (s.portHandle n))
  | none =>
    let (x, s1) := s.drawFree
    (if x.getLsbD 0 then stNONAME else stNORIGHT, s1)

/-- A lookup at another package's authority: this package's own binding, else nothing or a free port of another package (log 17). -/
def State.farLook (s : State) (d tenant : Nat) (name : W64) (other : Bool) : Option W64 × State :=
  match s.farBound tenant name with
  | some n => (if n.found other then some (s.portHandle n) else none, s)
  | none =>
    let (x, s1) := s.drawFree
    let (y, s2) := s1.drawFree
    let free := bits x.toNat 16 1
    let node := if free = s.nodeId d || free = 0xFFFF then (s.authority d tenant name).1 else free
    (if x.getLsbD 0 then some (mkHandle node (objId (bits y.toNat 62 60) (bits y.toNat 23 0)) kPORT (bits y.toNat 35 24)) else none, s2)

/-- Send a name operation to its authority, or let another package answer. -/
def nameSend (c : Ctx) (f : GR) (name : W64) (tenant : Nat) (op : NameOp) (far : State → Nat × State) (st : State) : Iss :=
  let d := st.dieOf c.v
  if (st.authority d tenant name).1 = st.nodeId d then
    .ok { s := st.send [.nameOpAtAuthority c.w c.v.issues f.d.toNat name op], ready := false }
  else
    let (r, st1) := far st
    status f r st1

/-- R324. -/
def execNmPub (f : GR) (s : State) : Host.Outcome State Fault Refusal :=
  issue (.nmPub f) (fun c st =>
    let a := readA c f
    let p := c.v.proc
    match st.pubSlot p (slotNum a) with
    | .error e => status f e st
    | .ok h =>
      if bits a.toNat 63 13 != 0 then status f stBADDESC st
      else if st.quota (st.dieOf c.v) p false then status f stQUOTA st
      else nameSend c f (c.v.sreg (GR.bReg f)) (st.tenantOf p) (.pub (hId h) (hGen h) (bitOf a.toNat 12))
        (fun t => t.farPublish (t.tenantOf p) (c.v.sreg (GR.bReg f)) (hId h) (hGen h) p (bitOf a.toNat 12)) st) s

/-- R324. -/
def execNmDrop (f : GR) (s : State) : Host.Outcome State Fault Refusal :=
  issue (.nmDrop f) (fun c st =>
    nameSend c f (c.v.sreg (GR.bReg f)) (st.tenantOf c.v.proc) .drop
      (fun t => t.farDrop (t.tenantOf c.v.proc) (c.v.sreg (GR.bReg f)) c.v.proc) st) s

/-- R324, R325: answered from the die's name cache where it holds the name, else at the authority. -/
def execNmLook (f : GR) (s : State) : Host.Outcome State Fault Refusal :=
  issue (.nmLook f) (fun c st =>
    let a := (readA c f).toNat
    let name := c.v.sreg (GR.bReg f)
    let d := st.dieOf c.v
    let other := bitOf a 16
    let tenant := if other then bits a 15 0 else st.tenantOf c.v.proc
    if bits a 63 17 != 0 then status f stBADDESC st
    else if (st.authority d tenant name).1 = st.nodeId d then
      (match st.nameCache.find? (fun e => e.1 == d && e.2.tenant == tenant && e.2.name == name) with
       | some (_, n) =>
         if n.found other then (let (x, st1) := st.nameSlot c.v.proc (st.portHandle n); uniOut f (BitVec.ofNat 64 x) st1)
         else status f stNONAME st
       | none => nameSend c f name tenant (.look tenant other) (fun t => (stNONAME, t)) st)
    else
      match st.farLook d tenant name other with
      | (none, st1) => status f stNONAME st1
      | (some h, st1) =>
        let (r, st2) := st1.nameSlot c.v.proc h
        uniOut f (BitVec.ofNat 64 r) st2) s

/-- A publication (R324): the binding holds a reference to its port. -/
def State.namePub (s : State) (die tenant : Nat) (name : W64) (port gen proc : Nat) (pub : Bool) : Nat × State :=
  if (s.names.any (fun n => n.tenant == tenant && n.name == name)) then (stBUSY, s)
  else if (s.names.filter (fun n => n.die == die)).length ≥ 65536 then (stFULL, s)
  else if (s.obj port).gen != gen || (s.obj port).kind != kPORT then (stSTALE, s)
  else
    (stOK, { (s.modObj port (fun o => { o with refs := o.refs + 1 })) with
      names := s.names ++ [{ die := die, tenant := tenant, name := name, pub := pub, port := port, gen := gen, proc := proc }] })

/-- The binding is gone; its reference with it (R324). -/
def State.nameGone (s : State) (n : Name) : State :=
  let s1 : State := { s with names := s.names.filter (fun m => !(m.tenant == n.tenant && m.name == n.name)) }
  s1.unref (s.portHandle n)

/-- A lookup from a fabric interface (R325): up to eight cache the name. A ninth makes it uncached: no copy answers any more. Interfaces of
this package are numbered by die, those of others from 8. -/
def State.nameLook (s : State) (n : Name) (d : Nat) : State :=
  if d = n.die || n.uncached || n.cachers.contains d then s
  else if n.cachers.length ≥ 8 then
    { s with
      names := s.names.map (fun m => if m.tenant == n.tenant && m.name == n.name then { m with uncached := true, cachers := [] } else m)
      nameCache := s.nameCache.filter (fun e => !(e.2.tenant == n.tenant && e.2.name == n.name)) }
  else
    let n' := { n with cachers := n.cachers ++ [d] }
    { s with
      names := s.names.map (fun m => if m.tenant == n.tenant && m.name == n.name then n' else m)
      nameCache := if d < 8 then s.nameCache ++ [(d, n')] else s.nameCache }

/-- A process of another package, as a publisher. -/
def farProc (proc : Nat) : Nat := 2 ^ 60 + proc

/-- A drop that the authority performs at once, or after the cached copies are gone (R324, R325). -/
def State.nameDrop (s : State) (n : Name) (back : Nat × Nat × Nat) (done : State → State) : State :=
  if n.cachers.isEmpty then done (s.nameGone n)
  else
    let s1 : State := { s with names := s.names.map (fun (m : Name) => if m.tenant == n.tenant && m.name == n.name then { m with dropping := some back } else m) }
    s1.send (n.cachers.map (fun k => .nameCacheInvalidate k n.name n.tenant))

/-- An operation of another package at this authority (R323-R325). -/
def State.farNameOp (s : State) (name : W64) (op : NameOp) : State :=
  match op with
  | .farPub die tenant handle proc pub =>
    if (s.names.any (fun n => n.tenant == tenant && n.name == name)) || (s.names.filter (fun n => n.die == die)).length ≥ 65536 || !(s.foreign handle) then s
    else { s with names := s.names ++ [{ die := die, tenant := tenant, name := name, pub := pub, port := 2 ^ 60, gen := hGen handle, proc := farProc proc, handle := some handle }] }
  | .farDrop tenant proc =>
    (match s.bound tenant name with
      | some n => if n.proc != farProc proc then s else s.nameDrop n (0, 0, 0) id
      | none => s)
  | .farLook tenant iface other =>
    (match s.bound tenant name with
      | some n => if n.found other then s.nameLook n (8 + iface) else s
      | none => s)
  | _ => s

/-- R323, R324: one operation at the authority, in order of arrival. -/
def execNameOpAtAuthority (w seq d : Nat) (name : W64) (op : NameOp) (s : State) : Host.Outcome State Fault Refusal :=
  match s.wave? w with
  | none => .next (s.farNameOp name op)
  | some v =>
    let own := s.tenantOf v.proc
    match op with
    | .farPub .. | .farDrop .. | .farLook .. => .next (s.farNameOp name op)
    | .pub port gen pub =>
      let (st, s1) := s.namePub (s.authority (s.dieOf v) own name).2 own name port gen v.proc pub
      .next (s1.fill w seq (sOut d st))
    | .drop =>
      (match s.bound own name with
       | none => .next (s.fill w seq (sOut d stNONAME))
       | some n =>
         if n.proc != v.proc then .next (s.fill w seq (sOut d stNORIGHT))
         else .next (s.nameDrop n (w, seq, d) (fun t => t.fill w seq (sOut d stOK))))
    | .look tenant other =>
      (match s.bound tenant name with
       | none => .next (s.fill w seq (sOut d stNONAME))
       | some n =>
         if !n.found other then .next (s.fill w seq (sOut d stNONAME))
         else
           let (x, s1) := (s.nameLook n (s.dieOf v)).nameSlot v.proc (s.portHandle n)
           .next (s1.fill w seq (sOut d x)))

/-- R325: a caching interface forgets the name; a drop returns when the last one has. -/
def execNameCacheInvalidate (die : Nat) (name : W64) (tenant : Nat) (s : State) : Host.Outcome State Fault Refusal :=
  let s1 : State := { s with nameCache := s.nameCache.filter (fun e => !(e.1 == die && e.2.tenant == tenant && e.2.name == name)) }
  match s1.names.find? (fun n => n.tenant == tenant && n.name == name) with
  | none => .next s1
  | some n =>
    let n' := { n with cachers := n.cachers.filter (· != die) }
    let s2 : State := { s1 with names := s1.names.map (fun (m : Name) => if m.tenant == tenant && m.name == name then n' else m) }
    match n'.dropping with
    | some (w, seq, d) => if n'.cachers.isEmpty then .next ((s2.nameGone n').fill w seq (sOut d stOK)) else .next s2
    | none => .next s2

end Sys2Proof.Machine
end

