-- ==== Sys2Proof/Machine/Dist.lean ====
section
/-!
DEFINITION. Sys2Proof/Machine/Dist.lean: the work distributor: decision records, candidates, placing, migrating and pre-empting crews
(spec/16_work_distribution.md R329, R330, R337-R344, spec/15_ports_grants_names.md R326, R327,
spec/24_kernel_scheduler_host_and_ras_faults.md R461, R462).
-/

namespace Sys2Proof.Machine

/-! ## Decision records (R344) -/

/-- What a record says besides its stamps. -/
structure Decision where
  kind : Nat
  reason : Nat := 0
  prio : Nat := 0
  skind : Nat := 0
  core : Nat := 0
  srcCore : Nat := 0
  source : Nat := 0
  node : Nat := 0
  launch : Nat := 0
  crew : Nat := 0
  utag : Nat := 0
  deriving DecidableEq, Repr

/-- The 32-byte record. -/
def Decision.pack (r : Decision) (tick seq : Nat) : Nat :=
  packFields [(tick, 0, 48), (seq, 48, 16), (r.kind, 64, 2), (r.reason, 66, 4), (r.prio, 70, 3), (b2n (r.skind == 1), 73, 1), (b2n (r.skind == 2), 74, 1)
    , (r.core, 80, 8), (r.srcCore, 88, 8), (r.source, 96, 16), (r.node, 112, 16), (r.launch, 128, 32), (r.crew, 160, 24), (r.utag, 192, 64)]

/-- Write a record to the die's trace ring, the oldest overwritten. -/
def State.decision (s : State) (d : Nat) (r : Decision) : State :=
  let (q, s1) := s.takeSeq d
  let n := s1.reg d 0x6010
  let a := s1.reg d 0x6000 + 32 * (n % 2 ^ s1.reg d 0x6008)
  (s1.pointWrite (fun s k b => s.homeWrite k b) a (bytesOf (r.pack (s1.tickOf d % 2 ^ 48) q) 32)).setReg d 0x6010 (n + 1)

/-- Count one in CLPLACE or CLPREEMPT of a core's cluster. -/
def State.clusterCount (s : State) (core off : Nat) : State :=
  let a := off + 8 * (coreCluster core % 16)
  s.setReg (coreDie core) a (s.reg (coreDie core) a + 1)

def State.modDist (s : State) (d : Nat) (f : Dist → Dist) : State := s.modDie d (fun x => { x with dist := f x.dist })
def State.dist (s : State) (d : Nat) : Dist := (s.die d).dist

/-! ## Task records (R329) -/

def tEntry (n : Nat) : Nat := bits n 47 0
def tWidth (n : Nat) : Nat := bits n 55 48
def tRows (n : Nat) : Nat := bits n 63 56
def tWaves (n : Nat) : Nat := bits n 121 117 + 1
def tPrio (n : Nat) : Nat := bits n 114 112
/-- Granules of the allocation: the smallest multiple of 4 KiB that is at least 1,024 * SCRATCHK + 128. -/
def tGrans (n : Nat) : Nat := ceilDiv (1024 * bits n 135 128 + 128) 4096
def tBlock (n : Nat) : Nat := ((bits n 207 192 * bits n 239 224 + bits n 191 176) * bits n 223 208 + bits n 175 160) % 2 ^ 32

/-- A record that breaks R329 (R461). -/
def recordBad (n : Nat) : Bool :=
  bits n 1 0 != 0 || !([16, 32, 64].contains (tWidth n)) || tRows n % 8 != 0 || tRows n = 0 || tRows n > 192 || bits n 159 144 > 4096
  || bits n 127 122 != 0 || bits n 143 136 != 0 || bits n 255 240 != 0 || bits n 319 304 != 0 || bits n 447 400 != 0 || bits n 511 496 != 0

/-! ## Occupancy (R340) -/

/-- The largest free row range of a quad, in units of 8 rows. -/
def freeRun (used : Nat → Bool) : Nat → Nat → Nat → Nat
  | _, run, 0 => run
  | u, run, n + 1 => if used u then max run (freeRun used (u + 1) 0 n) else freeRun used (u + 1) (run + 1) n

def State.rows8 (s : State) (core q : Nat) : Nat :=
  let us := (s.coreWaves core []).map (fun e => e.2.rowUse)
  freeRun (fun u => us.any (fun x => x.quad ≤ q && q < x.quad + x.nq && x.row < 8 * u + 8 && 8 * u < x.row + x.n)) 0 0 128

def State.freeWslots (s : State) (core : Nat) : Nat := 32 - (s.coreWaves core []).length
def State.freeGrans (s : State) (core : Nat) : Nat := 64 - (s.coreGrans core []).foldl (fun n e => n + e.2) 0

/-- OCC of a core. -/
def State.occ (s : State) (core : Nat) : Nat :=
  packFields [(s.freeWslots core, 0, 6), (s.freeGrans core, 6, 7), (64 - (s.crews.filter (fun e => e.2.core == core)).length, 13, 7), (s.freeSlots core, 20, 5)
    , (s.freeAccs core, 25, 3), (s.rows8 core 0, 28, 8), (s.rows8 core 1, 36, 8), (s.rows8 core 2, 44, 8), (s.rows8 core 3, 52, 8)]

/-- The source index (R341). -/
def srcIndex (kind src : Nat) : Nat := if kind = 0 then src else if kind = 1 then 1024 + src else 1040 + src

/-- CANDREC (R339). -/
def Dist.candRec (x : Dist) : Nat :=
  match Tab.get? x.cands x.candsel with
  | none => 0
  | some c => packFields [(c.record.toNat, 0, 512), (c.kind, 512, 2), (srcIndex c.kind c.src, 528, 16), (c.tenant, 544, 16), (c.sprio, 560, 3), (c.rdy, 576, 32), (1, 608, 1)]

/-! ## Sources (R332, R341, R461) -/

/-- A task queue of a die by its index. -/
def State.queueAt (s : State) (d ix : Nat) : Option (Nat × TaskQueue) := s.tqs.find? (fun e => e.2.die == d && e.2.ix == ix)

/-- A refusal (R342, R461): a record of KIND 3, and REFUSED of a queue. -/
def State.refuse (s : State) (d core reason : Nat) (c : Cand) : State :=
  let n := c.record.toNat
  let s1 := s.decision d { kind := 3, reason := reason, prio := s.capPrio d c.proc (tPrio n), skind := c.kind, core := core, source := c.src, node := c.node, utag := bits n 383 320 }
  if c.kind = 0 then (match s1.queueAt d c.src with | some (_, q) => s1.qcbCount q.qcb 56 | none => s1) else s1

/-! ## Placing a task (R330, R340, R342) -/

/-- The cluster mask of a crew's source (R332, R335). -/
def State.srcMask (s : State) (t : Option TaskSrc) : Nat :=
  match t with
  | none => 0xFFFF
  | some t =>
    if t.kind = 0 then (match s.queueAt t.die t.ix with
      | some (_, q) => bits (s.pointRead (fun s k => s.homeRead k) (q.qcb + 32) 2).1 15 0
      | none => 0xFFFF)
    else if t.kind = 1 then ((Tab.get? (s.dist t.die).graphs t.ix).map (·.clmask)).getD 0xFFFF
    else 0xFFFF

/-- Whether a limit of R342 refuses waves of a process on a core. -/
def State.limitRefuses (s : State) (core proc srcMask waves : Nat) : Bool :=
  let d := coreDie core
  match s.limit d (s.tenantOf proc) with
  | none => true
  | some (_, mask, cap) =>
    !(mask.testBit (coreCluster core % 16)) || !(srcMask.testBit (coreCluster core % 16)) || decide (s.tenantWaves d (s.tenantOf proc) + waves > cap)
    || ((s.proc? proc).map (·.contained)).getD true

/-- Read bytes at a virtual address of a process through its page tables, for the device (R490). -/
def State.readVirt (s : State) (proc a n : Nat) : Nat :=
  ofBytes ((List.range n).map (fun i =>
    match (s.proc? proc).map (fun p => s.walk p.ptroot.toNat (a + i)) with
    | some (.leaf e _ sz) => s.seen (physOf e ((a + i) / 2 ^ sz * 2 ^ sz) (a + i)).key (s.cohByte (physOf e ((a + i) / 2 ^ sz * 2 ^ sz) (a + i)).key)
    | _ => 0))

/-- Make the waves of a task's crew (R330). -/
def State.taskWaves (s : State) (d crew proc n launch : Nat) (pwin : Tab PWin) : Nat → State
  | 0 => s
  | k + 1 =>
    match s.freeEntry d with
    | none => s
    | some id =>
      let args : List (Nat × W64) := [(0, bits n 111 64), (1, bits n 175 160), (2, bits n 191 176), (3, bits n 207 192)].map (fun e => (e.1, BitVec.ofNat 64 e.2))
      let v := launchWave proc d (tWidth n) (tRows n) (bits n 159 144 * 16) (s.capPrio d proc (tPrio n)) (tWaves n - 1 - k) (va (tEntry n)) args launch (tBlock n) pwin false
      (((s.makeObj id kWAVE proc).setWave id v).addMember crew id).taskWaves d crew proc n launch pwin k

/-- Create the crew of a candidate on a core, runnable (R330, R340): none when the object table is full. -/
def State.launch (s : State) (d core : Nat) (c : Cand) : Option (Nat × State) :=
  let n := c.record.toNat
  match s.freeEntry d with
  | none => none
  | some id =>
    let x := s.dist d
    let no := d * 2 ^ 29 + x.launched % 2 ^ 29
    let pw := if bits n 495 448 = 0 then [] else pwTable (s.readVirt c.proc (bits n 495 448) 128)
    let src : TaskSrc := { die := d, kind := c.kind, ix := c.src, node := c.node, succ := bits n 303 256, utag := bits n 383 320 }
    let s1 := (s.formCrew id c.proc core (tGrans n) (bitOf n 116) (tWaves n * tWidth n)).modCrew id (fun k => { k with task := some src })
    let s2 := (s1.taskWaves d id c.proc n no pw (tWaves n)).makeRunnable id
    if ((s2.crew? id).map (·.members.length)).getD 0 != tWaves n then none
    else
      let s3 := s2.modDist d (fun y => { y with launched := y.launched + 1 })
      let s4 := s3.decision d { kind := 0, prio := s.capPrio d c.proc (tPrio n), skind := c.kind, core := core % 256, source := c.src, node := c.node, launch := no, crew := objIx id, utag := bits n 383 320 }
      some (id, s4.clusterCount core 0x7000)

/-- What a placement counts at its source (R327, R332). -/
def State.countLaunch (s : State) (d : Nat) (c : Cand) : State :=
  if c.kind = 0 then
    (match s.queueAt d c.src with
     | some (id, q) => { (s.qcbCount q.qcb 40) with tqs := Tab.set s.tqs id { q with busy := false } }
     | none => s)
  else if c.kind = 2 then
    let a := 0x10000 + 16 * c.src + 8
    s.setReg d a (mergeBits (s.reg d a) ((bits (s.reg d a) 47 32 + 1) * 2 ^ 32) 0xFFFF00000000)
  else s

/-! ## Successor counts of graph nodes (R335, R336) -/

/-- One node has completed: its successors' counters fall; those that reach 0 become ready. -/
def Graph.complete (g : Graph) (n : Nat) : Graph × List Nat :=
  (g.edges.getD n []).foldl (fun (acc : Graph × List Nat) m =>
    let k := acc.1.counters.getD m 0
    ({ acc.1 with counters := acc.1.counters.set m (k - 1) }, if k = 1 then acc.2 ++ [m] else acc.2)) ({ g with left := g.left - 1 }, [])

/-- Where the record of a node lies in the image (R335). -/
def Graph.recordAt (g : Graph) (n : Nat) : Nat :=
  (g.image + 64 + 16 * g.npred.length + 2 * g.nedges + 63) / 64 * 64 + 64 * n

/-- The candidate table, or the event FIFO, is full: no record enters (R337, R462). -/
def State.tableFull (s : State) (d : Nat) : Bool := decide ((s.dist d).cands.length ≥ 4096) || decide ((s.dist d).fifo.length ≥ 256)

/-- Put a good record into the table under the lowest free index; its hook is called (R337). A ready node waits for room. -/
def State.enterCand (s : State) (d : Nat) (c : Cand) : State :=
  match if s.tableFull d then none else lowest 0 (fun i => (Tab.get? (s.dist d).cands i).isNone) 4096 with
  | none => s.modDist d (fun x => { x with waiting := x.waiting ++ [c] })
  | some i => (s.modDist d (fun x => { x with cands := Tab.set x.cands i c })).distEvent d 0 i c.sprio

/-- The device reads bytes of memory in its own work for a process: poison among them is HBMUE at the first poisoned sector (R474). -/
def State.ownRead (s : State) (d p key n : Nat) : State :=
  match (List.range ((key + n + 31) / 32 - key / 32)).find? (fun i => s.badSector (key / 32 + i)) with
  | some i => s.hbmue d p (max key (32 * (key / 32 + i)))
  | none => s

/-- Nodes that became ready enter the table in order; one whose record breaks R329 counts as complete (R461). -/
def State.readyNodes (s : State) (d gi : Nat) : List Nat → Nat → State
  | _, 0 => s
  | [], _ => s
  | n :: rest, fuel + 1 =>
    match Tab.get? (s.dist d).graphs gi with
    | none => s
    | some g =>
      let (x, s0) := s.pointRead (fun s k => s.homeRead k) (g.recordAt n) 64
      let s1 := s0.ownRead d g.proc (g.recordAt n) 64
      let r := mergeBits x (n * 2 ^ 384) (0xFFFF * 2 ^ 384)
      let c : Cand := { record := BitVec.ofNat 512 r, kind := 1, src := gi, tenant := s.tenantOf g.proc, proc := g.proc, sprio := g.prio, rdy := s.cycles, node := n, clmask := g.clmask }
      if recordBad r then
        let (g', more) := g.complete n
        ((s1.refuse d 0 1 c).modDist d (fun y => { y with graphs := Tab.set y.graphs gi g' })).readyNodes d gi (rest ++ more) fuel
      else (s1.enterCand d c).readyNodes d gi rest fuel

/-- A replay whose nodes have all completed ends (R336): DONEADDR is incremented, and a waiting kick starts. -/
def State.replayDone (s : State) (d gi : Nat) : State :=
  match Tab.get? (s.dist d).graphs gi with
  | none => s
  | some g =>
    if g.active && g.left = 0 then
      let s1 := if g.done = 0 then s else
        s.pointWrite (fun s k b => s.homeWrite k b) g.done (bytesOf ((s.pointRead (fun s k => s.homeRead k) g.done 8).1 + 1) 8)
      let s2 := s1.modDist d (fun y => { y with graphs := Tab.set y.graphs gi { g with active := false } })
      if g.kicks.isEmpty then s2 else s2.send [.graphReplayStart d gi]
    else s

/-! ## Queues and launch ports enter the table (R326, R333, R337) -/

/-- A field of a QCB. -/
def State.qcb (s : State) (a off n : Nat) : Nat := (s.pointRead (fun s k => s.homeRead k) (a + off) n).1

/-- The ring has no room (R332). -/
def State.ringFull (s : State) (a : Nat) : Bool :=
  decide ((s.qcb a 24 8 + 2 ^ 64 - s.qcb a 16 8) % 2 ^ 64 = 2 ^ (bits (s.qcb a 8 1) 4 0))

/-- Write a record at TAIL and advance it (R334): the old TAIL. -/
def State.ringPush (s : State) (a rec : Nat) : Nat × State :=
  let tail := s.qcb a 24 8
  let at_ := bits (s.qcb a 0 8) 47 0 + 64 * (tail % 2 ^ (bits (s.qcb a 8 1) 4 0))
  let s1 := s.pointWrite (fun s k b => s.homeWrite k b) at_ (bytesOf rec 64)
  (tail, s1.pointWrite (fun s k b => s.homeWrite k b) (a + 24) (bytesOf ((tail + 1) % 2 ^ 64) 8))

/-- Records that found the ring full are tried again when HEAD advances (R460). -/
def State.retryPush (s : State) (id : Nat) : Nat → State
  | 0 => s
  | fuel + 1 =>
    match Tab.get? s.tqs id with
    | none => s
    | some q => match q.waitPush with
      | [] => s
      | r :: rest =>
        if s.ringFull q.qcb then s
        else (({ s with tqs := Tab.set s.tqs id { q with waitPush := rest } }).ringPush q.qcb r.toNat).2.retryPush id fuel

/-- The head record of a running queue that can be taken now (R333). -/
def State.takeable (s : State) (q : TaskQueue) : Bool :=
  !q.busy && !(s.die q.die).contained && bits (s.qcb q.qcb 9 1) 1 0 = 1 && s.qcb q.qcb 16 8 != s.qcb q.qcb 24 8 && (s.dist q.die).fifo.length < 256

/-- Copy record HEAD into the table and advance HEAD; a record that breaks R329 stops the queue instead (R461). The record became ready at a
cycle (R339). -/
def State.takeRecord (s : State) (id rdy : Nat) : State :=
  match Tab.get? s.tqs id with
  | none => s
  | some q =>
    if !s.takeable q then s
    else
      let a := q.qcb
      let head := s.qcb a 16 8
      let at_ := bits (s.qcb a 0 8) 47 0 + 64 * (head % 2 ^ (bits (s.qcb a 8 1) 4 0))
      let (r, s0) := s.pointRead (fun s k => s.homeRead k) at_ 64
      let s1 := (s0.ownRead q.die q.proc a 128).ownRead q.die q.proc at_ 64
      let c : Cand := { record := BitVec.ofNat 512 r, kind := 0, src := q.ix, tenant := s.tenantOf q.proc, proc := q.proc, sprio := bits (s.qcb a 8 1) 7 5, rdy := rdy, clmask := s.qcb a 32 2 }
      if recordBad r then
        let s2 := s1.pointWrite (fun s k b => s.homeWrite k b) (a + 9) (bytesOf (mergeBits (s1.qcb a 9 1) 0 3) 1)
        s2.refuse q.die 0 1 c
      else
        let s2 := s1.pointWrite (fun s k b => s.homeWrite k b) (a + 16) (bytesOf ((head + 1) % 2 ^ 64) 8)
        let s3 : State := { s2 with tqs := Tab.set s2.tqs id { q with busy := true } }
        (s3.retryPush id (q.waitPush.length + 1)).enterCand q.die c

/-- Candidates of a launch-rights entry that have not been placed. -/
def State.entryCands (s : State) (d e : Nat) : Nat := ((s.dist d).cands.filter (fun x => x.2.kind == 2 && x.2.src == e)).length

/-- A full table makes a source wait its turn, once (R337); it became ready when it began to wait. -/
def State.awaits (s : State) (d kind src node : Nat) : Bool := (s.dist d).waiting.any (fun c => c.kind == kind && c.src == src && c.node == node)
def State.awaitTable (s : State) (d kind src node : Nat) : State :=
  if s.awaits d kind src node then s
  else s.modDist d (fun x => { x with waiting := x.waiting ++ [{ record := 0, kind := kind, src := src, tenant := 0, proc := 0, sprio := 0, rdy := s.cycles, node := node }] })

/-- Admit the waiting records of a launch port while its entry's tasks in flight stay below the limit and the table has room (R326, R337); a
record that breaks R329 is discarded (R461). The first became ready at a cycle. -/
def State.admitPort (s : State) (port rdy : Nat) : Nat → State
  | 0 => s
  | fuel + 1 =>
    match Tab.get? s.ports port with
    | none => s
    | some po =>
      let d := objDie port
      match po.queue with
      | [] => s
      | (m, q) :: rest =>
        match s.launchEntry d m.tenant po.proc with
        | none => s
        | some e =>
          let w1 := s.reg d (0x10000 + 16 * e + 8)
          if !po.launch || (s.die d).contained || bits w1 47 32 + s.entryCands d e ≥ bits w1 15 0 then s
          else if s.tableFull d then s.awaitTable d 2 0 port
          else
            let r := ofBytes (m.inl.take 64)
            let left := m.inl.drop 64
            let s1 := s.modPort port (fun x => { x with queue := if left.isEmpty then rest else ({ m with inl := left }, q) :: rest })
            let pcap := bits (s.reg d (0x10000 + 16 * e)) 3 1
            let r' := mergeBits r (min (tPrio r) pcap * 2 ^ 112) (7 * 2 ^ 112)
            let c : Cand := { record := BitVec.ofNat 512 r', kind := 2, src := e, tenant := s.tenantOf po.proc, proc := po.proc, sprio := min (tPrio r) pcap, rdy := rdy }
            if recordBad r then (s1.refuse d 0 1 c).admitPort port s.cycles fuel
            else (s1.enterCand d c).admitPort port s.cycles fuel

/-- The table has room again: waiting sources enter in the order in which they became ready (R337). -/
def State.refill (s : State) (d : Nat) : Nat → State
  | 0 => s
  | fuel + 1 =>
    match (s.dist d).waiting with
    | [] => s
    | c :: rest =>
      if s.tableFull d then s
      else
        let s1 := s.modDist d (fun x => { x with waiting := rest })
        if c.kind = 1 then (s1.enterCand d c).refill d fuel
        else if c.kind = 0 then
          ((match s1.queueAt d c.src with | some (id, _) => s1.takeRecord id c.rdy | none => s1)).refill d fuel
        else (s1.admitPort c.node c.rdy 4096).refill d fuel

/-- PSTAT (R338). -/
def State.pstat (s : State) (d st hi : Nat) : State := s.modDist d (fun x => { x with pstat := BitVec.ofNat 32 (st + hi * 2 ^ 8) })

/-- PLACE (R340): the limits, then a crew slot; the candidate leaves the table when its crew has been made. -/
def State.place (s : State) (d cand core : Nat) : State :=
  if (s.dist d).halted || (s.die d).contained then s
  else match Tab.get? (s.dist d).cands cand with
  | none => s.pstat d stBADDESC 0
  | some c =>
    if core ≥ 256 then s.pstat d stBADDESC 0
    else
      let g := d * 256 + core
      let no := fun (s : State) => (s.refuse d core 0 c).pstat d stQUOTA 0
      if s.limitRefuses g c.proc c.clmask (tWaves c.record.toNat) then no s
      else if (s.freeCrewSlot g).isNone || !s.coreOpen g then s.pstat d stBUSY 0
      else match s.launch d g c with
        | none => no s
        | some (id, s1) =>
          let s2 := (s1.modDist d (fun x => { x with cands := Tab.del x.cands cand })).countLaunch d c
          let s3 := (s2.pstat d stOK (objIx id)).refill d (((s2.dist d).waiting.length) + 1)
          match (if c.kind = 0 then s3.queueAt d c.src else none) with
          | some (q, _) => s3.send [.queueRecordTake q]
          | none => s3

/-! ## Migration and pre-emption (R340, R343) -/

/-- A decision about a crew. -/
def State.crewDecision (s : State) (c : Nat) (k : Crew) (kind reason core src : Nat) : State :=
  let t := k.task
  s.decision (coreDie k.core)
    { kind := kind, reason := reason, prio := s.crewPrio c, skind := (t.map (·.kind)).getD 0, core := core % 256, srcCore := src % 256
      source := (t.map (·.ix)).getD 0, node := (t.map (·.node)).getD 0
      launch := ((s.membersOf c).head?.map (fun e => e.2.launch.toNat)).getD 0, crew := objIx c, utag := (t.map (·.utag)).getD 0 }

/-- Pre-empt one crew with its gang for a reason (R262, R343). Crews of the exchanged cores leave for their shadow banks (R12). -/
def State.preemptCrew (s : State) (c reason : Nat) (part : List Nat) : State :=
  ((s.together c).foldl (fun s x =>
    match s.crew? x with
    | some k =>
      if k.place == .resident then
        ((s.setCrew x { k with preempt := some reason, part := part.contains k.core }).crewDecision x k 1 reason k.core 0).clusterCount k.core 0x7080
      else s
    | none => s) s).send [.crewDeschedule c]

/-- PREEMPT of one crew. -/
def State.preempt (s : State) (d crew reason : Nat) : State :=
  if (s.dist d).halted || (s.die d).contained then s
  else match s.crew? (objId d crew) with
    | none => s.pstat d stBADDESC 0
    | some k => if k.place == .resident then (s.preemptCrew (objId d crew) reason []).pstat d stOK crew else s.pstat d stEMPTY 0

/-- PREEMPT with PART = 1: the resident crews of the masked cores leave, those in their shadow banks come in. -/
def State.preemptPart (s : State) (d cluster mask : Nat) : State :=
  if (s.dist d).halted || (s.die d).contained then s
  else if cluster ≥ 16 || mask ≥ 2 ^ 16 then s.pstat d stBADDESC 0
  else
    let cores := ((List.range 16).filter (fun i => mask.testBit i)).map (fun i => d * 256 + cluster * 16 + i)
    let s1 : State := { s with crews := s.crews.map (fun e => if cores.contains e.2.core && e.2.place == .shadow then (e.1, { e.2 with swapIn := true }) else e) }
    let out := (s1.crews.filter (fun e => cores.contains e.2.core && e.2.place == .resident)).map (·.1)
    let s2 := out.foldl (fun s c => match s.crew? c with
      | some k => if k.preempt.isSome then s.setCrew c { k with part := true } else s.preemptCrew c 0 cores
      | none => s) s1
    (s2.partitionIn (d * 16 + cluster)).pstat d stOK 0

/-- One crew moves, or is pre-empted for its new core (R340, R343, R344). -/
def State.migrateOne (s : State) (c dst : Nat) (k : Crew) : State :=
  let s1 := s.crewDecision c k 2 0 dst k.core
  if k.place == .resident then (s1.setCrew c { k with moveTo := some dst }).preemptCrew c 0 []
  else s1.migrateCrew c dst

/-- REFUSED of the queue of a crew's task (R342). -/
def State.countRefused (s : State) (t : Option TaskSrc) : State :=
  match t with
  | none => s
  | some t => match (if t.kind = 0 then s.queueAt t.die t.ix else none) with
    | some (_, q) => s.qcbCount q.qcb 56
    | none => s

/-- Crews that MIGRATE takes, in order. -/
def State.migratable (s : State) (core : Nat) : List Nat :=
  let ok := fun (c : Nat) (p : Place → Bool) => match s.crew? c with
    | some k => k.core == core && k.gang.isNone && p k.place
    | none => false
  (s.runOrder (coreCluster core)).filter (fun c => ok c (fun p => !p.onCore)) ++ (s.crews.map (·.1)).filter (fun c => ok c (fun p => p == .resident) && ((s.crew? c).map (·.preempt.isNone)).getD false)

/-- Crews on their way to a core. -/
def State.inbound (s : State) (core : Nat) : Nat := (s.crews.filter (fun e => e.2.moveTo == some core)).length

/-- MIGRATE: up to count crews move; a limit refuses one, a full core ends it (R340, R342). -/
def State.migrateLoop (s : State) (d dst : Nat) : List Nat → Nat → Nat → Nat → State
  | [], _, moved, st => s.pstat d st moved
  | _, 0, moved, st => s.pstat d st moved
  | c :: rest, n + 1, moved, st =>
    match s.crew? c with
    | none => s.migrateLoop d dst rest (n + 1) moved st
    | some k =>
      if s.limitRefuses dst k.proc (s.srcMask k.task) 0 then
        ((s.crewDecision c k 3 0 dst k.core).countRefused k.task).migrateLoop d dst rest (n + 1) moved stQUOTA
      else if (s.crews.filter (fun e => e.2.core == dst)).length + s.inbound dst ≥ 64 then s.pstat d stBUSY moved
      else (s.migrateOne c dst k).migrateLoop d dst rest n (moved + 1) st

def State.migrate (s : State) (d src dst count : Nat) : State :=
  if (s.dist d).halted || (s.die d).contained then s
  else if src ≥ 256 || dst ≥ 256 || count = 0 || count > 31 || src = dst then s.pstat d stBADDESC 0
  else s.migrateLoop d (d * 256 + dst) (s.migratable (d * 256 + src)) count 0 stOK

/-! ## The cox (R341) -/

/-- Waves of a size that fit by what OCC shows. -/
def State.occFits (s : State) (core n : Nat) : Bool :=
  let nq := tWidth n / 16
  let units := tRows n / 8
  let groups := (List.range (4 / nq)).map (fun g => (List.range nq).foldl (fun m i => min m (s.rows8 core (g * nq + i))) 128)
  tGrans n ≤ s.freeGrans core && tWaves n ≤ groups.foldl (fun k r => k + r / units) 0

/-- The core with the most free wave slots that fits, the lowest among equals. -/
def State.coxCore (s : State) (d : Nat) (c : Cand) : Option Nat :=
  let mask := match s.limit d (s.tenantOf c.proc) with | some (_, m, _) => m | none => 0
  minBy (fun k => 32 - s.freeWslots (d * 256 + k))
    ((List.range 256).filter (fun k => mask.testBit (k / 16) && c.clmask.testBit (k / 16) && s.occFits (d * 256 + k) c.record.toNat))

/-- The order among candidates: priority, readiness, the rotating pointer, then the node; equal keys stand in the order in which they entered. -/
def Dist.coxKey (x : Dist) (e : Nat × Cand) : Nat :=
  let c := e.2
  let p := Tab.getD x.ptrs c.sprio 0
  (((7 - c.sprio) * 2 ^ 64 + c.rdy % 2 ^ 64) * 1296 + (srcIndex c.kind c.src + 1296 - p) % 1296) * 2 ^ 32 + (if c.kind = 1 then c.node else 0)

/-- Take every candidate once, in order (R341). -/
def State.coxSelect (s : State) (d : Nat) : List (Nat × Cand) → Nat → State
  | _, 0 => s
  | l, fuel + 1 =>
    match minBy ((s.dist d).coxKey) l with
    | none => s
    | some (i, c) =>
      let rest := l.filter (fun e => e.1 != i)
      match s.coxCore d c with
      | none => s.coxSelect d rest fuel
      | some k =>
        let s1 := s.place d i k
        let s2 := if (Tab.get? (s1.dist d).cands i) == some c then s1
          else s1.modDist d (fun x => { x with ptrs := Tab.set x.ptrs c.sprio ((srcIndex c.kind c.src + 1) % 1296) })
        s2.coxSelect d rest fuel

def State.residentWaves (s : State) (core : Nat) : Nat := (s.coreWaves core []).length

/-- Balance: one crew from the busiest core to the least busy when they differ by more than 8. -/
def State.coxBalance (s : State) (d : Nat) : State :=
  let cores := List.range 256
  match minBy (fun k => 32 - s.residentWaves (d * 256 + k)) cores, minBy (fun k => s.residentWaves (d * 256 + k)) cores with
  | some hi, some lo => if s.residentWaves (d * 256 + hi) > s.residentWaves (d * 256 + lo) + 8 then s.migrate d hi lo 1 else s
  | _, _ => s

/-- The oldest event of the FIFO runs its hook (R337, R341). Other microcode acts through PLACE, MIGRATE and PREEMPT. -/
def State.runHook (s : State) (d : Nat) : State :=
  let x := s.dist d
  if x.halted || (s.die d).contained then s
  else match x.fifo with
    | [] => s
    | (hook, _, _) :: rest =>
      let s1 := (s.modDist d (fun y => { y with fifo := rest })).refill d (x.waiting.length + 1)
      if !x.cox then s1
      else if hook = 0 || hook = 1 then s1.coxSelect d (s1.dist d).cands (s1.dist d).cands.length
      else if hook = 3 then (s1.coxSelect d (s1.dist d).cands (s1.dist d).cands.length).coxBalance d
      else s1

end Sys2Proof.Machine
end

