-- ==== Sys2Proof/Machine/Tasks.lean ====
section
/-!
DEFINITION. Sys2Proof/Machine/Tasks.lean: tq.push, queue registration, graphs and kicks, task completion, and the distributor's events
(spec/16_work_distribution.md R330-R343, spec/17_external_interfaces_and_bringup.md R348,
spec/24_kernel_scheduler_host_and_ras_faults.md R454, R460-R462).
-/

namespace Sys2Proof.Machine

/-! ## tq.push (R334) -/

/-- R334, R454: the release of the wave's earlier accesses comes first. -/
def execTqPush (f : GR) (s : State) : Host.Outcome State Fault Refusal :=
  issue (.tqPush f) (fun c st =>
    if !(st.relReady c.w) then .stall st
    else match st.readBlock c (readB c f) 64 64 false with
      | (.trap t, st1) => .trap [t] st1
      | (.late t, st1) => .ok { s := st1, late := [t] }
      | (.ok r, st1) =>
        match st1.checkSlot c.v.proc (slotNum (readA c f)) [kTQ] rtSEND with
        | .error e => status f e st1
        | .ok h => match Tab.get? st1.tqs (hId h) with
          | none => status f stSTALE st1
          | some q =>
            if ((st1.proc? q.proc).map (·.contained)).getD true then status f stQUOTA st1
            else if bitOf (st1.qcb q.qcb 9 1) 2 then status f stBUSY st1
            else if st1.ringFull q.qcb then status f stFULL st1
            else
              let (tail, st2) := st1.ringPush q.qcb r
              uniOut f (BitVec.ofNat 64 (stOK + bits tail 31 0 * 2 ^ 8)) (st2.send [.queueRecordTake (hId h)])) s

/-! ## Registration and graphs (R333, R335, R348) -/

/-- GSTAT fields at the end of a registration or an upload. -/
def State.gstat (s : State) (d v mask : Nat) : State := s.setReg d 0x2010 (mergeBits (s.reg d 0x2010) v mask)

/-- A live process by its entry index in a die's table. -/
def State.procAt (s : State) (d ix : Nat) : Option Nat :=
  if (s.obj (objId d ix)).kind = kPROC && (s.proc? (objId d ix)).isSome then some (objId d ix) else none

/-- What TQREG refuses in a QCB (R332, R348). -/
def State.qcbBad (s : State) (d a : Nat) : Bool :=
  let q := (s.pointRead (fun s k => s.homeRead k) a 128).1
  bits q 63 48 != 0 || bits q 79 75 != 0 || bits q 127 120 != 0 || bits q 319 272 != 0 || bits q 1023 512 != 0
  || bits q 68 64 = 0 || bits q 68 64 > 16
  || (match s.procAt d (bits q 119 96) with
      | none => true
      | some p => s.tenantOf p != bits q 95 80)

/-- A write of TQREG: the status in TQST, and index and slot when it succeeds. -/
def State.tqreg (s : State) (d v : Nat) : State :=
  let a := bits v 47 7 * 128
  let fail := fun (st : Nat) => s.gstat d (st * 2 ^ 32) (0xFF * 2 ^ 32)
  if bits v 6 0 != 0 || bits v 63 48 != 0 || s.qcbBad d a then fail stBADDESC
  else
    match s.procAt d (bits (s.qcb a 12 4) 23 0), lowest 0 (fun i => (s.queueAt d i).isNone) 1024, s.freeEntry d with
    | some p, some ix, some id =>
      (match s.emptySlot p with
       | none => fail stFULL
       | some slot =>
         let s1 := (s.makeObj id kTQ p).putSlot p slot (mkHandle (s.nodeId d) id kTQ (s.obj id).gen) rightsSend
         let s2 : State := { s1 with tqs := Tab.set s1.tqs id { qcb := a, die := d, ix := ix, proc := p } }
         (s2.gstat d (packFields [(stOK, 32, 8), (ix, 40, 10), (slot, 50, 12)]) ((2 ^ 30 - 1) * 2 ^ 32)).send [.queueRecordTake id])
    | _, _, _ => fail stQUOTA

/-- The successor lists of a graph image (R335). Edges that lie outside the list or name no node are none. -/
def State.graphEdges (s : State) (a nodes nedges : Nat) : List Nat × List (List Nat) :=
  let ent := (List.range nodes).map (fun n => s.qcb a (64 + 16 * n) 8)
  (ent.map (fun e => bits e 15 0),
   ent.map (fun e => ((List.range (bits e 63 48)).filterMap (fun i =>
     let k := bits e 47 16 + i
     if k < nedges then some (s.qcb a (64 + 16 * nodes + 2 * k) 2) else none)).filter (fun m => m < nodes)))

/-- SRAM that the other graphs of a die use: nodes, edges. -/
def Dist.sram (x : Dist) (g : Nat) : Nat × Nat :=
  (x.graphs.filter (fun e => e.1 != g)).foldl (fun n e => (n.1 + e.2.npred.length, n.2 + e.2.nedges)) (0, 0)

/-- A write of GLOAD (R335, R348). -/
def State.gload (s : State) (d v : Nat) : State :=
  let g := bits v 3 0
  let a := bits v 47 6 * 64
  let done := fun (s : State) (st : Nat) => s.gstat d (g * 2 ^ 20 + st * 2 ^ 24) (0xFFF * 2 ^ 20)
  let h := (s.pointRead (fun s k => s.homeRead k) a 64).1
  let nodes := bits h 15 0 + 1
  let nedges := bits h 47 16
  let old := Tab.get? (s.dist d).graphs g
  if (match old with | some x => x.active || !x.kicks.isEmpty | none => false) then done s stBUSY
  else if bits h 63 48 != 0 || bits h 127 115 != 0 || bits h 151 144 != 0 || bits h 511 176 != 0 || nedges > 262144 then done s stBADDESC
  else match s.procAt d (bits h 175 152) with
    | none => done s stBADDESC
    | some p =>
      let used := (s.dist d).sram g
      if used.1 + nodes > 65536 || used.2 + nedges > 262144 then done s stFULL
      else
        let (npred, edges) := s.graphEdges a nodes nedges
        let x : Graph := { image := a, proc := p, prio := bits h 114 112, clmask := bits h 143 128, done := bits h 111 64, npred := npred, nedges := nedges, edges := edges }
        done ((s.ownRead d p a (64 + 16 * nodes + 2 * nedges)).modDist d (fun y => { y with graphs := Tab.set y.graphs g x })) stOK

/-- Write the entries of a patch table into the image's records, in table order (R336). Entries that name no node are skipped. -/
def State.patch (s : State) (g : Graph) (a n : Nat) : Nat → State
  | 0 => s
  | k + 1 =>
    let e := s.qcb a (8 + 16 * (n - (k + 1))) 16
    let w := 2 ^ bits e 23 22
    let s1 := if bits e 15 0 < g.npred.length then
        s.pointWrite (fun s k b => s.homeWrite k b) (g.recordAt (bits e 15 0) + bits e 21 16) (bytesOf (bits e 127 64) w)
      else s
    s1.patch g a n k

/-- A replay starts (R336): patches, counters, and the nodes without predecessors. -/
def State.startReplay (s : State) (d gi patch : Nat) : State :=
  match Tab.get? (s.dist d).graphs gi with
  | none => s
  | some g =>
    let n := if patch = 0 then 0 else s.qcb patch 0 8
    let s0 := if patch = 0 then s else s.ownRead d g.proc patch (8 + 16 * (if n ≤ 65536 then n else 0))
    let s1 := if n ≤ 65536 then s0.patch g patch n n else s0
    let g' := { g with active := true, counters := g.npred, left := g.npred.length }
    let ready := (List.range g.npred.length).filter (fun i => g.npred.getD i 0 = 0)
    ((s1.modDist d (fun y => { y with graphs := Tab.set y.graphs gi g' })).readyNodes d gi ready (g.npred.length + 1)).replayDone d gi

/-- A write of GKICK (R336): at most four kicks of a die wait. -/
def State.gkick (s : State) (d v : Nat) : State :=
  let gi := bits v 3 0
  let patch := bits v 51 8 * 16
  match Tab.get? (s.dist d).graphs gi with
  | none => s
  | some g =>
    if !g.active && g.kicks.isEmpty then s.startReplay d gi patch
    else if (s.dist d).graphs.foldl (fun n e => n + e.2.kicks.length) 0 ≥ 4 then s.gstat d (2 ^ 16) (2 ^ 16)
    else s.modDist d (fun y => { y with graphs := Tab.set y.graphs gi { g with kicks := g.kicks ++ [patch] } })

/-- R349: a kick of a port without the lease is dropped. -/
def execGkick (who die : Nat) (v : W64) (s : State) : Host.Outcome State Fault Refusal :=
  .next (if s.mayWrite who die .h then s.gkick die v.toNat else s)
/-- R335, R348. -/
def execGload (who die : Nat) (v : W64) (s : State) : Host.Outcome State Fault Refusal :=
  .next (if s.mayWrite who die .h then s.gload die v.toNat else s)
/-- R333, R348. -/
def execTqreg (who die : Nat) (v : W64) (s : State) : Host.Outcome State Fault Refusal :=
  .next (if s.mayWrite who die .h then s.tqreg die v.toNat else s)
/-- R336: the oldest waiting kick starts once the previous replay has completed. -/
def execGraphReplayStart (die g : Nat) (s : State) : Host.Outcome State Fault Refusal :=
  match Tab.get? (s.dist die).graphs g with
  | none => .next s
  | some x =>
    match x.kicks with
    | [] => .next s
    | p :: rest =>
      if x.active then .next s
      else .next ((s.modDist die (fun y => { y with graphs := Tab.set y.graphs g { x with kicks := rest } })).startReplay die g p)

/-! ## Taking records and running hooks (R326, R333, R337) -/

/-- R333: while the table is full the queue waits its turn. -/
def execQueueRecordTake (id : Nat) (s : State) : Host.Outcome State Fault Refusal :=
  match Tab.get? s.tqs id with
  | none => .next s
  | some q =>
    if !s.takeable q then .next s
    else if s.tableFull q.die then .next (s.awaitTable q.die 0 q.ix 0)
    else .next (s.takeRecord id s.cycles)

/-- R326. -/
def execLaunchPortRecordLaunch (port : Nat) (s : State) : Host.Outcome State Fault Refusal :=
  match Tab.get? s.ports port with
  | none => .next s
  | some po =>
    if po.queue.isEmpty then .next s
    else if s.tableFull (objDie port) then .next (s.awaitTable (objDie port) 2 0 port)
    else .next (s.admitPort port s.cycles (po.queue.length * 4 + 1))

/-- R337. -/
def execOnReady (die : Nat) (s : State) : Host.Outcome State Fault Refusal := .next (s.runHook die)
/-- R337. -/
def execOnSlotFree (die : Nat) (s : State) : Host.Outcome State Fault Refusal := .next (s.runHook die)

/-- R337: a request that is not in the FIFO yet enters it; the oldest event runs. -/
def execOnPreemptRequest (die crew reason : Nat) (s : State) : Host.Outcome State Fault Refusal :=
  let x := s.dist die
  if x.fifo.contains (2, crew, reason) then .next (s.runHook die)
  else .next ((s.modDist die (fun y => { y with fifo := y.fifo ++ [(2, crew, reason)] })).runHook die)

/-- R337: every BALPER ticks. -/
def execOnBalance (die : Nat) (s : State) : Host.Outcome State Fault Refusal :=
  let x := s.dist die
  let t := s.tickOf die
  if x.balper ≤ t - x.lastBal then
    .next ((s.modDist die (fun y => { y with lastBal := t, fifo := y.fifo ++ [(3, t % 2 ^ 32, 0)] })).runHook die)
  else .next (s.runHook die)

/-! ## The microcode's commands (R338, R340) -/

/-- R340. -/
def execPlace (die cand core : Nat) (s : State) : Host.Outcome State Fault Refusal := .next (s.place die cand core)
/-- R340. -/
def execMigrate (die src dst count : Nat) (s : State) : Host.Outcome State Fault Refusal := .next (s.migrate die src dst count)
/-- R340, R343. -/
def execPreempt (die crew reason : Nat) (s : State) : Host.Outcome State Fault Refusal :=
  .next (if reason < 16 then s.preempt die crew reason else s.pstat die stBADDESC 0)
/-- R340, R343. -/
def execPreemptPartition (die cluster mask : Nat) (s : State) : Host.Outcome State Fault Refusal := .next (s.preemptPart die cluster mask)

/-- A load of the distributor core from its register space, the base 0x4000_0000 taken off (R338-R340): 32 bits. -/
def State.distLoad (s : State) (d off : Nat) : Nat :=
  let x := s.dist d
  let v :=
    if off / 8 = 1 then x.pstat.toNat
    else if off / 8 = 4 then x.balper
    else if 0x1000 ≤ off && off < 0x1800 then s.occ (d * 256 + (off - 0x1000) / 8)
    else if 0x8000 ≤ off && off < 0x8080 then x.candRec / 2 ^ (64 * ((off - 0x8000) / 8))
    else 0
  bits v (32 * (off / 4 % 2) + 31) (32 * (off / 4 % 2))

/-- A store of the distributor core (R338): the low word is kept, the high word performs the command. -/
def State.distStore (s : State) (d off v : Nat) : State :=
  if (s.dist d).halted then s
  else if off % 8 = 0 then s.modDist d (fun x => { x with lows := Tab.set x.lows off (BitVec.ofNat 32 v) })
  else
    let n := (Tab.getD (s.dist d).lows (off - 4) 0).toNat + v % 2 ^ 32 * 2 ^ 32
    match off / 8 with
    | 0 => s.place d (bits n 11 0) (bits n 19 12)
    | 2 => s.migrate d (bits n 7 0) (bits n 15 8) (bits n 20 16)
    | 3 => if bitOf n 31 then s.preemptPart d (bits n 3 0) (bits n 19 4) else s.preempt d (bits n 23 0) (bits n 27 24)
    | 4 => s.modDist d (fun x => { x with balper := n })
    | 5 => s.modDist d (fun x => { x with candsel := bits n 11 0 })
    | _ => s

/-! ## Completion of a task (R331, R336, R460) -/

/-- A SUCCZERO record (R460). -/
def State.succZero (s : State) (d proc sub block : Nat) : State := s.sendRecord d proc { cause := 0x43, sub := sub, cls := 1, val := block }

/-- The decrement of a successor block, and the push when it was the last (R331). -/
def State.successor (s00 : State) (d proc block : Nat) : State :=
  let n := s00.qcb block 0 8
  let s := s00.ownRead d proc block (if n = 1 then 128 else 8)
  if n = 0 then s.succZero d proc 0 block
  else
    let s1 := s.pointWrite (fun s k b => s.homeWrite k b) block (bytesOf (n - 1) 8)
    if n != 1 then s1
    else
      let target := s1.qcb block 8 8
      let r := s1.qcb block 64 64
      match s1.tqs.find? (fun e => e.2.qcb == target) with
      | none => s1.succZero d proc 1 block
      | some (id, q) =>
        if s1.ringFull target then { s1 with tqs := Tab.set s1.tqs id { q with waitPush := q.waitPush ++ [BitVec.ofNat 512 r] } }
        else (s1.ringPush target r).2.send [.queueRecordTake id]

/-- A write of a wave that is gone still waits (R241). -/
def State.orphanWrites (s : State) : Bool :=
  let gone := fun (w : Nat) => ((s.wave? w).map (·.dead)).getD true
  s.inflight.any (fun m => match m with | .nonholderWriteAtHome w _ _ => gone w | _ => false) || s.locks.any (fun e => e.2.writes.any (fun x => gone x.wave))

/-- R331: after the release of the crew's writes, the successor block, then the graph's counters (R336), or INFLIGHT (R326). -/
def execTaskComplete (die kind ix node succ proc crew : Nat) (s : State) : Host.Outcome State Fault Refusal :=
  if s.acks.any (fun e => e.2.crew == crew) || s.orphanWrites then .next (s.send [.taskComplete die kind ix node succ proc crew])
  else
    let s1 := if succ = 0 then s else s.successor die proc succ
    if kind = 1 then
      (match Tab.get? (s1.dist die).graphs ix with
       | none => .next s1
       | some g =>
         let (g', ready) := g.complete node
         .next (((s1.modDist die (fun y => { y with graphs := Tab.set y.graphs ix g' })).readyNodes die ix ready (g.npred.length + 1)).replayDone die ix))
    else if kind = 2 then
      let a := 0x10000 + 16 * ix + 8
      let s2 := s1.setReg die a (mergeBits (s1.reg die a) ((bits (s1.reg die a) 47 32 - 1) * 2 ^ 32) 0xFFFF00000000)
      .next (s2.send ((s2.ports.filter (fun e => e.2.launch && objDie e.1 == die && !e.2.queue.isEmpty)).map (fun e => .launchPortRecordLaunch e.1)))
    else .next s1

end Sys2Proof.Machine
end

