-- ==== Sys2Proof/Machine/Engine.lean ====
section
/-!
DEFINITION. Sys2Proof/Machine/Engine.lean: what the copy and matrix commands share: blocks, issuers, tokens, failures, their reads and
writes, queues and fences (spec/13_copy_engines_and_streams.md R268-R279, spec/09_consistency_model.md R213, R214,
spec/23_memory_lock_plane_and_engine_faults.md R447-R449, spec/24_kernel_scheduler_host_and_ras_faults.md R459, R473).
-/

namespace Sys2Proof.Machine

/-! ## Blocks (R251, R258, R270) -/

/-- A field of a block. -/
def blk (b : BitVec 512) (hi lo : Nat) : Nat := bits b.toNat hi lo

/-- The mask of a field: bit positions modulo 64 (R449, log 26). -/
def fieldMask (hi lo : Nat) : Nat := ((List.range (hi + 1 - lo)).map (fun i => (lo + i) % 64)).foldl (fun m i => m ||| 2 ^ i) 0

/-- A failing field of a block: ERRCODE 0x01 (R447). -/
def badField (c : Bool) (hi lo : Nat) : List CmdErr := if c then [{ code := 1, val := fieldMask hi lo }] else []

/-- Reserved fields that must be zero. -/
def reservedFields (b : BitVec 512) (l : List (Nat × Nat)) : List CmdErr := l.flatMap (fun f => badField (blk b f.1 f.2 != 0) f.1 f.2)

/-- The token that a command names, with the scope of its completion (R276). -/
def CmdOp.tok (o : CmdOp) : Option (Nat × Nat) :=
  match o with
  | .copy b => if blk b 2 2 = 1 then some (blk b 5 3, blk b 8 6) else none
  | .mx b => if blk b 5 5 = 1 then some (blk b 8 6, blk b 11 9) else none
  | .drain b => if blk b 4 4 = 1 then some (blk b 7 5, blk b 10 8) else none
  | _ => none

/-! ## Issuers and tokens (R276, R449) -/

/-- The issuer of a command. -/
def issuerOf (s : State) (c : Ctx) : Issuer :=
  { wave := c.w, wgen := (s.obj c.w).gen, crew := c.v.crew, cgen := (s.obj c.v.crew).gen, proc := c.v.proc, core := s.coreOf c.v
    wslot := c.v.wslot, pc := c.pc, launch := c.v.launch, block := c.v.block, thread := c.v.threadOf (lowLane (maskOf c.lanes)) }

/-- The issuing wave and crew while they exist. -/
def State.issuerWave (s : State) (b : Issuer) : Option Wave := if (s.obj b.wave).gen = b.wgen then s.wave? b.wave else none
def State.issuerCrew (s : State) (b : Issuer) : Option Crew := if (s.obj b.crew).gen = b.cgen then s.crew? b.crew else none

/-- Count a command on a token. -/
def State.countTok (s : State) (w : Nat) (t : Option (Nat × Nat)) : State :=
  match t with
  | none => s
  | some (k, scope) => s.modWave w (fun v =>
      { v with tokens := Tab.set v.tokens k { v.token k with count := (v.token k).count + 1, scope := max (v.token k).scope scope } })

/-- A command falls on its token; batches that wait for it are looked at (R276, R277). -/
def State.fallTok (s : State) (b : Issuer) (t : Option (Nat × Nat)) (err special range : Bool) : State :=
  match t, s.issuerWave b with
  | some (k, _), some _ =>
    (s.modWave b.wave (fun v =>
      let x := v.token k
      { v with tokens := Tab.set v.tokens k { x with count := x.count - 1, err := x.err || err, special := x.special || special, range := x.range || range } })).recheck
        b.wave
  | _, _ => s

/-- A token that can count no further command (R268). -/
def tokFull (v : Wave) (t : Option (Nat × Nat)) : Bool :=
  match t with
  | some (k, _) => decide ((v.token k).count ≥ 255)
  | none => false

/-- The record of a failed command (R449). -/
def State.cmdError (s : State) (x : Cmd) (e : CmdErr) (queue : Nat) (part : Bool) : State :=
  let b := x.by_
  s.sendRecord (coreDie b.core) b.proc
    { cause := 0x38, cls := 1, scope := 0, core := b.core, wslot := b.wslot, launch := b.launch.toNat, block := b.block.toNat, thread := b.thread
      pc := b.pc.toNat, val := e.val, crew := objIx b.crew
      detail := packFields [(e.code, 0, 8), (e.mcause, 8, 8), (queue, 16, 2), ((x.op.tok.map (·.1)).getD 0, 18, 3), (b2n x.op.tok.isSome, 21, 1),
        (b2n part, 22, 1)] }

/-! ## Addresses (R175, R429, R459) -/

/-- The core on which a command is performed. -/
def State.cmdCore (s : State) (x : Cmd) : Nat := ((s.crew? x.crew).map (·.core)).getD x.by_.core

/-- The crew that an address in the cluster window names at issue (R459). -/
def State.farOf (s : State) (v : Wave) (a : Nat) : Option FarRef :=
  if a < clusterBase || a ≥ clusterBase + 0x400000 then none
  else
    let core := coreCluster (s.coreOf v) * 16 + (a - clusterBase) / 0x40000
    (s.crewAt core v.proc ((a - clusterBase) % 0x40000)).map (fun e =>
      { crew := e.1, gen := (s.obj e.1).gen, core := core, base := e.2.base * gran })

/-- The failure of an access to an offset of a crew's allocation (R233, R436, R439, R447). -/
def blockErr (k : Crew) (write : Bool) (off addr : Nat) : Option CmdErr :=
  if write && off ≥ k.barOff then some { code := 8, val := addr, mcause := cBARBLOCK }
  else if k.hiddenAt off then some { code := if write then 8 else 7, val := addr, mcause := cPLANEACC }
  else none

/-- Resolve one access of a command. `far`: what its destination names through the cluster window. -/
def State.engRes (s : State) (x : Cmd) (write : Bool) (n align addr : Nat) (far : Option FarRef) : Except CmdErr Target × State :=
  let bad := fun (cause : Nat) => ((.error { code := 7, val := addr, mcause := cause } : Except CmdErr Target), s)
  let gone := ((.error { code := 0x0E, val := addr } : Except CmdErr Target), s)
  let inCrew := fun (id : Nat) (k : Crew) (off : Nat) (f : Bool) => match blockErr k write off addr with
    | some e => ((.error e : Except CmdErr Target), s)
    | none => (.ok (.scratch id off f), s)
  let mis := align > 1 && addr % align != 0
  if addr < globalTop then
    if mis then bad cMISALIGN
    else match s.translate (s.cmdCore x) x.by_.proc addr (if write then aWRITE else aREAD) false false with
      | (.error t, s1) => (.error { code := 7, val := addr, mcause := t.cause }, s1)
      | (.ok p, s1) => (.ok (.glob p), s1)
  else if scratchBase ≤ addr && addr < clusterBase then
    match s.issuerCrew x.by_ with
    | none => if write then gone else bad cSPACE
    | some k =>
      let off := addr - scratchBase
      if off + n > k.bytes then bad cSPACE else if mis then bad cMISALIGN else inCrew x.by_.crew k off false
  else if clusterBase ≤ addr && addr < clusterBase + 0x400000 then
    let core := coreCluster (s.cmdCore x) * 16 + (addr - clusterBase) / 0x40000
    let at_ := (addr - clusterBase) % 0x40000
    if mis then bad cMISALIGN
    else if write then
      match far with
      | none => bad cSPACE
      | some f =>
        if (s.obj f.crew).gen ≠ f.gen then gone
        else match s.crew? f.crew with
          | none => gone
          | some k => if core ≠ f.core || at_ < f.base || at_ + n > f.base + k.bytes then bad cSPACE else inCrew f.crew k (at_ - f.base) true
    else match s.crewAt core x.by_.proc at_ with
      | none => bad cSPACE
      | some (id, k) => inCrew id k (at_ - k.base * gran) true
  else bad cSPACE

/-! ## Reads (R213, R271, R434, R435, R473) -/

/-- The warning of a command's read of an unwritten word (R435, R448). -/
def State.engWarn (s : State) (b : Issuer) (addr : Nat) : State :=
  match s.issuerCrew b with
  | none => s
  | some k =>
    if k.warnFlight then s.modCrew b.crew (fun k => { k with warnCount := min 65535 (k.warnCount + 1) })
    else
      let fly := (s.faultPort? b.proc).isSome
      (s.modCrew b.crew (fun k => { k with warnFlight := fly, warnCount := 0 })).sendRecord (coreDie b.core) b.proc
        { cause := cUNWRITTEN, sub := 1, cls := 1, core := b.core, wslot := b.wslot, launch := b.launch.toNat, block := b.block.toNat
          thread := b.thread, pc := b.pc.toNat, val := addr, crew := objIx b.crew, detail := k.warnCount }

/-- Read n bytes at a target: the value and whether it is poisoned. -/
def State.engRead (s : State) (x : Cmd) (t : Target) (addr n : Nat) : Except CmdErr (Nat × Bool) × State :=
  match t with
  | .priv _ _ => (.ok (0, false), s)
  | .scratch id off _ =>
    (match s.crew? id with
     | none => (.ok (0, false), s)
     | some k =>
       let v := (k.read off n, k.poisoned off n)
       if (k.unwritten off n).isEmpty then (.ok v, s)
       else if ((s.issuerCrew x.by_).map (·.validtrap)).getD false then (.error { code := 0x0B, val := addr }, s)
       else (.ok v, s.engWarn x.by_ addr))
  | .glob p =>
    if p.ca = 2 && Config.hostAbort (bits p.key 47 47) s.free then (.error { code := 0x0C, val := addr }, { s with free := s.free + 1 })
    else
      let s0 : State := if p.ca = 2 then { s with free := s.free + 1 } else s
      let bad := s0.poisoned p.key n
      let (v, s1) := s0.gReadN (s0.cmdCore x) x.by_.wave p n
      (.ok (v, bad), s1)

/-- Read n bytes at an address of a command. -/
def State.engLoad (s : State) (x : Cmd) (addr n align : Nat) : Except CmdErr (Nat × Bool × Target) × State :=
  match s.engRes x false n align addr none with
  | (.error e, s1) => (.error e, s1)
  | (.ok t, s1) => match s1.engRead x t addr n with
    | (.error e, s2) => (.error e, s2)
    | (.ok (v, p), s2) => (.ok (v, p, t), s2)

/-! ## Writes (R180, R214, R235, R237, R241, R266, R459) -/

/-- The number under which a command's writes wait at locked lines. -/
def cmdTag (num : Nat) : Nat := 2 ^ 40 + num

/-- A write of a command that waits for a lock's release is not performed yet (R241). -/
def State.cmdWaits (s : State) (num : Nat) : Bool := s.locks.any (fun e => e.2.writes.any (fun y => y.wave == cmdTag num))

/-- Write n bytes at a target: writer index 0xFFFF in a step region. None: performed, or held at a locked line. -/
def State.engWrite (s : State) (x : Cmd) (num : Nat) (t : Target) (addr n v : Nat) (bad : Bool) : Option CmdErr × State :=
  match t with
  | .priv _ _ => (none, s)
  | .scratch id off _ => (match s.scratchStore id off n v 0xFFFF bad with
    | (s1, true) => (none, s1)
    | (s1, false) => (some { code := 9, val := addr / 4 * 4 }, s1))
  | .glob p =>
    match s.writeRefusal p.key n with
    | some c => (some (if c = cRAWFMT then { code := 8, val := addr, mcause := c } else { code := 0x0D, val := addr }), s)
    | none =>
      match s.lockOf p.key with
      | some l =>
        if l.holder = some x.by_.wave && (s.issuerWave x.by_).isSome then (none, s.gWriteN (s.cmdCore x) x.by_.wave p (bytesOf v n))
        else (none, s.modLock (lineOf p.key) (fun l => { l with writes := l.writes ++ [{ wave := cmdTag num, key := p.key, bytes := bytesOf v n }] }))
      | none =>
        let s1 := s.flushL1 (s.cmdCore x) (fun k => lineOf k == lineOf p.key) true
        (none, (s1.futClear p.key n).pointWrite (fun s k b => s.homeWrite k b) p.key (bytesOf v n))

/-- A word of a step region that narrow elements are gathered into (R237): its target, address, bytes by position, poison. -/
structure Gather where
  crew : Nat
  off : Nat
  addr : Nat
  bytes : Tab Byte
  bad : Bool
  deriving DecidableEq, Repr

/-- A payload on its way: the state, the failure, whether bytes were written, and what was written where. -/
structure Mv where
  s : State
  err : Option CmdErr := none
  wrote : Bool := false
  keys : List (Nat × Bool) := []
  words : List (Nat × Nat × Bool) := []
  gather : List Gather := []

/-- One store of a payload at its target. -/
def Mv.store (m : Mv) (x : Cmd) (num : Nat) (t : Target) (addr n v : Nat) (bad : Bool) : Mv :=
  if m.err.isSome then m
  else match m.s.engWrite x num t addr n v bad with
    | (some e, s1) => { m with s := s1, err := some e }
    | (none, s1) =>
      let m1 : Mv := { m with s := s1, wrote := true }
      match t with
      | .glob p => { m1 with keys := m1.keys ++ (List.range n).map (fun i => (p.key + i, bad)) }
      | .scratch id off _ => { m1 with words := m1.words ++ (List.range n).map (fun i => (id, off + i, bad)) }
      | .priv _ _ => m1

/-- Gather a narrow element into its word. -/
def Mv.collect (m : Mv) (id off addr n v : Nat) (bad : Bool) : Mv :=
  let w := off / 4 * 4
  let old := (m.gather.find? (fun g => g.crew == id && g.off == w)).getD { crew := id, off := w, addr := addr - off % 4, bytes := [], bad := false }
  let new := { old with bytes := (List.range n).foldl (fun t i => Tab.set t (off - w + i) (BitVec.ofNat 8 (v / 2 ^ (8 * i)))) old.bytes, bad := old.bad || bad }
  if m.gather.any (fun g => g.crew == id && g.off == w) then
    { m with gather := m.gather.map (fun g => if g.crew == id && g.off == w then new else g) }
  else { m with gather := m.gather ++ [new] }

/-- One element of a payload: word by word in a step region, gathered where it is narrower. -/
def Mv.put (m : Mv) (x : Cmd) (num : Nat) (far : Option FarRef) (addr n v : Nat) (bad : Bool) : Mv :=
  if m.err.isSome then m
  else match m.s.engRes x true n n addr far with
    | (.error e, s1) => { m with s := s1, err := some e }
    | (.ok t, s1) =>
      let m1 : Mv := { m with s := s1 }
      match t with
      | .scratch id off f =>
        if ((s1.crew? id).bind (fun k => k.regionAt off)).isNone then m1.store x num t addr n v bad
        else if n < 4 then m1.collect id off addr n v bad
        else (List.range (n / 4)).foldl (fun m i =>
          m.store x num (.scratch id (off + 4 * i) f) (addr + 4 * i) 4 (v / 2 ^ (32 * i) % 2 ^ 32) bad) m1
      | _ => m1.store x num t addr n v bad

/-- The gathered words are stored; one that is covered only in part fails the command (R237, R447). -/
def Mv.flush (m : Mv) (x : Cmd) (num : Nat) : Mv :=
  let m1 := m.gather.foldl (fun m g =>
    if m.err.isSome then m
    else if g.bytes.length < 4 then { m with err := some { code := 8, val := g.addr, mcause := cPLANEACC } }
    else m.store x num (.scratch g.crew g.off false) g.addr 4 (ofBytes ((List.range 4).map (fun i => Tab.getD g.bytes i 0))) g.bad) m
  { m1 with gather := [] }

/-- A word of a scratchpad that the payload has covered with clean bytes loses its poison (R473). -/
def State.cleanWords (s : State) (l : List (Nat × Nat × Bool)) : State :=
  ((l.map (fun e => (e.1, e.2.1 / 4))).eraseDups).foldl (fun s w =>
    let part := l.filter (fun e => e.1 == w.1 && e.2.1 / 4 == w.2)
    if part.any (fun e => e.2.2) || !((List.range 4).all (fun i => part.any (fun e => e.2.1 == 4 * w.2 + i))) then s
    else s.modCrew w.1 (fun k => { k with spoison := k.spoison.filter (· != w.2) })) s

/-- The state after a payload, with the poison of what it wrote (R473). -/
def Mv.done (m : Mv) : State := (m.s.poisonAfter m.keys).cleanWords m.words

/-! ## The copy block (R270-R273) -/

/-- Signed stride. -/
def stride (b : BitVec 512) (hi lo : Nat) : Int := sextN (blk b hi lo) 32

def cpPush (b : BitVec 512) : Bool := blk b 11 11 == 1
def cpSslot (b : BitVec 512) : Bool := blk b 0 0 == 1
def cpDslot (b : BitVec 512) : Bool := blk b 1 1 == 1
def cpColl (b : BitVec 512) : Bool := blk b 15 15 == 1
def cpSig (b : BitVec 512) : Bool := blk b 9 9 == 1
def cpEsz (b : BitVec 512) : Nat := 2 ^ blk b 42 40

/-- Logical slot of a slot side (R272). -/
def srcSlot (b : BitVec 512) : Nat := blk b 83 80
def dstSlot (b : BitVec 512) : Nat := blk b 147 144

/-- The gang positions that a block multicasts to (R273). -/
def cpMask (b : BitVec 512) : List Nat := (List.range 8).filter (fun p => (blk b 55 48).testBit p)

/-- Offsets of the elements under one pair of strides, in (z, y, x) order (R271). -/
def elemOffs (b : BitVec 512) : List (Int × Int) :=
  let e := cpEsz b
  (List.range (blk b 239 224)).flatMap (fun (z : Nat) => (List.range (blk b 223 208)).flatMap (fun (y : Nat) => (List.range (blk b 207 192)).map (fun (x : Nat) =>
    ((z : Int) * stride b 319 288 + (y : Int) * stride b 287 256 + (x * e : Nat),
     (z : Int) * stride b 383 352 + (y : Int) * stride b 351 320 + (x * e : Nat)))))

/-- The block of a copy command. -/
def copyBlock (x : Cmd) : BitVec 512 := match x.op with | .copy b => b | _ => 0

/-- Whether an entry is a copy or a collective. -/
def Entry.isCopy (e : Entry) : Bool := match e.cmds with | x :: _ => (match x.op with | .copy _ => true | _ => false) | [] => false

/-- The storage of a command's slot destinations (R273). -/
def dstStores (x : Cmd) (b : BitVec 512) : List Nat :=
  if blk b 55 48 = 0 then [Tab.getD x.slots (dstSlot b) 0] else (cpMask b).map (fun p => Tab.getD x.slots (16 * (p + 1) + dstSlot b) 0)

def State.modSlots (s : State) (l : List Nat) (f : OpSlot → OpSlot) : State := { s with opslots := l.foldl (fun t i => Tab.modD t i {} f) s.opslots }

/-! ## The heads of the queues (R264, R268, R279) -/

/-- The cores on which storage that an entry names waits to be freed, and its own core (R247). -/
def State.sweepCores (s : State) (core : Nat) (e : Option Entry) : List Nat :=
  match e with
  | none => [core]
  | some e => core :: (s.cores.filter (fun k => k.1 != core && k.2.freeing.any (fun x => e.names x.1 x.2))).map (·.1)

/-- The head entry leaves its queue; marks behind it, a departure that waits for a gang operation, and released storage on every core
follow (R247, R261, R279). -/
def State.popHead (s : State) (core q : Nat) : State :=
  let e := (s.queue core q).head?
  let s1 := (s.setQueue core q ((s.queue core q).drop 1)).passAll core
  let s2 := match e.bind (·.cmds.head?) with
    | some x => if x.part.isSome && x.by_.core != core then s1.passAll x.by_.core else s1
    | none => s1
  (s.sweepCores core e).foldl State.sweepStore s2

/-- Whether the core's queues start commands: FREEZE is clear (R363), nothing contains the core (R403). -/
def State.engineRuns (s : State) (core : Nat) : Bool :=
  !((s.dreg core 0).getLsbD 1) && !(s.die (coreDie core)).contained && !((s.die (coreDie core)).clusters.contains (coreCluster core % 16))

/-! ## Reading the block at issue (R256, R259, R269) -/

/-- The body of an instruction that queues the command of a block: the release of R213, then the block is read and the command is built. -/
def withBlock (c : Ctx) (f : GR) (st : State) (tok : BitVec 512 → Option (Nat × Nat)) (k : BitVec 512 → State → State) : Iss :=
  if !(st.writesDone c.w) then .stall st
  else match st.readBlock c (readA c f) 64 64 false with
  | (.trap t, st1) => .trap [t] st1
  | (.late t, st1) => .ok { s := st1, late := [t] }
  | (.ok n, st1) =>
    let b := BitVec.ofNat 512 n
    if tokFull c.v (tok b) then .stall st1 else .ok { s := k b (st1.countTok c.w (tok b)) }

end Sys2Proof.Machine
end

