-- ==== Sys2Proof/Machine/Payload.lean ====
section
/-!
DEFINITION. Sys2Proof/Machine/Payload.lean: the payload of a copy command or collective: its elements, where its bytes come from and go to,
the order in which they move, and the labels of the slots it writes (spec/13_copy_engines_and_streams.md R271-R273, R275,
spec/11_crews_step_planes_line_locks.md R237, spec/23_memory_lock_plane_and_engine_faults.md R447, R448).
-/

namespace Sys2Proof.Machine

/-! ## The payload (R271-R273) -/

/-- Where the bytes of a slot row come from (R272): kind 0 memory in no window, 1 a window of a format, 2 a slot; what; the 256-byte span. -/
structure RowSrc where
  kind : Nat
  what : Nat
  span : Nat
  deriving DecidableEq, Repr

/-- A byte that a command reads or writes: kind (0 memory, 1 a crew's scratchpad, 2 a slot), which, which byte. -/
abbrev BytePlace := Nat × Nat × Nat

/-- Read one element: value, poison, the origin of a slot row's bytes, the places of its bytes. -/
def State.copyRead (s : State) (x : Cmd) (b : BitVec 512) (off : Int) : Except CmdErr (Nat × Bool × RowSrc × List BytePlace) × State :=
  let e := cpEsz b
  if cpSslot b then
    let o : Int := (blk b 78 64 : Int) + off
    if o < 0 || o + e > 32768 then (.error { code := 7, val := intBits o 64 }, s)
    else
      let st := Tab.getD x.slots (srcSlot b) 0
      let sl := Tab.getD s.opslots st {}
      let n := o.toNat
      (.ok (ofBytes ((List.range e).map (fun i => Tab.getD sl.bytes (n + i) 0)),
        sl.poison.any (fun w => 4 * w < n + e && n < 4 * w + 4), { kind := 2, what := st, span := n / 256 }, (List.range e).map (fun i => (2, st, n + i))), s)
  else
    let a := intBits ((blk b 111 64 : Int) + off) 48
    match s.engLoad x a e e with
    | (.error r, s1) => (.error r, s1)
    | (.ok (v, p, t), s1) =>
      let r : RowSrc × List BytePlace := match t with
        | .glob ph => ((match s1.winAt ph.key with
          | some w => { kind := 1, what := w.fmt, span := ph.key / 256 }
          | none => { kind := 0, what := 0, span := ph.key / 256 }), (List.range e).map (fun i => (0, ph.key + i, 0)))
        | .scratch id o _ => ({ kind := 0, what := 0, span := a / 256 }, (List.range e).map (fun i => (1, id, o + i)))
        | .priv _ _ => ({ kind := 0, what := 0, span := a / 256 }, [])
      (.ok (v, p, r.1, r.2), s1)

/-- Write bytes of a slot. -/
def OpSlot.write (o : OpSlot) (off n v : Nat) (bad : Bool) : OpSlot :=
  let ws := ((List.range n).map (fun j => (off + j) / 4)).eraseDups
  { o with
    bytes := (List.range n).foldl (fun t i => Tab.set t (off + i) (BitVec.ofNat 8 (v / 2 ^ (8 * i)))) o.bytes
    poison := if bad then ws.foldl insertSet o.poison
      else o.poison.filter (fun w => !(ws.contains w && off ≤ 4 * w && 4 * w + 4 ≤ off + n)) }

/-! ## The elements of an entry (R271, R275) -/

/-- One element of an entry: the slice, its command, its destination address, its number, its offsets. `bad`: no element, but the failure
of a word that the entry covers only in part (R237). -/
structure Item where
  ix : Nat
  x : Cmd
  dbase : Nat
  n : Nat
  off : Int × Int
  bad : Option CmdErr := none

/-- The elements of every slice, in (z, y, x) order; a pushing command writes its tile (R271, R275, R281). -/
def Entry.items (e : Entry) : List Item :=
  let base := fun (b : BitVec 512) =>
    match e.tile with
    | some (_, _, a) => if cpPush b then a else blk b 175 128
    | none => blk b 175 128
  (e.cmds.zip (List.range e.cmds.length)).flatMap (fun p =>
    let l := elemOffs (copyBlock p.1)
    (l.zip (List.range l.length)).map (fun o => { ix := p.2, x := p.1, dbase := base (copyBlock p.1), n := o.2, off := o.1 }))

/-- The address that an element is written to outside slots. -/
def Item.addr (i : Item) : Nat := intBits ((i.dbase : Int) + i.off.2) 48

/-- What an entry writes: the bytes that it could also read, and the bytes of step regions (crew, offset, address, slice). A region is
read in the present plane and written in the next. -/
def State.writePlaces (s : State) (l : List Item) : List BytePlace × List (Nat × Nat × Nat × Nat) :=
  l.foldl (fun a i =>
    let b := copyBlock i.x
    let e := cpEsz b
    if cpDslot b then
      let n := ((blk b 142 128 : Int) + i.off.2).toNat
      ((dstStores i.x b).flatMap (fun st => (List.range e).map (fun j => (2, st, n + j))) ++ a.1, a.2)
    else match (s.engRes i.x true e e i.addr i.x.dst).1 with
      | .ok (.glob p) => ((List.range e).map (fun j => (0, p.key + j, 0)) ++ a.1, a.2)
      | .ok (.scratch id off _) =>
        if ((s.crew? id).bind (fun k => k.regionAt off)).isNone then ((List.range e).map (fun j => (1, id, off + j)) ++ a.1, a.2)
        else (a.1, (List.range e).map (fun j => (id, off + j, i.addr + j, i.ix)) ++ a.2)
      | _ => a) ([], [])

/-- The failures of region words that an entry covers only in part (R237, R447). -/
def partWords (l : List Item) (cover : List (Nat × Nat × Nat × Nat)) : List Item :=
  match l.head? with
  | none => []
  | some i =>
    let bad := cover.filter (fun c => !((List.range 4).all (fun j => cover.any (fun d => d.1 == c.1 && d.2.1 == c.2.1 / 4 * 4 + j))))
    ((bad.map (fun c => (c.1, c.2.1 / 4, c.2.2.1 - c.2.1 % 4, c.2.2.2))).eraseDups).map (fun c =>
      { i with ix := c.2.2.2, bad := some { code := 8, val := c.2.2.1, mcause := cPLANEACC } })

/-! ## Moving the elements (R271, R272, R448) -/

/-- A payload on its way: the rows of slots written (storage times 128 plus row) with the origin of their bytes, FMT of the last command
that wrote each slot, the elements written (slice, destination offset, number), whether it read a byte that it also writes. -/
structure Pay where
  mv : Mv
  rows : Tab RowSrc := []
  fmts : Tab Nat := []
  moved : List (Nat × Int × Nat) := []
  hot : Bool := false

/-- Bytes of an element, each with its value before the command or its present value, by free bits (R271). -/
def mixBytes (free : W64) (n old new : Nat) : Nat :=
  ofBytes ((List.range n).map (fun i => BitVec.ofNat 8 ((if free.getLsbD i then old else new) / 2 ^ (8 * i))))

/-- Read an element. Where the command also writes one of its bytes, and `was` is the state before the command, each byte has its value
before or after that write (R271, log 22). -/
def Pay.read (p : Pay) (was : Option State) (hot : List BytePlace) (i : Item) : Except CmdErr (Nat × Bool × RowSrc) × Pay :=
  let b := copyBlock i.x
  match p.mv.s.copyRead i.x b i.off.1 with
  | (.error e, s1) => (.error e, { p with mv := { p.mv with s := s1 } })
  | (.ok (v, bad, src, l), s1) =>
    let met := l.any hot.contains
    let p1 : Pay := { p with mv := { p.mv with s := s1 }, hot := p.hot || met }
    match was with
    | none => (.ok (v, bad, src), p1)
    | some s0 =>
      if !met then (.ok (v, bad, src), p1)
      else
        let f := Config.freeWord s1.free
        let p2 : Pay := { p1 with mv := { p1.mv with s := { s1 with free := s1.free + 1 } } }
        match (s0.copyRead i.x b i.off.1).1 with
        | .error e => if f.getLsbD 16 then (.error e, p2) else (.ok (v, bad, src), p2)
        | .ok (v0, bad0, _, _) =>
          let pick := fun (y : Bool) => (List.range (cpEsz b)).any (fun j => f.getLsbD j == y)
          (.ok (mixBytes f (cpEsz b) v0 v, (pick true && bad0) || (pick false && bad), src), p2)

/-- Write an element to slots: a row of two spans or rows of two origins fail (R272). -/
def Pay.toSlot (p : Pay) (i : Item) (v : Nat) (bad : Bool) (src : RowSrc) : Pay :=
  let b := copyBlock i.x
  let e := cpEsz b
  let o : Int := (blk b 142 128 : Int) + i.off.2
  if o < 0 || o + e > 32768 then { p with mv := { p.mv with err := some { code := 7, val := intBits o 64 } } }
  else
    let n := o.toNat
    let ds := dstStores i.x b
    let clash := (match p.rows with | (_, r) :: _ => r.kind != src.kind || r.what != src.what | [] => false)
      || ds.any (fun st => match Tab.get? p.rows (128 * st + n / 256) with | some r => r.span != src.span | none => false)
    if clash then { p with mv := { p.mv with err := some { code := 0x0F, val := n } } }
    else
      { p with
        mv := { p.mv with s := p.mv.s.modSlots ds (fun sl => sl.write n e v bad), wrote := true }
        rows := ds.foldl (fun t st => Tab.set t (128 * st + n / 256) src) p.rows
        fmts := ds.foldl (fun t st => Tab.set t st (blk b 37 32)) p.fmts }

/-- An element later in (z, y, x) order has been written to the same place: that one remains (R271). -/
def Pay.covered (p : Pay) (i : Item) : Bool := p.moved.any (fun d => d.1 == i.ix && d.2.1 == i.off.2 && d.2.2 > i.n)

/-- Move one element; nothing is written after a failure (R448). -/
def Pay.step (was : Option State) (hot : List BytePlace) (num : Nat) (p : Pay) (i : Item) : Pay :=
  if p.mv.err.isSome then p
  else
    let fail := fun (q : Pay) (e : CmdErr) => ({ q with mv := { q.mv with err := some e } } : Pay)
    let q : Pay := match i.bad with
      | some e => fail p e
      | none => match p.read was hot i with
        | (.error e, p1) => fail p1 e
        | (.ok (v, bad, src), p1) =>
          if p1.covered i then p1
          else
            let p2 : Pay := { p1 with moved := (i.ix, i.off.2, i.n) :: p1.moved }
            if cpDslot (copyBlock i.x) then p2.toSlot i v bad src
            else { p2 with mv := p2.mv.put i.x num i.x.dst i.addr (cpEsz (copyBlock i.x)) v bad }
    { q with mv := { q.mv with err := q.mv.err.map (fun e => { e with ix := i.ix }) } }

/-- An order that the free values fix: each element in turn is put at a free place among those before it. -/
def freeOrder {α : Type} (n : Nat) (l : List α) : List α :=
  (l.foldl (fun (a : List α × Nat) e =>
    let k := (Config.freeWord a.2).toNat % (a.1.length + 1)
    (a.1.take k ++ e :: a.1.drop k, a.2 + 1)) ([], n)).1

/-! ## Slot labels and gathered words (R237, R244, R272) -/

/-- Scales and marks of a slot row from its origin (R244, R272). -/
def State.rowScales (s : State) (r : RowSrc) : List (Nat × Byte × Bool) :=
  (List.range 16).map (fun i =>
    match r.kind with
    | 1 =>
      let base := 256 * r.span
      (match s.winAt base with
       | some w => if i < 256 / w.blk then
           (match s.blockScale w (base + i * w.blk) with
            | (some x, nan) => (i, BitVec.ofInt 8 x, nan)
            | (none, _) => (i, 0x80, false))
           else (i, 0, false)
       | none => (i, 0, false))
    | 2 => let o := Tab.getD s.opslots r.what {}
           (i, Tab.getD o.scales (16 * r.span + i) 0, o.nans.contains (16 * r.span + i))
    | _ => (i, 0, false))

/-- The header and the scales of the rows that a payload has written (R272). -/
def OpSlot.label (o : OpSlot) (fmt : Nat) (src : Option OpSlot) (rows : List (Nat × RowSrc × List (Nat × Byte × Bool))) : OpSlot :=
  let o1 := rows.foldl (fun (o : OpSlot) r => r.2.2.foldl (fun (o : OpSlot) c =>
    let i := 16 * r.1 + c.1
    { o with scales := Tab.set o.scales i c.2.1, nans := if c.2.2 then insertSet o.nans i else o.nans.filter (· != i) }) o) o
  match rows with
  | [] => o
  | (_, r, _) :: _ =>
    match r.kind with
    | 1 => { o1 with fmt := r.what, scaled := true, nanblk := !o1.nans.isEmpty }
    | 2 => let h := src.getD {}
           { o1 with fmt := h.fmt, scaled := h.scaled, nanblk := h.nanblk }
    | _ => { o1 with fmt := fmt, scaled := false, nanblk := false }

/-- Set the header and the scales of one slot that a payload has written. -/
def Pay.labelSlot (p : Pay) (s : State) (st : Nat) : State :=
  let rows := (p.rows.filter (fun r => r.1 / 128 == st)).map (fun r => (r.1 % 128, r.2, s.rowScales r.2))
  let src := (rows.head?).bind (fun r => if r.2.1.kind = 2 then Tab.get? s.opslots r.2.1.what else none)
  s.modSlots [st] (fun o => o.label (Tab.getD p.fmts st 0) src rows)

/-- The end of a payload: the slots get their labels, and the words gathered whole are stored. -/
def Pay.finish (p : Pay) (num : Nat) (x : Cmd) : Mv :=
  let s1 := (p.fmts.map (·.1)).foldl p.labelSlot p.mv.s
  let m : Mv := ({ p.mv with s := s1, err := none, gather := p.mv.gather.filter (fun g => g.bytes.length == 4) } : Mv).flush x num
  { m with err := m.err.or p.mv.err }

/-- The payload of an entry, as one command (R237, R271, R272, R275, R448). Its elements are taken in (z, y, x) order; where one fails, or
a byte is both read and written, they are taken in a free order (log 22). -/
def State.moveEntry (s : State) (e : Entry) : State × Entry :=
  match e.cmds with
  | [] => (s, { e with phase := 2 })
  | x :: _ =>
    let (hot, cover) := s.writePlaces e.items
    let l := e.items ++ partWords e.items cover
    let p := l.foldl (Pay.step none hot e.num) ({ mv := { s := s } } : Pay)
    let m := p.finish e.num x
    let r := if m.err.isNone && !p.hot then m
      else ((freeOrder s.free l).foldl (Pay.step (some s) hot e.num) ({ mv := { s := { s with free := s.free + l.length } } } : Pay)).finish e.num x
    (r.done, { e with phase := 2, err := r.err, wrote := r.wrote })

end Sys2Proof.Machine
end

