-- ==== Sys2Proof/Machine/Matrix.lean ====
section
/-!
DEFINITION. Sys2Proof/Machine/Matrix.lean: the matrix engine: storage claims, gangs, matrix operations, mx.zero and drains
(spec/12_matrix_engine.md R243-R267, spec/04_number_formats.md R80-R93).
-/

namespace Sys2Proof.Machine

/-! ## Storage and gangs (R246, R247, R261) -/

/-- R246, R442. -/
def execOmClaim (f : GR) (s : State) : Host.Outcome State Fault Refusal :=
  issue (.omClaim f) (fun c st =>
    let b := (readB c f).toNat
    let ns := bits b 4 0
    let na := bits b 7 5
    match st.crew? c.v.crew with
    | none => .ok { s := st }
    | some k =>
      if ns > 16 || na > 4 then .trap [batchOperand c 7]
      else if k.slots.length + ns > 16 || k.accs.length + na > 4 then .trap [batchOperand c 6]
      else if ns = 0 && na = 0 then uniOut f (BitVec.ofNat 64 (claimWord [] [] k)) st
      else .ok { s := { st with claims := st.claims ++ [(c.w, maskOf c.lanes)] }, silent := true, onEnd := .claim ns na f.d.toNat }) s

/-- R247: on every core of the holder. -/
def execOmRel (f : GR) (s : State) : Host.Outcome State Fault Refusal :=
  issue (.omRel f) (fun c st =>
    let b := (readB c f).toNat
    let rel := fun (s : State) (id : Nat) => match s.crew? id with
      | none => s
      | some k =>
        let sl := k.slots.filter (fun e => b.testBit e.1)
        let ac := k.accs.filter (fun e => b.testBit (16 + e.1))
        let s1 := s.modCrew id (fun x => { x with slots := x.slots.filter (fun e => !sl.contains e), accs := x.accs.filter (fun e => !ac.contains e) })
        let s2 := sl.foldl (fun s e => s.dropStore k.core e.2 false) s1
        ac.foldl (fun s e => s.dropStore k.core e.2 true) s2
    .ok { s := ((st.holderCrews c.v.crew).foldl rel st).claimsChanged }) s

/-- R246: waiting claims are looked at; one that is granted may let the next through. -/
def execOmClaimGrant (w : Nat) (s : State) : Host.Outcome State Fault Refusal :=
  let s1 := s.recheck w
  .next (if s1.claims.length < s.claims.length then s1.claimsChanged else s1)

/-- A crew joins a gang at a position; the gang is formed once SIZE crews of one process on distinct cores are in it (R261). -/
def gangJoin (s : State) (crew g pos size : Nat) : Option State :=
  match s.crew? crew with
  | none => none
  | some k =>
    let key := coreCluster k.core * 4 + g
    let old := (Tab.get? s.gangs key).getD { size := size }
    if old.formed || old.size != size || (Tab.get? old.crews pos).isSome || k.gang.isSome || !k.slots.isEmpty || !k.accs.isEmpty then none
    else
      let new := { old with crews := Tab.set old.crews pos crew }
      let in_ := new.crews.filterMap (fun e => s.crew? e.2)
      let full := decide (new.crews.length = size) && in_.all (fun x => x.proc == k.proc) && (in_.map (·.core)).eraseDups.length == size
      let s1 := ({ s with gangs := Tab.set s.gangs key { new with formed := full } } : State).modCrew crew (fun x => { x with gang := some (g, pos) })
      some (if full then (new.crews.map (·.2)).foldl State.recheckCrew s1 else s1)

/-- R261, R442. A later wave of a crew that waits in the same join waits with it. -/
def execMxGang (f : GR) (s : State) : Host.Outcome State Fault Refusal :=
  issue (.mxGang f) (fun c st =>
    let b := (readB c f).toNat
    let g := bits b 1 0
    let pos := bits b 4 2
    let size := bits b 7 5 + 1
    let out := fun (x : Nat) (s' : State) => uniOut f (BitVec.ofNat 64 x) s'
    if bitOf b 8 then
      (match (st.crew? c.v.crew).bind (·.gang) with
       | some (g', _) =>
         if g' = g then
           let (num, st1) := st.takeNum
           out stOK ((st1.enqueueCmd (st.coreOf c.v) 2 { cmds := [{ by_ := issuerOf st c, op := .leave, crew := c.v.crew }], num := num }).passAll (st.coreOf c.v))
         else out stOK st
       | none => out stOK st)
    else if pos ≥ size then .trap [batchOperand c 6]
    else
      let same := match (st.crew? c.v.crew).bind (·.gang), st.gangOf c.v.crew with
        | some (g', p'), some (_, x) => g' == g && p' == pos && x.size == size && !x.formed
        | _, _ => false
      if same then .ok { s := st, silent := true, onEnd := .gang f.d.toNat }
      else match gangJoin st c.v.crew g pos size with
        | none => out stBUSY st
        | some st1 => .ok { s := st1, silent := true, onEnd := .gang f.d.toNat }) s

/-! ## Where elements land (R252, R253) -/

/-- Accumulator, row and column of element (i, j). -/
def accPlace (wide : Bool) (acc row0 col0 i j : Nat) : Nat × Nat × Nat :=
  if wide then (2 * (i / 128) + j / 128, i % 128, j % 128) else (acc, row0 + i, col0 + j)

/-- The accumulators of an M by N region. -/
def accsOf (wide : Bool) (acc m n : Nat) : List Nat :=
  if wide then (List.range (ceilDiv m 128)).flatMap (fun r => (List.range (ceilDiv n 128)).map (fun c => 2 * r + c)) else [acc]

/-! ## Operand slots (R80-R82, R243, R244, R250) -/

/-- Elements in one slot row; 0 for a format that no pairing has. -/
def slotKS (f : Fmt) : Nat :=
  match f with
  | .ieee 5 11 => 128
  | .ieee 8 8 => 128
  | .b8 _ _ _ => 256
  | .b4 _ => 512
  | _ => 0

/-- The pairings of R250. -/
def pairing (a b : Fmt) : Bool := (a.isNarrow && b.isNarrow) || (slotKS a == 128 && a == b)

/-- The code of element k of a slot row. -/
def OpSlot.elem (o : OpSlot) (f : Fmt) (q k : Nat) : Nat :=
  let byte := fun (i : Nat) => (Tab.getD o.bytes (256 * q + i) 0).toNat
  if f.width = 16 then byte (2 * k) + 256 * byte (2 * k + 1)
  else if f.width = 8 then byte k
  else bits (byte (k / 2)) (4 * (k % 2) + 3) (4 * (k % 2))

/-- The shift count of block b of a slot row, none where the block is all zero, and whether it is marked NaN. -/
def OpSlot.scaleOf (o : OpSlot) (q b : Nat) : Option Int × Bool :=
  if !o.scaled then (some 0, false)
  else
    let c := (Tab.getD o.scales (16 * q + b) 0).toNat
    if o.nanblk && o.nans.contains (16 * q + b) then (some 0, true)
    else if c = 0x80 then (none, false) else (some (sextN c 8), false)

/-- A fetched block of 32 elements: its shift count (none: not fetched), its values with special ones as zero, whether one is special,
whether a word is poisoned. -/
structure KBlock where
  scale : Option Int
  vals : List FVal
  special : Bool
  poison : Bool

/-- An FVal as the array sees it: special values count as zero there, and the detector marks them (R255). -/
def FVal.plain : FVal → FVal
  | .fin n m e => .fin n m e
  | _ => .fin false 0 0

def FVal.isSpecial : FVal → Bool
  | .fin _ _ _ => false
  | _ => true

/-- Block b of slot row q of a vector held in slots chunk by chunk (R252). -/
def kblock (chunks : List OpSlot) (f : Fmt) (q b : Nat) : KBlock :=
  let ks := slotKS f
  let o := (chunks.getD (32 * b / ks) {})
  let k0 := 32 * b % ks
  let (sc, nan) := o.scaleOf q (k0 / 32)
  if sc.isNone then { scale := none, vals := [], special := false, poison := false }
  else
    let vs := (List.range 32).map (fun i => f.decode (o.elem f q (k0 + i)))
    let lo := 256 * q + k0 * f.width / 8
    { scale := sc, vals := vs.map FVal.plain, special := nan || vs.any FVal.isSpecial
      poison := o.poison.any (fun w => 4 * w < lo + 4 * f.width && lo < 4 * w + 4) }

/-- The exact sum of products of a block; an exact zero is +0 (R91). -/
def blockSum (a b : KBlock) : FVal :=
  match ((a.vals.zip b.vals).foldl (fun (s : FVal) (p : FVal × FVal) => (s.add (p.1.mul p.2).1).1) (FVal.fin false 0 0)) with
  | FVal.fin _ 0 _ => .fin false 0 0
  | x => x

/-- One element of a product, block after block (R91, R92). -/
def dotProduct (ovw : Bool) (acc : Nat) (as_ bs : List KBlock) : Nat :=
  ((as_.zip bs).foldl (fun (st : Nat × Bool) p =>
    let y := match p.1.scale, p.2.scale with
      | some x, some z => (match blockSum p.1 p.2 with
        | .fin n m e => (Fmt.f32.round (.fin n m (e + x + z)) .rne false 0).1
        | v => (Fmt.f32.round v .rne false 0).1)
      | _, _ => 0
    (if st.2 then y else (Fmt.f32.addOp st.1 y).1, false)) (acc, ovw)).1

/-! ## The parameter block (R251, R252, R263) -/

/-- What a parameter block asks of one core. -/
structure MxPlan where
  gathered : Bool
  ovw : Bool
  wide : Bool
  acc : Nat
  row0 : Nat
  col0 : Nat
  m : Nat
  n : Nat
  k : Nat
  rb : Nat
  cb : Nat
  deriving DecidableEq, Repr

/-- The part of a gang operation at a position (R263); the whole of any other operation. -/
def mxPlan (b : BitVec 512) (part : Option (Nat × Nat)) : MxPlan :=
  let gang := blk b 4 4 = 1
  let m0 := blk b 41 32
  let n0 := blk b 58 48
  let p := (part.map (·.2)).getD 0
  let m := if gang then min 256 (m0 - 256 * (p / 4)) else m0
  let n := if gang then min 256 (n0 - 256 * (p % 4)) else n0
  let g := blk b 1 0 == 1
  { gathered := g, ovw := blk b 2 2 == 1, wide := gang || blk b 3 3 == 1, acc := blk b 17 16, row0 := blk b 86 80, col0 := blk b 94 88
    m := m, n := n, k := blk b 79 64, rb := if g then blk b 227 224 else ceilDiv m 128, cb := ceilDiv n 128 }

/-- Field failures of a parameter block (R251, R254, R447). -/
def mxFields (b : BitVec 512) : List CmdErr :=
  let gang := blk b 4 4 == 1
  let wide := gang || blk b 3 3 == 1
  let m := blk b 41 32
  let n := blk b 58 48
  let k := blk b 79 64
  let row := blk b 86 80
  let col := blk b 94 88
  let top := fun (g w x : Nat) => if gang then g else if wide then w else x
  badField (blk b 1 0 > 1 || (blk b 1 0 == 1 && wide)) 1 0
  ++ badField (blk b 11 9 > 4) 11 9
  ++ reservedFields b [(15, 12), (31, 18), (47, 42), (63, 59), (87, 87), (95, 95), (255, 228), (319, 304), (511, 368)]
  ++ badField (m == 0 || m > top 512 256 128) 41 32
  ++ badField (n == 0 || n > top 1024 256 128) 58 48
  ++ badField (k == 0 || k % 32 != 0) 79 64
  ++ badField (if wide then row != 0 else row + m > 128) 86 80
  ++ badField (if wide then col != 0 else col + n > 128) 94 88
  ++ badField (blk b 1 0 == 1 && blk b 227 224 == 0) 227 224

/-- Slot numbers of the A and B entries (R251). -/
def aEntry (b : BitVec 512) (e : Nat) : Nat := blk b (99 + 4 * e) (96 + 4 * e)
def bEntry (b : BitVec 512) (e : Nat) : Nat := blk b (163 + 4 * e) (160 + 4 * e)

/-- Logical slots that a parameter block may name, for the storage kept until it is performed (R247). -/
def mxSlots (b : BitVec 512) (p : MxPlan) : List Nat :=
  let ch := ceilDiv p.k 128
  (((List.range (min 16 (p.rb * ch))).map (aEntry b)) ++ ((List.range (min 16 (p.cb * ch))).map (bEntry b))).eraseDups

/-- The storage that logical numbers name for a crew. -/
def pickStore (t : Tab Nat) (l : List Nat) : Tab Nat := l.filterMap (fun n => (Tab.get? t n).map (fun x => (n, x)))

/-- The positions that a gang operation needs (R263). -/
def gangNeeds (b : BitVec 512) : List Nat :=
  (List.range (ceilDiv (blk b 41 32) 256)).flatMap (fun r => (List.range (ceilDiv (blk b 58 48) 256)).map (fun c => 4 * r + c))

/-! ## mx.issue, mx.drain, mx.zero (R249, R256, R259, R264) -/

/-- A matrix command of one core with the storage it names. -/
def mxCmd (s : State) (c : Ctx) (op : CmdOp) (crew : Nat) (slots accs : List Nat) (part : Option (Nat × Nat)) : Cmd :=
  let k := s.crew? crew
  { by_ := issuerOf s c, op := op, crew := crew, slots := pickStore ((k.map (·.slots)).getD []) slots
    accs := pickStore ((k.map (·.accs)).getD []) accs, part := part }

def State.coreOfCrew (s : State) (c : Nat) : Nat := ((s.crew? c).map (·.core)).getD 0

/-- A matrix operation enters the queue of its core, or of every core of the gang (R263, R264). -/
def enqueueMx (c : Ctx) (b : BitVec 512) (s : State) : State :=
  let one := fun (s : State) (crew : Nat) (part : Option (Nat × Nat)) =>
    let p := mxPlan b part
    s.enqueueCmd (s.coreOfCrew crew) 2 { cmds := [mxCmd s c (.mx b) crew (mxSlots b p) (accsOf p.wide p.acc p.m p.n) part] }
  match (if blk b 4 4 = 1 then s.gangOf c.v.crew else none) with
  | some (_, g) =>
    if g.formed then
      let (num, s1) := s.takeNum
      g.crews.foldl (fun s e => one s e.2 (some (num, e.1))) s1
    else one s c.v.crew none
  | none => one s c.v.crew none

/-- R256. -/
def execMxIssue (f : GR) (s : State) : Host.Outcome State Fault Refusal :=
  issue (.mxIssue f) (fun c st => withBlock c f st (fun b => (CmdOp.mx b).tok) (enqueueMx c)) s

/-- R259. -/
def execMxDrain (f : GR) (s : State) : Host.Outcome State Fault Refusal :=
  issue (.mxDrain f) (fun c st => withBlock c f st (fun b => (CmdOp.drain b).tok) (fun b s =>
    let x := mxCmd s c (.drain b) c.v.crew [] (accsOf (blk b 2 2 == 1) (blk b 1 0) (blk b 40 32) (blk b 56 48)) none
    s.enqueueCmd (s.coreOf c.v) 2 { cmds := [{ x with dst := s.farOf c.v (blk b 175 128) }] })) s

/-- R249. -/
def execMxZero (f : GR) (s : State) : Host.Outcome State Fault Refusal :=
  issue (.mxZero f) (fun c st =>
    let m := bits (readB c f).toNat 3 0
    .ok { s := st.enqueueCmd (st.coreOf c.v) 2
            { cmds := [mxCmd st c (.zero m) c.v.crew [] ((List.range 4).filter (fun k => m.testBit k)) none] } }) s

/-! ## Performing a matrix operation (R250-R256) -/

/-- Read a list of 16-bit entries (R254, R256). -/
def State.readList (s : State) (x : Cmd) (addr : Nat) : Nat → List Nat → Except CmdErr (List Nat) × State
  | 0, l => (.ok l, s)
  | n + 1, l =>
    let a := (addr + 2 * l.length) % 2 ^ 48
    if a ≥ clusterBase then (.error { code := 6, val := a }, s)
    else match s.engLoad x a 2 2 with
      | (.error e, s1) => (.error (if e.code = 7 then { code := 6, val := a } else e), s1)
      | (.ok (v, _, _), s1) => s1.readList x addr n (l ++ [v])

/-- The staged row of each array row (R254). -/
def State.mxIndices (s : State) (x : Cmd) (b : BitVec 512) (p : MxPlan) : Except CmdErr (List Nat) × State :=
  if p.gathered then
    match s.readList x (blk b 303 256) p.m [] with
    | (.error e, s1) => (.error e, s1)
    | (.ok l, s1) => match (l.zip (List.range l.length)).find? (fun e => e.1 ≥ p.rb * 128) with
      | some e => (.error { code := 6, val := (blk b 303 256 + 2 * e.2) % 2 ^ 48 }, s1)
      | none => (.ok l, s1)
  else (.ok (List.range p.m), s)

/-- The scatter entries, where there are any (R254). -/
def State.mxScatter (s : State) (x : Cmd) (b : BitVec 512) (p : MxPlan) : Except CmdErr (Option (List Nat)) × State :=
  if p.gathered && blk b 367 320 != 0 then
    match s.readList x (blk b 367 320) p.m [] with
    | (.error e, s1) => (.error e, s1)
    | (.ok l, s1) => (.ok (some l), s1)
  else (.ok none, s)

/-- The checks of an operation before it starts (R447): none where it may. -/
def State.mxCheck (s : State) (x : Cmd) (b : BitVec 512) (p : MxPlan) : Option CmdErr :=
  match (mxFields b).head? with
  | some e => some e
  | none =>
    let gang := blk b 4 4 == 1
    let here := match s.gangOf x.by_.crew with
      | some (_, g) => g.formed && (gangNeeds b).all (fun q => (Tab.get? g.crews q).isSome)
      | none => false
    if gang && !here then some { code := 4 }
    else if p.m = 0 || p.n = 0 then none
    else
      let slot := fun (e : Nat) => (Tab.get? x.slots e).bind (fun st => Tab.get? s.opslots st)
      match slot (aEntry b 0), slot (bEntry b 0) with
      | some a0, some b0 =>
        (match Fmt.ofCode a0.fmt, Fmt.ofCode b0.fmt with
         | some fa, some fb =>
           if !pairing fa fb then some { code := 3 }
           else
             let na := p.rb * ceilDiv p.k (slotKS fa)
             let nb := p.cb * ceilDiv p.k (slotKS fb)
             if na > 16 || nb > 16 then some { code := 1, val := fieldMask 79 64 }
             else
               let la := (List.range na).map (fun e => slot (aEntry b e))
               let lb := (List.range nb).map (fun e => slot (bEntry b e))
               if (la ++ lb).any Option.isNone || (accsOf p.wide p.acc p.m p.n).any (fun a => (Tab.get? x.accs a).isNone) then some { code := 2 }
               else if la.any (fun o => (o.map (·.fmt)) != some a0.fmt) || lb.any (fun o => (o.map (·.fmt)) != some b0.fmt) then some { code := 3 }
               else none
         | _, _ => some { code := 3 })
      | _, _ => some { code := 2 }

/-- The accumulators of an operation after it: products, marks, row maps, poison. -/
def mxAccs (acc : Nat → Acc) (p : MxPlan) (arow bcol : Nat → List KBlock) (scat : Option (List Nat)) : Tab Acc :=
  let rows := (List.range p.m).map (fun i => (i, arow i))
  let cols := (List.range p.n).map (fun j => (j, bcol j))
  let bad := (rows ++ cols).any (fun r => r.2.any (·.poison))
  (accsOf p.wide p.acc p.m p.n).map (fun a =>
    let o := acc a
    let mine := fun (i j : Nat) => (accPlace p.wide p.acc p.row0 p.col0 i j).1 == a
    let els := rows.foldl (fun t r => cols.foldl (fun t q =>
      if mine r.1 q.1 then
        let (_, rr, cc) := accPlace p.wide p.acc p.row0 p.col0 r.1 q.1
        let at_ := rr * 128 + cc
        Tab.set t at_ (BitVec.ofNat 32 (dotProduct p.ovw (Tab.getD o.els at_ 0).toNat r.2 q.2))
      else t) t) o.els
    let rm := rows.foldl (fun l r =>
      if r.2.any (·.special) && (List.range p.n).any (fun j => mine r.1 j) then insertSet l (accPlace p.wide p.acc p.row0 p.col0 r.1 0).2.1 else l) o.rowMark
    let cm := cols.foldl (fun l q =>
      if q.2.any (·.special) && (List.range p.m).any (fun i => mine i q.1) then insertSet l (accPlace p.wide p.acc p.row0 p.col0 0 q.1).2.2 else l) o.colMark
    let map := match scat with
      | some l => (l.zip (List.range l.length)).foldl (fun t e => Tab.set t (p.row0 + e.2) e.1) o.map
      | none => o.map
    (a, { o with els := els, rowMark := rm, colMark := cm, map := map, poison := if bad then insertSet o.poison 0 else o.poison }))

/-- The heads of copy queues that have started to write slots and have not moved their bytes yet: core, queue, entry. -/
def State.copiesUnderway (s : State) : List (Nat × Nat × Entry) :=
  s.cores.flatMap (fun k => [0, 1].filterMap (fun q => match s.queue k.1 q with
    | e :: _ => if e.isCopy && e.phase == 1 && e.err.isNone && e.cmds.any (fun x => cpDslot (copyBlock x)) then some (k.1, q, e) else none
    | [] => none))

/-- A slot of which each byte and scale is seen before or after a copy, by free bits; its header as before (R265, log 22). -/
def OpSlot.mix (n : Nat) (old new : OpSlot) : OpSlot :=
  let after := fun (i : Nat) => (Config.freeWord (n + i / 64)).getLsbD (i % 64)
  let pick := fun (base : Nat) (a b : Tab Byte) => (Tab.keys b).foldl (fun t i => if after (base + i) then Tab.set t i (Tab.getD b i 0) else t) a
  { old with
    bytes := pick 0 old.bytes new.bytes
    scales := pick 32768 old.scales new.scales
    nans := (List.range 2048).filter (fun i => if after (32768 + i) then new.nans.contains i else old.nans.contains i)
    poison := ((old.poison ++ new.poison).eraseDups).filter (fun w =>
      (List.range 4).any (fun j => if after (4 * w + j) then new.poison.contains w else old.poison.contains w)) }

/-- The slots as a command that starts now reads them (R265): each copy under way either moves its payload around this start, each byte
and scale being seen before or after it, or moves it later (log 22). -/
def State.slotsSeen (s : State) : Tab OpSlot × State :=
  s.copiesUnderway.foldl (fun (a : Tab OpSlot × State) u =>
    let s0 : State := { a.2 with free := a.2.free + 1 }
    if !(Config.freeWord a.2.free).getLsbD 0 then (a.1, s0)
    else
      let (s1, e1) := s0.moveEntry u.2.2
      let s2 := s1.setHead u.1 u.2.1 e1
      let hit := (u.2.2.cmds.flatMap (fun x => dstStores x (copyBlock x))).eraseDups
      (hit.foldl (fun t st => Tab.set t st (OpSlot.mix (s2.free + 1024 * st) (Tab.getD a.1 st {}) (Tab.getD s2.opslots st {}))) a.1,
        { s2 with free := s2.free + 1024 * (hit.foldl max 0 + 1) })) (s.opslots, s)

/-- Perform an operation; none: its effect is complete. -/
def State.mxRun (s : State) (x : Cmd) (b : BitVec 512) : Option CmdErr × State :=
  let p := mxPlan b x.part
  match s.mxCheck x b p with
  | some e => (some e, s)
  | none =>
    if p.m = 0 || p.n = 0 then (none, s)
    else
      match s.mxIndices x b p with
      | (.error e, s1) => (some e, s1)
      | (.ok idx, s1) => match s1.mxScatter x b p with
        | (.error e, s2) => (some e, s2)
        | (.ok scat, s2) =>
          let (seen, s3) := s2.slotsSeen
          let slot := fun (e : Nat) => ((Tab.get? x.slots e).bind (fun st => Tab.get? seen st)).getD {}
          let fa := (Fmt.ofCode (slot (aEntry b 0)).fmt).getD .bf16
          let fb := (Fmt.ofCode (slot (bEntry b 0)).fmt).getD .bf16
          let vec := fun (ent : BitVec 512 → Nat → Nat) (f : Fmt) (nb r : Nat) =>
            let ch := (List.range (ceilDiv p.k (slotKS f))).map (fun c => slot (ent b (c * nb + r / 128)))
            (List.range (p.k / 32)).map (fun kb => kblock ch f (r % 128) kb)
          let acc := fun (a : Nat) => ((Tab.get? x.accs a).bind (fun st => Tab.get? s2.accs st)).getD {}
          let new := mxAccs acc p (fun i => vec aEntry fa p.rb (idx.getD i 0)) (fun j => vec bEntry fb p.cb j) scat
          (none, new.foldl (fun (s : State) e => match Tab.get? x.accs e.1 with
            | some st => { s with accs := Tab.set s.accs st e.2 }
            | none => s) s3)

/-- The other parts of a gang operation send no second record (R263, R449). -/
def State.quietParts (s : State) (num : Nat) : State :=
  let q := fun (e : Entry) => { e with cmds := e.cmds.map (fun x => if (x.part.map (·.1)) == some num then { x with quiet := true } else x) }
  { s with
    cores := s.cores.map (fun (k : Nat × Core) => (k.1, { k.2 with queues := k.2.queues.map (fun t => (t.1, t.2.map q)) }))
    crews := s.crews.map (fun (c : Nat × Crew) => (c.1, { c.2 with saved := c.2.saved.map (fun e => (e.1, q e.2)) })) }

/-- Another part of a gang operation stands in a queue or with a descheduled crew. -/
def State.partsLeft (s : State) (num : Nat) : Bool :=
  let has := fun (e : Entry) => e.cmds.any (fun x => (x.part.map (·.1)) == some num)
  s.cores.any (fun k => k.2.queues.any (fun q => q.2.any has)) || s.crews.any (fun c => c.2.saved.any (fun e => has e.2))

/-- R256, R264: the operation at the head of the matrix queue starts; it reads its slots and lists now. -/
def execMxOperationStart (core : Nat) (s : State) : Host.Outcome State Fault Refusal :=
  match s.queue core 2 with
  | e :: _ =>
    (match e.cmds with
     | x :: _ => (match x.op with
       | .mx b =>
         if e.phase != 0 || !s.engineRuns core then .next s
         else
           let (err, s1) := s.mxRun x b
           .next (s1.setHead core 2 { e with phase := 1, err := err })
       | _ => .next s)
     | [] => .next s)
  | [] => .next s

/-- R256, R263, R448: the operation is performed: its token falls when every core's part is. -/
def execMxOperationPerformed (core : Nat) (s : State) : Host.Outcome State Fault Refusal :=
  match s.queue core 2 with
  | e :: _ =>
    (match e.cmds with
     | x :: _ => (match x.op with
       | .mx b =>
         if e.phase != 1 then .next s
         else
           let t := (CmdOp.mx b).tok
           let s1 := match e.err with
             | some r => if x.quiet then s else s.cmdError x r 2 false
             | none => s
           let s2 := match x.part, e.err with
             | some (n, _), some _ => s1.quietParts n
             | _, _ => s1
           let s3 := s2.popHead core 2
           let flagged := if e.err.isSome then (match t, s3.issuerWave x.by_ with
             | some (k, _), some _ => s3.modWave x.by_.wave (fun v => { v with tokens := Tab.set v.tokens k { v.token k with err := true } })
             | _, _ => s3) else s3
           .next (match x.part with
             | some (n, _) => if flagged.partsLeft n then flagged else flagged.fallTok x.by_ t false false false
             | none => flagged.fallTok x.by_ t false false false)
       | _ => .next s)
     | [] => .next s)
  | [] => .next s

/-- R249: the accumulators named are zeroed; one that is not held fails the command. -/
def execMxZeroPerform (core : Nat) (s : State) : Host.Outcome State Fault Refusal :=
  match s.queue core 2 with
  | e :: _ =>
    (match e.cmds with
     | x :: _ => (match x.op with
       | .zero m =>
         if !s.engineRuns core then .next s
         else if (List.range 4).any (fun k => m.testBit k && (Tab.get? x.accs k).isNone) then
           .next ((s.cmdError x { code := 2 } 2 false).popHead core 2)
         else .next ((x.accs.foldl (fun (s : State) a => { s with accs := Tab.set s.accs a.2 {} }) s).popHead core 2)
       | _ => .next s)
     | [] => .next s)
  | [] => .next s

/-! ## Drains (R258-R260) -/

/-- Bytes of a destination element; binary4 counts as 1. -/
def drainSize (f : Fmt) : Nat := max 1 (f.width / 8)

/-- Field failures of a drain block (R258, R447). -/
def drainFields (b : BitVec 512) : List CmdErr :=
  let wide := blk b 2 2 == 1
  let m := blk b 40 32
  let n := blk b 56 48
  let row := blk b 70 64
  let col := blk b 78 72
  let lim := if wide then 256 else 128
  let f := Fmt.ofCode (blk b 21 16)
  badField (blk b 10 8 > 4) 10 8 ++ badField (blk b 13 11 > 4) 13 11 ++ badField f.isNone 21 16
  ++ reservedFields b [(31, 22), (47, 41), (63, 57), (71, 71), (127, 79), (191, 176), (511, 256)]
  ++ badField (m == 0 || m > lim) 40 32
  ++ badField (n == 0 || n > lim || (match f with | some g => g.isB4 && n % 2 != 0 | none => false)) 56 48
  ++ badField (if wide then row != 0 else row + m > 128) 70 64
  ++ badField (if wide then col != 0 else col + n > 128) 78 72
  ++ badField (match f with | some g => blk b 223 192 % drainSize g != 0 | none => false) 223 192

/-- Whether a conversion clamped, overflowed, or turned NaN to 0 (R84-R86, R259; log 27). -/
def rangeHit (x : FVal) (f : Fmt) (mode : RMode) (sat : Bool) (d : Nat) : Bool :=
  match f with
  | .int sg w => (toInt x mode sg w d).2.nv
  | _ => match x with
    | .nan => false
    | .inf neg => sat || (f.unsigned && neg)
    | .fin neg _ _ => (f.round x mode sat d).2.ovf || (f.unsigned && neg && (f.round x mode false d).2.nv)

/-- One element as it is written: its code, whether it was special, whether it left the range, the generator after it. -/
def drainElem (o : Acc) (r c : Nat) (f : Fmt) (mode : RMode) (sat : Bool) (g : W32) : Nat × Bool × Bool × W32 :=
  let (d, g1) := if mode = .sr then srDraw g else (0, g)
  if o.rowMark.contains r || o.colMark.contains c then (f.nanCode, true, false, g1)
  else
    let x := Fmt.f32.decode (Tab.getD o.els (r * 128 + c) 0).toNat
    let v := match f with
      | .int sg w => (toInt x mode sg w d).1
      | _ => (f.round x mode sat d).1
    (v, false, rangeHit x f mode sat d, g1)

/-- A drain on its way: the payload, the generator, the flags, the nibble kept for the next element. -/
structure Drain where
  mv : Mv
  g : W32
  special : Bool := false
  range : Bool := false
  low : Nat := 0

/-- Element (i, j) of a drain. -/
def Drain.elem (dr : Drain) (x : Cmd) (num : Nat) (b : BitVec 512) (f : Fmt) (mode : RMode) (acc : Nat → Acc) (i j : Nat) : Drain :=
  if dr.mv.err.isSome then dr
  else
    let (a, r, c) := accPlace (blk b 2 2 == 1) (blk b 1 0) (blk b 70 64) (blk b 78 72) i j
    let o := acc a
    let (v, sp, rg, g) := drainElem o r c f mode (blk b 14 14 == 1) dr.g
    let row := if blk b 3 3 = 1 then Tab.getD o.map r r else i
    let base := blk b 175 128 + row * blk b 223 192
    let bad := !o.poison.isEmpty
    let dr1 : Drain := { dr with g := g, special := dr.special || sp, range := dr.range || rg }
    if f.isB4 then
      (if j % 2 = 0 then { dr1 with low := v }
       else { dr1 with mv := dr1.mv.put x num x.dst ((base + j / 2) % 2 ^ 48) 1 (dr1.low + 16 * v) bad })
    else { dr1 with mv := dr1.mv.put x num x.dst ((base + j * drainSize f) % 2 ^ 48) (drainSize f) v bad }

/-- R259: the drain at the head of the matrix queue starts and writes its elements, rows and columns ascending. -/
def State.drainRun (s : State) (x : Cmd) (b : BitVec 512) (num : Nat) : Option CmdErr × Bool × Bool × Bool × State :=
  let fail := fun (e : CmdErr) => (some e, false, false, false, s)
  match (drainFields b).head? with
  | some e => fail e
  | none =>
    let wide := blk b 2 2 == 1
    let names := accsOf wide (blk b 1 0) (blk b 40 32) (blk b 56 48)
    if names.any (fun a => (Tab.get? x.accs a).isNone) then fail { code := 2 }
    else
      let acc := fun (a : Nat) => ((Tab.get? x.accs a).bind (fun st => Tab.get? s.accs st)).getD {}
      let f := (Fmt.ofCode (blk b 21 16)).getD .f32
      let mode := (RMode.ofCode (blk b 13 11)).getD .rne
      let seed := if blk b 255 224 = 0 then 1 else blk b 255 224
      let d0 : Drain := { mv := { s := s }, g := BitVec.ofNat 32 seed }
      let d1 := (List.range (blk b 40 32)).foldl (fun d i => (List.range (blk b 56 48)).foldl (fun d j => d.elem x num b f mode acc i j) d) d0
      let m := d1.mv.flush x num
      let s1 := m.done
      let s2 := if blk b 15 15 = 1 && m.err.isNone then
          names.foldl (fun (s : State) a => match Tab.get? x.accs a with | some st => { s with accs := Tab.set s.accs st {} } | none => s) s1
        else s1
      (m.err, m.wrote, d1.special, d1.range, s2)

/-- R259, R264. -/
def execDrainStart (core : Nat) (s : State) : Host.Outcome State Fault Refusal :=
  match s.queue core 2 with
  | e :: _ =>
    (match e.cmds with
     | x :: _ => (match x.op with
       | .drain b =>
         if e.phase != 0 || !s.engineRuns core then .next s
         else
           let (num, s0) := s.takeNum
           let (err, wrote, sp, rg, s1) := s0.drainRun x b num
           .next (s1.setHead core 2 { e with phase := 1, err := err, wrote := wrote, special := sp, range := rg, num := num })
       | _ => .next s)
     | [] => .next s)
  | [] => .next s

/-- R260, R448: every write of the drain is performed; its token falls with its flags. -/
def execDrainPerformed (core : Nat) (s : State) : Host.Outcome State Fault Refusal :=
  match s.queue core 2 with
  | e :: _ =>
    (match e.cmds with
     | x :: _ => (match x.op with
       | .drain b =>
         if e.phase != 1 || s.cmdWaits e.num then .next s
         else
           let s1 := match e.err with
             | some r => s.cmdError x r 2 e.wrote
             | none => s
           .next ((s1.popHead core 2).fallTok x.by_ (CmdOp.drain b).tok e.err.isSome e.special e.range)
       | _ => .next s)
     | [] => .next s)
  | [] => .next s

end Sys2Proof.Machine
end

