-- ==== Sys2Proof/Machine/Copy.lean ====
section
/-!
DEFINITION. Sys2Proof/Machine/Copy.lean: copy commands, crew collectives, tokens, queue fences and streams
(spec/13_copy_engines_and_streams.md R268-R285). Payload.lean moves their bytes.
-/

namespace Sys2Proof.Machine

/-! ## Tokens and fences (R277-R279) -/

/-- R277. -/
def execTokWait (f : GR) (s : State) : Host.Outcome State Fault Refusal :=
  issue (.tokWait f) (fun c st => .ok { s := st, onEnd := .tokens (bits (readB c f).toNat 7 0) }) s

/-- The word of tok.test (R278). -/
def tokWord (v : Wave) (mask : Nat) : Nat :=
  let each := fun (p : Token → Bool) => (List.range 8).foldl (fun n k => n + b2n (p (v.token k)) * 2 ^ k) 0
  packFields [(each (fun t => decide (t.count > 0)), 0, 8), (each (·.special), 8, 8), (each (·.range), 16, 8), (each (·.err), 24, 8),
    (b2n (v.tokensZero mask), 32, 1)]

/-- Clear the sticky flags of masked tokens that read zero (R278). -/
def Wave.clearTokens (v : Wave) (mask : Nat) : Wave :=
  (List.range 8).foldl (fun v k =>
    if mask.testBit k && (v.token k).count == 0 then
      { v with tokens := Tab.set v.tokens k { v.token k with special := false, range := false, err := false } }
    else v) v

/-- R278. -/
def execTokTest (f : GR) (s : State) : Host.Outcome State Fault Refusal :=
  issue (.tokTest f) (fun c st =>
    let b := (readB c f).toNat
    let mask := bits b 7 0
    let st1 := if bitOf b 8 then st.modWave c.w (fun v => v.clearTokens mask) else st
    let st2 := if c.v.tokensZero mask then st1.acqTokens c.w c.v mask else st1
    uniOut f (BitVec.ofNat 64 (tokWord c.v mask)) st2) s

/-- R279: a mask of fewer than two queues has no effect. -/
def execEqFence (f : GR) (s : State) : Host.Outcome State Fault Refusal :=
  issue (.eqFence f) (fun c st =>
    let m := bits (readB c f).toNat 2 0
    let qs := (List.range 3).filter (fun j => m.testBit j)
    if qs.length < 2 then .ok { s := st }
    else
      let core := st.coreOf c.v
      let (num, st1) := st.takeNum
      let x : Cmd := { by_ := issuerOf st c, op := .fence num m, crew := c.v.crew }
      .ok { s := (qs.foldl (fun s j => s.enqueueCmd core j { cmds := [x] }) st1).passAll core }) s

/-! ## Streams (R280-R284) -/

/-- A ring descriptor that q.bind refuses (R280, R442). -/
def ringBad (k : Crew) (n : Nat) : Bool :=
  let base := bits n 17 0
  let nt := bits n 28 24
  let ts := bits n 48 32
  bits n 23 18 != 0 || bits n 31 29 != 0 || bits n 63 49 != 0 || base % 128 != 0 || decide (nt > 16)
  || ts % 128 != 0 || decide (ts < 128) || decide (ts > 65536) || (nt != 0 && decide (base + nt * ts > k.barOff))

/-- R282, R442. -/
def execQBind (f : GR) (s : State) : Host.Outcome State Fault Refusal :=
  issue (.qBind f) (fun c st =>
    let n := (readA c f).toNat
    match st.crew? c.v.crew with
    | none => .ok { s := st }
    | some k =>
      if ringBad k n then .trap [batchOperand c 7]
      else
        let q := f.d.toNat % 8
        let ring := fun (g : Nat) => ({ base := bits n 17 0, nt := bits n 28 24, tsize := bits n 48 32, gen := g } : Stream)
        .ok { s := st.modWave c.w (fun v => { v with streams := Tab.set v.streams q (ring ((v.stream q).gen + 1)) }) }) s

/-- R283: the batch is held until the tile at the head of the pops is filled. -/
def execQPop (f : GR) (s : State) : Host.Outcome State Fault Refusal :=
  issue (.qPop f) (fun _ st => .ok { s := st, silent := true, onEnd := .pop (f.b.toNat % 8) f.d.toNat }) s

/-- Free the oldest popped tile (R284). -/
def Stream.release (q : Stream) : Stream :=
  if q.nt != 0 && Tab.getD q.tiles q.freeNext .free == .popped then
    { q with tiles := Tab.set q.tiles q.freeNext .free, freeNext := (q.freeNext + 1) % q.nt }
  else q

/-- R284: after the release of the wave's earlier accesses (R203). -/
def execQFree (f : GR) (s : State) : Host.Outcome State Fault Refusal :=
  issue (.qFree f) (fun c st =>
    let q := f.b.toNat % 8
    if !(st.writesDone c.w) then .stall st
    else .ok { s := st.modWave c.w (fun v => { v with streams := Tab.set v.streams q (v.stream q).release }) }) s

/-- Claim the next tile of a stream where it is free (R281): the tile and the stream after it. -/
def Stream.claim (q : Stream) : Option (Nat × Stream) :=
  if q.nt != 0 && Tab.getD q.tiles q.claimNext .free == .free then
    some (q.claimNext, { q with tiles := Tab.set q.tiles q.claimNext .claimed, claimNext := (q.claimNext + 1) % q.nt })
  else none

/-! ## The copy block (R270-R273, R447) -/

/-- Field failures of a copy block (log 26). -/
def copyFields (b : BitVec 512) : List CmdErr :=
  let e := cpEsz b
  let f := Fmt.ofCode (blk b 37 32)
  let fmtOk := match f with | some g => slotKS g != 0 | none => false
  let slotAddr := fun (hi lo : Nat) => blk b (lo + 15) (lo + 15) != 0 || blk b hi (lo + 20) != 0
  let skew := fun (n hi lo : Nat) => badField (n > 1 && (stride b hi lo) % (e : Int) != 0) hi lo
  badField (blk b 8 6 > 4) 8 6
  ++ badField (cpPush b && cpDslot b) 11 11
  ++ badField (cpColl b && blk b 20 16 > blk b 25 21) 20 16
  ++ reservedFields b [(31, 26), (39, 38), (47, 43), (127, 112), (191, 176), (255, 240), (447, 432)]
  ++ badField (cpDslot b && !fmtOk) 37 32
  ++ badField (blk b 42 40 > 4) 42 40
  ++ badField (blk b 55 48 != 0 && !cpDslot b) 55 48
  ++ badField (blk b 111 64 % e != 0 || (cpSslot b && slotAddr 111 64)) 111 64
  ++ badField (!cpPush b && (blk b 175 128 % e != 0 || (cpDslot b && slotAddr 175 128))) 175 128
  ++ badField (blk b 207 192 == 0) 207 192 ++ badField (blk b 223 208 == 0) 223 208 ++ badField (blk b 239 224 == 0) 239 224
  ++ skew (blk b 223 208) 287 256 ++ skew (blk b 239 224) 319 288 ++ skew (blk b 223 208) 351 320 ++ skew (blk b 239 224) 383 352
  ++ badField (cpSig b && blk b 431 384 % (if blk b 10 10 = 1 then 8 else 4) != 0) 431 384

/-- The least and the greatest-plus-one offset that the shape reaches at its destination (R281). -/
def dstSpan (b : BitVec 512) : Int × Int :=
  let dy : Int := ((blk b 223 208 : Nat) - 1 : Int) * stride b 351 320
  let dz : Int := ((blk b 239 224 : Nat) - 1 : Int) * stride b 383 352
  (min 0 dy + min 0 dz, max 0 dy + max 0 dz + ((blk b 207 192 * cpEsz b : Nat) : Int))

/-! ## cp.issue (R268, R269, R275) -/

/-- A copy command with the storage and the scratchpads it names (R245, R273, R459). -/
def copyCmd (s : State) (c : Ctx) (b : BitVec 512) : Cmd :=
  let k := s.crew? c.v.crew
  let own := (k.map (·.slots)).getD []
  let src := if cpSslot b then pickStore own [srcSlot b] else []
  let dst := if cpDslot b && blk b 55 48 == 0 then pickStore own [dstSlot b] else []
  let far := if cpDslot b then
      (cpMask b).filterMap (fun p => ((s.gangOf c.v.crew).bind (fun g => Tab.get? g.2.crews p)).bind (fun id =>
        ((s.crew? id).bind (fun x => Tab.get? x.slots (dstSlot b))).map (fun st => (16 * (p + 1) + dstSlot b, st))))
    else []
  { by_ := issuerOf s c, op := .copy b, crew := c.v.crew, slots := (src ++ dst ++ far).eraseDups
    dst := if cpDslot b || cpPush b then none else s.farOf c.v (blk b 175 128)
    sig := if cpSig b then s.farOf c.v (blk b 431 384) else none }

/-- A slice that disagrees with its collective (R275, R447). -/
def sliceBad (k : Crew) (b : BitVec 512) (q : Nat) : Option CmdErr :=
  let i := blk b 20 16
  if i > blk b 25 21 then some { code := 1, val := fieldMask 20 16 }
  else if cpPush b then some { code := 5, val := fieldMask 11 11 }
  else match Tab.get? k.staging (blk b 63 56) with
    | some (q0, n, l) =>
      if q0 != q || n != blk b 25 21 + 1 then some { code := 5, val := fieldMask 25 21 }
      else if l.any (fun e => e.1 == i) then some { code := 5, val := fieldMask 20 16 } else none
    | none => if k.staging.length ≥ 8 then some { code := 5, val := fieldMask 63 56 } else none

/-- A counted command enters its queue, or the crew's staging; a whole collective enters as one (R269, R275). -/
def enqueueCopy (c : Ctx) (q : Nat) (b : BitVec 512) (s : State) : State :=
  let core := s.coreOf c.v
  let x := copyCmd s c b
  if !cpColl b then s.enqueueCmd core q { cmds := [x] }
  else match s.crew? c.v.crew with
    | none => s
    | some k => match sliceBad k b q with
      | some e => (s.cmdError x e q false).fallTok x.by_ x.op.tok true false false
      | none =>
        let tag := blk b 63 56
        let n := blk b 25 21 + 1
        let l := (match Tab.get? k.staging tag with | some (_, _, l) => l | none => []) ++ [(blk b 20 16, x)]
        if l.length < n then s.setCrew c.v.crew { k with staging := Tab.set k.staging tag (q, n, l) }
        else
          let cmds := (List.range n).filterMap (fun i => (l.find? (fun e => e.1 == i)).map (·.2))
          (s.setCrew c.v.crew { k with staging := Tab.del k.staging tag }).enqueueCmd core q { cmds := cmds }

/-- R269: ready while the queue has a free entry and the token counts fewer than 255 commands (R268). -/
def execCpIssue (f : GR) (s : State) : Host.Outcome State Fault Refusal :=
  issue (.cpIssue f) (fun c st =>
    let q := f.b.toNat % 2
    if (st.queue (st.coreOf c.v) q).length ≥ 32 then .stall st
    else withBlock c f st (fun b => (CmdOp.copy b).tok) (enqueueCopy c q)) s

/-! ## Starting (R268, R281, R447) -/

/-- The checks of one command before it starts. -/
def State.copyCheck (s : State) (x : Cmd) (b : BitVec 512) (tile : Option Nat) (tsize : Nat) : Option CmdErr :=
  match (copyFields b).head? with
  | some e => some e
  | none =>
    let multi := blk b 55 48 != 0
    let here := match s.gangOf x.by_.crew with
      | some (_, g) => g.formed && (cpMask b).all (fun p => (Tab.get? g.crews p).isSome)
      | none => false
    if (cpSslot b && (Tab.get? x.slots (srcSlot b)).isNone) || (cpDslot b && !multi && (Tab.get? x.slots (dstSlot b)).isNone)
        || (multi && here && (cpMask b).any (fun p => (Tab.get? x.slots (16 * (p + 1) + dstSlot b)).isNone)) then some { code := 2 }
    else if multi && !here then some { code := 4, val := fieldMask 55 48 }
    else if tile.isSome && (decide ((dstSpan b).1 < 0) || decide ((dstSpan b).2 > (tsize : Int))) then some { code := 0x0A }
    else none

/-- The first of an entry's commands that fails its checks. -/
def State.entryCheck (s : State) (e : Entry) (tsize : Nat) : Option CmdErr :=
  ((e.cmds.zip (List.range e.cmds.length)).findSome? (fun p =>
    (s.copyCheck p.1 (copyBlock p.1) (e.tile.map (·.1)) tsize).map (fun r => { r with ix := p.2 })))

/-- The tile claim of a pushing command (R281): none while its tile is not free. -/
def State.claimTile (s : State) (e : Entry) : Option (Entry × Nat × State) :=
  match e.cmds with
  | [x] =>
    if cpPush (copyBlock x) then
      match s.issuerWave x.by_ with
      | none => none
      | some v =>
        let q := blk (copyBlock x) 14 12
        ((v.stream q).claim).map (fun t =>
          ({ e with tile := some (t.1, t.2.gen, scratchBase + t.2.base + t.1 * t.2.tsize) }, t.2.tsize, s.modWave x.by_.wave (fun v => { v with streams := Tab.set v.streams q t.2 })))
    else some (e, 0, s)
  | _ => some (e, 0, s)

/-- R268: the command at the head of a copy queue starts. -/
def execCopyCommandStart (core q : Nat) (s : State) : Host.Outcome State Fault Refusal :=
  match s.queue core q with
  | e :: _ =>
    if !e.isCopy || e.phase != 0 || !s.engineRuns core then .next s
    else match s.claimTile e with
      | none => .next s
      | some (e1, ts, s1) =>
        let (num, s2) := s1.takeNum
        .next (s2.setHead core q { e1 with phase := 1, err := s2.entryCheck e1 ts, num := num })
  | [] => .next s

/-! ## Completion (R274-R276, R281, R448) -/

/-- F advances over filled tiles in claim order (R281). -/
def Stream.advance (q : Stream) : Nat → Stream
  | 0 => q
  | n + 1 => if Tab.getD q.tiles q.fillNext .free == .filled then ({ q with fillNext := (q.fillNext + 1) % q.nt } : Stream).advance n else q

/-- A tile becomes filled by a command that names a token or none (R281, R283). -/
def Stream.fill (q : Stream) (t : Nat) (tok : Option (Nat × Nat)) : Stream :=
  ({ q with
     tiles := Tab.set q.tiles t .filled
     fills := match tok with | some k => Tab.set q.fills t k | none => Tab.del q.fills t } : Stream).advance q.nt

/-- The tile of a pushing command becomes filled unless its stream has been bound anew (R281, R282, R448). -/
def State.fillTile (s : State) (e : Entry) : State :=
  match e.tile, e.cmds with
  | some (t, g, _), x :: _ =>
    (match s.issuerWave x.by_ with
     | none => s
     | some v =>
       let q := blk (copyBlock x) 14 12
       if (v.stream q).gen != g then s
       else (s.modWave x.by_.wave (fun v => { v with streams := Tab.set v.streams q ((v.stream q).fill t x.op.tok) })).recheck x.by_.wave)
  | _, _ => s

/-- The command leaves its queue: record, tile, tokens (R276, R448, R449). -/
def State.endCopy (s : State) (core q : Nat) (e : Entry) : State :=
  let s1 := match e.err with
    | some r => (match e.cmds[r.ix]? with
      | some x => s.cmdError x r q e.wrote
      | none => s)
    | none => s
  let s2 := (s1.popHead core q).fillTile e
  e.cmds.foldl (fun s x => s.fallTok x.by_ x.op.tok e.err.isSome false false) s2

/-- What follows once the payload is performed: the signals, or the end. -/
def State.afterPayload (s : State) (core q : Nat) (e : Entry) : State :=
  if s.cmdWaits e.num then s
  else if e.err.isNone && e.cmds.any (fun x => cpSig (copyBlock x)) then s.setHead core q { e with phase := 3 }
  else s.endCopy core q e

/-- R271, R275: the payload is read and written; it is performed when none of its writes waits at a locked line. -/
def execCopyCommandPerformed (core q : Nat) (s : State) : Host.Outcome State Fault Refusal :=
  match s.queue core q with
  | e :: _ =>
    if !e.isCopy then .next s
    else if e.phase = 1 then
      (if e.err.isSome then .next (s.endCopy core q e)
       else let (s1, e1) := s.moveEntry e
            .next ((s1.setHead core q e1).afterPayload core q e1))
    else if e.phase = 2 then .next (s.afterPayload core q e)
    else .next s
  | [] => .next s

/-- Write the signal word of one command (R274). -/
def State.signal (s : State) (x : Cmd) (num : Nat) : Option CmdErr × State :=
  let b := copyBlock x
  if !cpSig b then (none, s)
  else
    let n := if blk b 10 10 = 1 then 8 else 4
    let a := blk b 431 384
    match s.engRes x true n n a x.sig with
    | (.error e, s1) => (some e, s1)
    | (.ok t, s1) =>
      let (e, s2) := s1.engWrite x num t a n (blk b 511 448 % 2 ^ (8 * n)) false
      (e, match t, e with
        | .glob p, none => s2.poisonAfter ((List.range n).map (fun i => (p.key + i, false)))
        | _, _ => s2)

/-- R274: each signal word is written after the whole payload. -/
def execCopySignalWrite (core q : Nat) (s : State) : Host.Outcome State Fault Refusal :=
  match s.queue core q with
  | e :: _ =>
    if !e.isCopy then .next s
    else if e.phase = 3 then
      let r := (e.cmds.zip (List.range e.cmds.length)).foldl (fun (a : Option CmdErr × State) p =>
        if a.1.isSome then a
        else match a.2.signal p.1 e.num with
          | (some x, s1) => (some { x with ix := p.2 }, s1)
          | (none, s1) => (none, s1)) (none, s)
      let e1 := { e with phase := 4, err := r.1 }
      .next (if r.2.cmdWaits e.num then r.2.setHead core q e1 else r.2.endCopy core q e1)
    else if e.phase = 4 && !s.cmdWaits e.num then .next (s.endCopy core q e)
    else .next s
  | [] => .next s

/-! ## What the engines would do by themselves (log 2) -/

/-- Events of a queue. -/
inductive QueueAct where
  | copyStart | copyDone | signal | mxStart | mxDone | drainStart | drainDone | zero
  deriving DecidableEq, Repr

/-- The next event of one queue of a core. -/
def State.queueTurn (s : State) (core q : Nat) : Option QueueAct :=
  match s.queue core q with
  | [] => none
  | e :: _ =>
    match e.cmds with
    | [] => none
    | x :: _ =>
      let start := fun (i : QueueAct) => if s.engineRuns core then some i else none
      match x.op with
      | .copy _ =>
        if e.phase = 0 then (if (s.claimTile e).isSome then start .copyStart else none)
        else if e.phase = 1 then some .copyDone
        else if s.cmdWaits e.num then none
        else if e.phase = 2 then some .copyDone else some .signal
      | .mx _ => if e.phase = 0 then start .mxStart else some .mxDone
      | .drain _ => if e.phase = 0 then start .drainStart else if s.cmdWaits e.num then none else some .drainDone
      | .zero _ => start .zero
      | _ => none

/-- The core and queue whose next event the engines would take. -/
def State.engineTurn (s : State) : Option (Nat × Nat) :=
  (Tab.keys s.cores).findSome? (fun c => ((List.range 3).find? (fun q => (s.queueTurn c q).isSome)).map (fun q => (c, q)))

/-- Take the next event of a queue. -/
def engineStep (core q : Nat) (s : State) : Host.Outcome State Fault Refusal :=
  match s.queueTurn core q with
  | none => .next s
  | some .copyStart => execCopyCommandStart core q s
  | some .copyDone => execCopyCommandPerformed core q s
  | some .signal => execCopySignalWrite core q s
  | some .mxStart => execMxOperationStart core s
  | some .mxDone => execMxOperationPerformed core s
  | some .drainStart => execDrainStart core s
  | some .drainDone => execDrainPerformed core s
  | some .zero => execMxZeroPerform core s

end Sys2Proof.Machine
end

