-- ==== Sys2Proof/Machine/Profile.lean ====
section
/-!
DEFINITION. Sys2Proof/Machine/Profile.lean: the debug block's registers, dbg.rd and dbg.wr, wave access, stop release, the sampler's records and
the snapshot blocks (spec/18_debug_and_profiling.md R362-R364, R369-R376, spec/22_execution_and_instruction_faults.md R417).
-/

namespace Sys2Proof.Machine

/-! ## Wave access (R371) -/

/-- The wave in a wave slot of a core. -/
def State.slotWave (s : State) (core slot : Nat) : Option (Nat × Wave) :=
  s.waves.find? (fun e => !e.2.dead && s.coreOf e.2 == core && s.isResident e.2 && e.2.wslot == slot)

/-- WDATA reaches a stopped wave and the handler's own. -/
def Wave.reachable (v : Wave) : Bool := v.stopped || v.dbg.isSome

/-- s60 to s63 of the handler are its saved values; any other register is the wave's. -/
def Wave.dbgSreg (v : Wave) (r : Nat) : W64 :=
  match v.dbg with
  | some d => if r = 60 then d.s60 else if r = 61 then d.s61 else if r = 62 then d.s62 else if r = 63 then d.s63 else v.sreg r
  | none => v.sreg r

def Wave.setDbgSreg (v : Wave) (r : Nat) (x : W64) : Wave :=
  match v.dbg with
  | some d =>
    if r = 60 then { v with dbg := some { d with s60 := x } }
    else if r = 61 then { v with dbg := some { d with s61 := x } }
    else if r = 62 then { v with dbg := some { d with s62 := x } }
    else if r = 63 then { v with dbg := some { d with s63 := x } }
    else v.setSreg r x
  | none => v.setSreg r x

/-- The PC of a lane: of the entering batch the return PC, of the batch of an open run the run's next PC (log 28). -/
def Wave.dbgPc (v : Wave) (lane : Nat) : BitVec 48 :=
  match v.dbg, v.run with
  | some d, _ => if d.mask.getLsbD lane then d.retPc else v.pcOf lane
  | none, some r => if r.mask.getLsbD lane then Tab.getD r.targets lane r.pc else v.pcOf lane
  | none, none => match v.resume with
    | some r => if r.mask.getLsbD lane then r.pc else v.pcOf lane
    | none => v.pcOf lane

def Wave.setDbgPc (v : Wave) (lane : Nat) (x : BitVec 48) : Wave :=
  match v.dbg, v.run with
  | some d, _ => if d.mask.getLsbD lane then { v with dbg := some { d with retPc := x } } else v.modFibre lane (fun f => { f with pc := x })
  | none, some r =>
    if r.mask.getLsbD lane then
      { v with run := some (if r.ended then { r with targets := Tab.set r.targets lane x } else { r with pc := x }) }
    else v.modFibre lane (fun f => { f with pc := x })
  | none, none => match v.resume with
    | some r =>
      if r.mask.getLsbD lane then { v with resume := some { r with pc := x } } else v.modFibre lane (fun f => { f with pc := x })
    | none => v.modFibre lane (fun f => { f with pc := x })

/-- The state that WSEL names. -/
def Wave.peek (v : Wave) (sel : Nat) : W64 :=
  let num := bits sel 15 8
  let lane := bits sel 21 16
  match bits sel 7 5 with
  | 0 => if num < 64 then v.dbgSreg num else 0
  | 1 => BitVec.ofNat 64 (v.row lane num).toNat
  | 2 => match v.fibre? lane with
    | some f => BitVec.ofNat 64 (f.preds.toNat / 2 * 2 + 1)
    | none => 0
  | 3 => if num < 12 then v.mask num else 0
  | 4 => BitVec.ofNat 64 (v.dbgPc lane).toNat
  | 5 => BitVec.ofNat 64 v.fpflags.toNat
  | _ => 0

/-- Write it. A lane without a fibre takes no write. -/
def Wave.poke (v : Wave) (sel : Nat) (x : W64) : Wave :=
  let num := bits sel 15 8
  let lane := bits sel 21 16
  match bits sel 7 5 with
  | 0 => if num < 64 then v.setDbgSreg num x else v
  | 1 => if (v.fibre? lane).isSome && num < v.nvregs then v.setRow lane num (BitVec.ofNat 32 x.toNat) else v
  | 2 => v.modFibre lane (fun f => { f with preds := BitVec.ofNat 8 (x.toNat / 2 * 2) })
  | 3 => if num < 12 then v.setMask num x else v
  | 4 => if (v.fibre? lane).isSome then v.setDbgPc lane (va (x.toNat / 4 * 4)) else v
  | 5 => { v with fpflags := BitVec.ofNat 5 x.toNat }
  | _ => v

/-- The reachable wave that WSEL of a core names. -/
def State.selected (s : State) (core : Nat) : Option (Nat × Wave) :=
  match s.slotWave core (bits (s.dreg core 0x38).toNat 4 0) with
  | some (w, v) => if v.reachable then some (w, v) else none
  | none => none

/-! ## The debug block (R362, R363) -/

/-- The bits of a debug register that a write changes; none of the read-only and unlisted ones. -/
def dbgMask (i : Nat) : Nat :=
  if i = 0 then 7
  else if i = 1 then 0xFFFFFFFFFFFD
  else if 0x08 ≤ i && i ≤ 0x0F then 0xFFFFFFFFFFFF
  else if 0x10 ≤ i && i ≤ 0x17 then 2 ^ 64 - 1
  else if 0x18 ≤ i && i ≤ 0x1F then 0xFFF
  else if 0x20 ≤ i && i ≤ 0x23 then 2 ^ 48 - 1
  else if 0x24 ≤ i && i ≤ 0x27 then 2 ^ 32 - 1
  else if i = 0x28 then 2 ^ 34 - 1
  else if i = 0x29 then 2 ^ 57 - 64
  else if i = 0x38 then 2 ^ 22 - 1
  else 0

/-- DBGCTL.RESUME: bit w releases the stopped wave in slot w (R363). -/
def State.resumeSlots (s : State) (core mask : Nat) : State :=
  if mask = 0 then s else s.releaseStop core (fun v => mask.testBit v.wslot)

/-- Write a debug register of a core. -/
def State.writeDbg (s : State) (core i : Nat) (x : W64) : State :=
  if i = 0x39 then
    (match s.selected core with
      | some (w, v) => s.setWave w (v.poke (s.dreg core 0x38).toNat x)
      | none => s)
  else if dbgMask i = 0 then s
  else
    let s1 := s.setDreg core i (BitVec.ofNat 64 (x.toNat &&& dbgMask i))
    if i = 0 then
      let s2 := if x.getLsbD 3 then s1.stopRel core else s1
      s2.resumeSlots core (bits x.toNat 63 32)
    else if i = 0x28 then s1.modCore core (fun k => { k with sampLeft := bits x.toNat 16 1 + 1 })
    else s1

/-- Read one. DBGSTAT and the STOPPED bits of SKID show the state. -/
def State.readDbg (s : State) (core i : Nat) : W64 :=
  if i = 2 then
    let h := s.waves.find? (fun e => e.2.dbg.isSome && s.coreOf e.2 == core)
    BitVec.ofNat 64 (packFields
      [(b2n (s.core core).stopped, 0, 1), (b2n h.isSome, 1, 1), ((h.map (·.2.wslot)).getD 0, 2, 5), (bits (s.dreg core 2).toNat 15 8, 8, 8)])
  else if i = 0x39 then
    (match s.selected core with
      | some (_, v) => v.peek (s.dreg core 0x38).toNat
      | none => 0)
  else if 0x40 ≤ i && i ≤ 0x5F then
    (match s.slotWave core (i - 0x40) with
      | some (_, v) => s.dreg core i ||| (if v.stopped then 0x100 else 0)
      | none => s.dreg core i)
  else s.dreg core i

/-! ## dbg.rd and dbg.wr (R364, R417) -/

/-- R364. -/
def execDbgRd (f : GR) (s : State) : Host.Outcome State Fault Refusal :=
  issue (.dbgRd f) (fun c st =>
    if c.v.dbg.isNone then .trap [{ cause := cMODE, sub := 1, lanes := maskOf c.lanes }]
    else uniOut f (st.readDbg (st.coreOf c.v) (bits (readA c f).toNat 7 0)) st) s

/-- R364: acts at issue. -/
def execDbgWr (f : GR) (s : State) : Host.Outcome State Fault Refusal :=
  issue (.dbgWr f) (fun c st =>
    if c.v.dbg.isNone then .trap [{ cause := cMODE, sub := 1, lanes := maskOf c.lanes }]
    else .ok { s := st.writeDbg (st.coreOf c.v) (bits (readA c f).toNat 7 0) (readB c f) }) s

/-! ## Writes of the debug block from outside (R347, R362) -/

/-- R373. -/
def execSampctlWrite (who core : Nat) (v : W64) (s : State) : Host.Outcome State Fault Refusal :=
  .next (if s.mayWrite who (coreDie core) .h then s.writeDbg core 0x28 v else s)

/-- R371; a read changes nothing. -/
def execWdataAccess (who core : Nat) (write : Bool) (v : W64) (s : State) : Host.Outcome State Fault Refusal :=
  .next (if write && s.mayWrite who (coreDie core) .h then s.writeDbg core 0x39 v else s)

/-- R363: the stop is released on every core of the cluster. -/
def execStoprel (who core : Nat) (s : State) : Host.Outcome State Fault Refusal :=
  .next (if s.mayWrite who (coreDie core) .h then s.stopRel core else s)

/-- R363: the waves in the named slots are released. -/
def execDbgctlResume (who core : Nat) (v : W32) (s : State) : Host.Outcome State Fault Refusal :=
  .next (if s.mayWrite who (coreDie core) .h then s.resumeSlots core v.toNat else s)

/-! ## Samples (R372, R373) -/

/-- R372: the record is stamped and written to the ring. -/
def execSampleRecordWrite (core : Nat) (rec_ : BitVec 512) (s : State) : Host.Outcome State Fault Refusal :=
  let d := coreDie core
  let (q, s1) := s.takeSeq d
  let base := (s.dreg core 0x29).toNat
  let n := (s.dreg core 0x2A).toNat
  let a := bits base 51 6 * 64 % 2 ^ 48 + 64 * (n % 2 ^ bits base 56 52)
  let r := rec_.toNat + packFields [(s.tickOf d, 288, 48), (q, 336, 16)]
  .next ((s1.pointWrite (fun s k b => s.dieWrite d k b) a (bytesOf r 64)).setDreg core 0x2A (BitVec.ofNat 64 (n + 1)))

/-! ## Snapshots (R374, R375) -/

/-- A directory entry as its word (R218). -/
def DirEntry.word (e : DirEntry) : Nat :=
  packFields [(e.sharers.toNat, 0, 8), (b2n e.host, 8, 1), (e.state.toNat, 9, 2), (e.owner.toNat, 11, 3), (b2n e.remote, 14, 1), (e.version.toNat, 16, 16)]

/-- SNAPWAVE's state and next PC of a wave. -/
def Wave.snapState (v : Wave) : Nat :=
  if v.dbg.isSome then 5
  else if v.stopped || v.suspended then 4
  else match v.run with
    | some r => if r.ended then 2 else 1
    | none => if v.resume.isSome || v.nextBatch.isSome then 1 else 3

def Wave.snapPc (v : Wave) : Nat :=
  (match v.run, v.resume, v.nextBatch, v.held with
    | some r, _, _, _ => r.pc
    | none, some r, _, _ => r.pc
    | none, none, some (_, pc), _ => pc
    | none, none, none, h :: _ => v.pcOf (lowLane h.lanes)
    | none, none, none, [] => 0#48).toNat

def State.snapWaves (s : State) (d : Nat) : Tab (W64 × W64) :=
  s.waves.filterMap (fun e =>
    if !e.2.dead && s.isResident e.2 && s.dieOf e.2 == d then
      some ((s.coreOf e.2 % 256) * 32 + e.2.wslot,
        (BitVec.ofNat 64 (packFields [(e.2.snapState, 0, 3), (e.2.snapPc / 4, 4, 46)]), BitVec.ofNat 64 (e.2.launch.toNat + e.2.block.toNat * 2 ^ 32)))
    else none)

/-- SNAPLOCK of a line. -/
def State.snapLock (s : State) (line : Nat) : Nat :=
  match Tab.get? s.locks line with
  | none => 0
  | some l =>
    packFields [(b2n l.holder.isSome, 0, 1), (l.queue.length, 1, 12), ((((l.holder.bind s.wave?).map (·.launch.toNat))).getD 0, 32, 32)]

/-- R375: a die that holds counts the miss; else it latches its block. The stamp's sequence number has no place in the block (R376, log 29). -/
def execSnapshotLatch (die : Nat) (s : State) : Host.Outcome State Fault Refusal :=
  if (s.die die).snap.held then .next (s.modDie die (fun x => { x with snap := { x.snap with miss := (x.snap.miss + 1) % 256 } }))
  else
    let line := lineOf (s.reg die 0x180018 % 2 ^ 48)
    let n : Snap :=
      { held := true, tick := s.tickOf die % 2 ^ 48, dir := BitVec.ofNat 64 (s.dirOf line).word, lock := BitVec.ofNat 64 (s.snapLock line), waves := s.snapWaves die }
    .next ((s.takeSeq die).2.modDie die (fun x => { x with snap := { n with miss := x.snap.miss } }))

/-- The common trigger reaches all eight dies (R375). -/
def State.pullSnap (s : State) : State := s.send ((List.range 8).map Instr.snapshotLatch)

/-- R374. -/
def execSnapgo (who die : Nat) (s : State) : Host.Outcome State Fault Refusal := .next (if s.mayWrite who die .h then s.pullSnap else s)
/-- R374: the latched values are freed. -/
def execSnapclr (who die : Nat) (s : State) : Host.Outcome State Fault Refusal :=
  .next (if s.mayWrite who die .h then s.modDie die (fun x => { x with snap := {} }) else s)
/-- R359, R375. -/
def execSnaptrig (s : State) : Host.Outcome State Fault Refusal := .next s.pullSnap

/-- What the snapshot block reads, by offset from 0x18_0000. -/
def State.readSnap (s : State) (d off : Nat) : W64 :=
  let x := (s.die d).snap
  if off = 0x10 then BitVec.ofNat 64 (packFields [(b2n x.held, 0, 1), (x.tick, 1, 48), (x.miss, 56, 8)])
  else if off = 0x18 then BitVec.ofNat 64 (s.reg d 0x180018)
  else if off = 0x20 then x.dir
  else if off = 0x28 then x.lock
  else if 0x4000 ≤ off then
    let e := Tab.getD x.waves ((off - 0x4000) / 16) (0, 0)
    if off % 16 = 0 then e.1 else if off % 16 = 8 then e.2 else 0
  else 0

end Sys2Proof.Machine
end

