-- ==== Sys2Proof/Machine/Contain.lean ====
section
/-!
DEFINITION. Sys2Proof/Machine/Contain.lean: containment of clusters and dies, and the machine checks that cause it
(spec/21_fault_architecture.md R401-R404, spec/23_memory_lock_plane_and_engine_faults.md R445, R451,
spec/24_kernel_scheduler_host_and_ras_faults.md R475-R481).
-/

namespace Sys2Proof.Machine

def cPROTOCOL : Nat := 0x68
def cLINKDOWN : Nat := 0x66
def cLOCKSTEP : Nat := 0x65
def cSRAMUE : Nat := 0x63

/-- The crews on cores that a test selects, resident or on their way in or out. -/
def State.crewsOn (s : State) (sel : Nat → Bool) : List (Nat × Crew) := s.crews.filter (fun e => sel e.2.core && e.2.place.onCore)

/-- The processes of waves on cores that a test selects. -/
def State.procsOn (s : State) (sel : Nat → Bool) : List Nat :=
  ((s.waves.filter (fun e => !e.2.dead && sel (s.coreOf e.2))).map (·.2.proc)).eraseDups

/-- The cores halt: every crew there is suspended, its context saved to the cave, with its commands that have not started (R403, R404). -/
def State.haltCores (s : State) (sel : Nat → Bool) : State :=
  (s.crewsOn sel).foldl (fun s e =>
    (((s.saveCmds e.1).modCrew e.1 (fun k => { k with place := .cave, preempt := none, part := false, moveTo := none })).suspendWhere
      (fun v => v.crew == e.1)).claimsChanged) s

/-- Cluster containment (R403); the cluster is named by its number in the die. -/
def State.containCluster (s : State) (d cl : Nat) : State :=
  (s.modDie d (fun x => { x with clusters := insertSet x.clusters cl })).haltCores (fun c => c / 16 == d * 16 + cl)

/-- Waves of crews on a die. -/
def State.wavesOn (s : State) (d : Nat) : List (Nat × Wave) := s.waves.filter (fun e => !e.2.dead && s.dieOf e.2 == d)

/-- Locks of a contained or lost die's waves break with REASON 3 (R445, R478). -/
def State.breakDie (s : State) (d : Nat) : State :=
  (s.wavesOn d).foldl (fun s e => (s.breakAll e.1 e.2 3).modWave e.1 (fun v => { v with heldLocks := [] })) s

/-- Die containment (R403). -/
def State.containDie (s : State) (d : Nat) : State :=
  ((s.modDie d (fun x => { x with contained := true })).breakDie d).haltCores (fun c => coreDie c == d)

/-- A machine check with die containment: the record goes to the ring and to every process of the die (R401, R402). -/
def State.dieCheck (s : State) (d : Nat) (r : RecInfo) : State :=
  let ps := s.procsOn (fun c => coreDie c == d)
  (s.machineCheckTo d { r with cls := 2, scope := scDIE, susp := true } ps).containDie d

/-- PROTOCOL: an impossible coherence message or state; the line's sectors are poisoned (R451). -/
def State.protocol (s : State) (d : Nat) (line : Option Nat) : State :=
  let s1 := match line with
    | some l => s.poisonLine l
    | none => s
  s1.dieCheck d { cause := cPROTOCOL, cls := 2, val := (line.getD 0) * 128 }

/-- BOOTSTAT.ERR of a die (R353, R480). -/
def State.setErr (s : State) (d code : Nat) : State := s.setReg d 0x08 (mergeBits (s.reg d 0x08) (code * 2 ^ 16) 0xFF0000)

/-! ## Ends of containment (R469, R475, R481) -/

/-- CONTCLR: bits [15:0] clusters, [16] the die, [17] the distributor, [18] the service pair. Suspended waves stay suspended. The pending command
of the window is performed, and the distributor's events are taken again (log 31). -/
def State.contClear (s : State) (d v : Nat) : State :=
  let s1 := s.modDie d (fun x =>
    { x with
      clusters := x.clusters.filter (fun c => !v.testBit c)
      contained := x.contained && !v.testBit 16
      dist := { x.dist with halted := x.dist.halted && !v.testBit 17 }
      svcStopped := x.svcStopped && !v.testBit 18
      cmdHeld := x.cmdHeld && !v.testBit 16 })
  if v.testBit 16 && (s.die d).cmdHeld then s1.runCommand d (bits (s.reg d 0x3000) 7 0) else s1

/-- R469. -/
def execContclr (who die : Nat) (v : W64) (s : State) : Host.Outcome State Fault Refusal :=
  .next (if s.mayWrite who die .s then s.contClear die v.toNat else s)

end Sys2Proof.Machine
end

