-- ==== Sys2Proof/Machine/Coherence.lean ====
section
/-!
DEFINITION. Sys2Proof/Machine/Coherence.lean: the requests of the RDCs, recalls and write-backs, host accesses, and pages held by other packages
(spec/10_coherence_across_dies_and_devices.md R218-R226, spec/23_memory_lock_plane_and_engine_faults.md R451, R452).
-/

namespace Sys2Proof.Machine

/-! ## Requests at the home (R219, R220, R225) -/

/-- A die may ask for a line: it is homed elsewhere, not locked, not another package's page to read, and the die keeps no write-back of it (R220). -/
def State.mayAsk (s : State) (d line : Nat) : Bool :=
  tracked (line * 128) && lineDie line != d && d < 8 && (s.lockOf (line * 128)).isNone && (Tab.get? s.wbBuf (rdcKey d line)).isNone

/-- The state of an entry is impossible: STATE 3, or an owner that has neither a copy nor a write-back (R451). -/
def State.dirBad (s : State) (line : Nat) : Bool :=
  let e := s.dirOf line
  e.state == 3#2 || (e.state == 2#2 && (Tab.get? s.rdc (rdcKey e.owner.toNat line)).isNone && (Tab.get? s.wbBuf (rdcKey e.owner.toNat line)).isNone)

/-- A snoop of the line is under way at its home (R225). -/
def State.snooping (s : State) (line : Nat) : Bool :=
  s.inflight.any (fun m => match m with | .bisnpResponse l => l == line | _ => false)

/-- A request waits at the home behind the one in progress (R219). -/
def State.homeWait (s : State) (die line : Nat) (own : Bool) : State :=
  { s with homeQ := Tab.modD s.homeQ line [] (fun q => q ++ [(die, own)]) }

/-- R219. -/
def execReadShared (die line : Nat) (s : State) : Host.Outcome State Fault Refusal :=
  if !s.mayAsk die line || (Tab.get? s.rdc (rdcKey die line)).isSome then .next s
  else if s.snooping line then .next (s.homeWait die line false)
  else if s.dirBad line then .next (s.protocol (lineDie line) (some line))
  else
    let s1 := s.pageTouch (line / 32) false
    .next (if s1.pageShared (line / 32) then s1 else s1.readShared die line)

/-- Ownership for a die; a line that a host holds is snooped first, and the request waits for the response (R225). -/
def State.askOwn (s : State) (die line : Nat) : State :=
  if !s.mayAsk die line then s
  else if s.snooping line then s.homeWait die line true
  else if s.dirBad line then s.protocol (lineDie line) (some line)
  else
    let s1 := s.pageTouch (line / 32) true
    if (s1.dirOf line).host then (s1.homeWait die line true).send [.bisnpResponse line] else s1.readOwn die line

/-- R219. -/
def execReadForOwnership (die line : Nat) (s : State) : Host.Outcome State Fault Refusal :=
  .next (s.askOwn die line)
/-- R219: with the requester's bit clear it is a read-for-ownership, with data. -/
def execUpgrade (die line : Nat) (s : State) : Host.Outcome State Fault Refusal :=
  .next (s.askOwn die line)

/-- R219, R220: a die evicts a line, or the write-back that it keeps arrives at the home. An evicted shared line goes silently: its SHARERS
bit stays (log 79). -/
def execWriteBack (die line : Nat) (s : State) : Host.Outcome State Fault Refusal :=
  match Tab.get? s.wbBuf (rdcKey die line) with
  | none => .next (s.rdcEvict die line)
  | some r =>
    if (s.dirOf line).state = 3#2 then .next (s.protocol (lineDie line) (some line))
    else .next ((s.acceptWb die line r).send [.writeBackAck die line])

/-- R220: the buffer is free; an acknowledgement of nothing is PROTOCOL (R451). -/
def execWriteBackAck (die line : Nat) (s : State) : Host.Outcome State Fault Refusal :=
  match Tab.get? s.wbBuf (rdcKey die line) with
  | some _ => .next { s with wbBuf := Tab.del s.wbBuf (rdcKey die line) }
  | none => .next (s.protocol die none)

/-- R220: the owner answers from its RDC or its write-back buffer; with neither, PROTOCOL (R451). -/
def execRecall (line : Nat) (s : State) : Host.Outcome State Fault Refusal :=
  if s.dirBad line then .next (s.protocol (if (s.dirOf line).state = 2#2 then (s.dirOf line).owner.toNat else lineDie line) (some line))
  else .next (s.homeRecall line false)

/-- R225: the host holds the line no longer; a response to no snoop is PROTOCOL (R451). -/
def execBisnpResponse (line : Nat) (s : State) : Host.Outcome State Fault Refusal :=
  if (s.dirOf line).host then .next (s.hostGone line) else .next (s.protocol (lineDie line) (some line))

/-- The port of a line of host memory runs in CXL mode and is up (R345). -/
def State.cxlLine (s : State) (line : Nat) : Bool :=
  let k := line * 128
  let port := bits k 47 47
  !keyRemote k && keyKind k == 1 && s.cxl.contains port && !s.host.down.contains port

/-- R225: a host's snoop of a line of its memory is answered from the RDC; a port in CXL mode only. -/
def execHostSnoop (die line : Nat) (s : State) : Host.Outcome State Fault Refusal :=
  match (if s.cxlLine line then Tab.get? s.rdc (rdcKey die line) else none) with
  | some r => .next { (s.applyBytes r.dirty) with rdc := Tab.del s.rdc (rdcKey die line) }
  | none => .next s

/-! ## Hosts (R225, R226, R241, R437, R457) -/

/-- The lines that a range of bytes touches. -/
def linesIn (a n : Nat) : List Nat := (List.range ((n + 127) / 128 + 1)).filterMap (fun i => if (lineOf a + i) * 128 < a + n then some (lineOf a + i) else none)

/-- A host port serves memory once some die has passed (R354). -/
def State.portServes (s : State) : Bool := (List.range 8).any s.passed

/-- A host read at the home L2; a locked line gives the home copy. -/
def State.hostRead (s : State) (addr n : Nat) (marks : Bool) : State :=
  (linesIn (addr % 2 ^ 40) n).foldl (fun s l =>
    let s1 := s.homeRecall l false
    if marks then s1.setDir l { s1.dirOf l with host := true } else s1) s

/-- Bytes cut at 16-byte granules. -/
def granules (a : Nat) : List Byte → Nat → List (Nat × List Byte)
  | [], _ => []
  | _, 0 => []
  | bs, n + 1 => let k := 16 - a % 16; (a, bs.take k) :: granules (a + k) (bs.drop k) n

/-- The writer of held writes that come from outside the package's waves. -/
def outsideTag : Nat := 2 ^ 50

/-- A write of an agent outside at the home L2: refused ranges drop it, a locked line holds it until its release. -/
def State.outsideWrite (s : State) (a : Nat) (bs : List Byte) : State :=
  let gs := granules a bs (bs.length + 1)
  let s1 := gs.foldl (fun s g =>
    if (s.writeRefusal g.1 g.2.length).isSome then s
    else if (s.lockOf g.1).isSome then s.modLock (lineOf g.1) (fun l => { l with writes := l.writes ++ [{ wave := outsideTag, key := g.1, bytes := g.2 }] })
    else (s.futClear g.1 g.2.length).pointWrite (fun s k b => s.homeWrite k b) g.1 g.2) s
  s1.poisonAfter ((gs.filter (fun g => (s.writeRefusal g.1 g.2.length).isNone)).flatMap (fun g => (List.range g.2.length).map (fun i => (g.1 + i, false))))

/-- An atomic of an agent outside at the home L2. -/
def State.outsideAtomic (s : State) (a op size b cmp : Nat) : State :=
  if (s.writeRefusal a size).isSome || s.poisoned a size then s
  else if (s.lockOf a).isSome then
    s.modLock (lineOf a) (fun l => { l with writes := l.writes ++ [{ wave := outsideTag, key := a, atom := some { op := op, size := size, b := b, cmp := cmp } }] })
  else
    let (m, s1) := (s.futClear a size).pointRead (fun s k => s.homeRead k) a size
    s1.pointWrite (fun s k x => s.homeWrite k x) a (bytesOf (atomNew op size m b cmp) size)

/-- A port in CXL mode is up (R345). -/
def State.cxlUp (s : State) : Bool := s.cxl.any (fun p => !s.host.down.contains p)

/-- R225: HOST is set; a port in CXL mode only (R345). -/
def execHostCxlMemRead (addr n : Nat) (s : State) : Host.Outcome State Fault Refusal :=
  .next (if !s.cxlUp || !s.portServes then s else s.hostRead addr n true)
/-- R225. -/
def execHostCxlMemWrite (addr : Nat) (bytes : List Byte) (s : State) : Host.Outcome State Fault Refusal :=
  .next (if !s.cxlUp || !s.portServes then s else s.outsideWrite (addr % 2 ^ 40) bytes)
/-- R226: HOST is not set. -/
def execHostBar2Read (port addr n : Nat) (s : State) : Host.Outcome State Fault Refusal :=
  .next (if s.host.down.contains port || !s.portServes then s else s.hostRead addr n false)
/-- R226. -/
def execHostBar2Write (port addr : Nat) (bytes : List Byte) (s : State) : Host.Outcome State Fault Refusal :=
  .next (if s.host.down.contains port || !s.portServes then s else s.outsideWrite (addr % 2 ^ 40) bytes)
/-- R226, R345: FetchAdd and Swap of 4 and 8 bytes, CAS of 4, 8 and 16, aligned. -/
def execHostAtomicop (port addr op size b cmp : Nat) (s : State) : Host.Outcome State Fault Refusal :=
  let ok := ((op == 0 || op == 8) && (size == 4 || size == 8) || op == 10 && (size == 4 || size == 8 || size == 16)) && addr % size == 0
  .next (if s.host.down.contains port || !s.portServes || !ok then s else s.outsideAtomic (addr % 2 ^ 40) op size b cmp)

/-! ## Pages held by other packages (R221-R224, R452) -/

/-- A message of a package about a page from which it was removed is dropped (R452). -/
def State.pageDrops (s : State) (g node : Nat) : Bool := (s.page g).gone.contains node

/-- The window of a pinned page has ended (R224). -/
def State.pinOver (s : State) (g : Nat) : Bool :=
  let p := s.page g
  p.pinned && decide (s.tickOf (keyDie (g * 4096)) ≥ p.windowStart + s.pcWindow g)

/-- R224: at the end of a window with fewer than THRESH remote operations the pin is lifted, else the next window begins. -/
def State.pinEnd (s : State) (g : Nat) : State :=
  let now := s.tickOf (keyDie (g * 4096))
  let few := decide ((s.page g).ops < s.pcThresh g)
  if s.pinOver g then
    s.modPage g (fun p => { p with pinned := !few, transfers := if few then 0 else p.transfers, windowStart := now, ops := 0 })
  else s

/-- Another package reaches a pinned page: an uncached remote operation (R224). -/
def State.pinOp (s : State) (g : Nat) : State := s.modPage g (fun p => { p with ops := p.ops + 1 })

/-- R222: a remote read. -/
def execRemotePageRead (node key : Nat) (s0 : State) : Host.Outcome State Fault Refusal :=
  let g := pageOf (key % 2 ^ 40)
  let s := s0.pinEnd g
  if s.pageDrops g node || (s.page g).excl == some node then .next s
  else if (s.page g).pinned then .next ((s.pinOp g).homeRead (key % 2 ^ 40)).2
  else
    let s1 := s.pageTouch g false
    if (s1.page g).pinned then .next s1
    else if (s1.page g).readers.contains node then .next s1
    else if (s1.page g).readers.length ≥ 8 then .next s1
    else
      let s2 := if s1.pageShared g then s1 else s1.leaveHome g
      .next (s2.modPage g (fun p => { p with readers := p.readers ++ [node] }))

/-- R222: a remote write takes the page exclusively; on a pinned page, and where it pins the page itself, it is performed at the home
(R224). -/
def execRemotePageWrite (node key : Nat) (bytes : List Byte) (s0 : State) : Host.Outcome State Fault Refusal :=
  let g := pageOf (key % 2 ^ 40)
  let s := s0.pinEnd g
  if s.pageDrops g node || (s.page g).excl == some node then .next s
  else
    let s1 := if (s.page g).excl.isSome then s.pageTouch g true else s
    let s2 := if (s1.page g).pinned then s1 else s1.pageExcl g node
    .next (if (s2.page g).pinned then (s2.pinOp g).outsideWrite (key % 2 ^ 40) bytes else s2)

/-- R222: an atomic of another package is performed at the home L2. -/
def execRemotePageAtomic (node key op size b cmp : Nat) (s0 : State) : Host.Outcome State Fault Refusal :=
  let g := pageOf (key % 2 ^ 40)
  let s := s0.pinEnd g
  if s.pageDrops g node then .next s
  else
    let s1 := if (s.page g).pinned then s.pinOp g else s.pageTouch g true
    .next (s1.outsideAtomic (key % 2 ^ 40) op size b cmp)

/-- R222: the home of another package's page takes it back: this package's RDC copies are written back and invalidated. -/
def execPageInvalidate (node page : Nat) (s : State) : Host.Outcome State Fault Refusal :=
  .next (s.farBack (fun l => l / 32 == keyOf (some node) (page * 4096) / 4096))

/-- R224. -/
def execPagePinWindowEnd (page : Nat) (s : State) : Host.Outcome State Fault Refusal := .next (s.pinEnd page)

/-- R452: the package that does not answer is removed, the page is pinned home, and the lost lines of an exclusive holder are poisoned. -/
def execPageInvalTimeout (node page : Nat) (s : State) : Host.Outcome State Fault Refusal :=
  let p := s.page page
  if p.excl != some node && !p.readers.contains node then .next s
  else
    let d := keyDie (page * 4096)
    let s1 := if p.excl == some node then (List.range 32).foldl (fun s i => s.poisonLine (page * 32 + i)) s else s
    let s2 := (s1.pageHome page).modPage page (fun p =>
      { p with pinned := true, windowStart := s.tickOf d, ops := 0, gone := insertSet p.gone node })
    .next (s2.machineCheck d { cause := cACKLOST, cls := 2, scope := scNONE, detail := node })

end Sys2Proof.Machine
end

