-- ==== Sys2Proof/Machine/Sha.lean ====
section
/-!
DEFINITION. Sys2Proof/Machine/Sha.lean: SHA-256, the digest of measurements and quotes (spec/17_external_interfaces_and_bringup.md R357).
-/

namespace Sys2Proof.Machine

/-- The round constants: the first 32 bits of the fractional parts of the cube roots of the first 64 primes. -/
def shaK : List W32 :=
  [0x428A2F98, 0x71374491, 0xB5C0FBCF, 0xE9B5DBA5, 0x3956C25B, 0x59F111F1, 0x923F82A4, 0xAB1C5ED5,
   0xD807AA98, 0x12835B01, 0x243185BE, 0x550C7DC3, 0x72BE5D74, 0x80DEB1FE, 0x9BDC06A7, 0xC19BF174,
   0xE49B69C1, 0xEFBE4786, 0x0FC19DC6, 0x240CA1CC, 0x2DE92C6F, 0x4A7484AA, 0x5CB0A9DC, 0x76F988DA,
   0x983E5152, 0xA831C66D, 0xB00327C8, 0xBF597FC7, 0xC6E00BF3, 0xD5A79147, 0x06CA6351, 0x14292967,
   0x27B70A85, 0x2E1B2138, 0x4D2C6DFC, 0x53380D13, 0x650A7354, 0x766A0ABB, 0x81C2C92E, 0x92722C85,
   0xA2BFE8A1, 0xA81A664B, 0xC24B8B70, 0xC76C51A3, 0xD192E819, 0xD6990624, 0xF40E3585, 0x106AA070,
   0x19A4C116, 0x1E376C08, 0x2748774C, 0x34B0BCB5, 0x391C0CB3, 0x4ED8AA4A, 0x5B9CCA4F, 0x682E6FF3,
   0x748F82EE, 0x78A5636F, 0x84C87814, 0x8CC70208, 0x90BEFFFA, 0xA4506CEB, 0xBEF9A3F7, 0xC67178F2]

/-- The initial words: the same of the square roots of the first eight primes. -/
def shaH : List W32 := [0x6A09E667, 0xBB67AE85, 0x3C6EF372, 0xA54FF53A, 0x510E527F, 0x9B05688C, 0x1F83D9AB, 0x5BE0CD19]

def rotr (x : W32) (n : Nat) : W32 := x.rotateRight n

/-- A big-endian word of four bytes. -/
def beWord : List Byte → W32
  | [a, b, c, d] => a ++ b ++ c ++ d
  | _ => 0

/-- The message padded to whole blocks of 64 bytes. -/
def shaPad (m : List Byte) : List Byte :=
  let n := m.length
  m ++ [0x80] ++ List.replicate ((119 - n % 64) % 64) 0 ++ (bytesOf (8 * n) 8).reverse

/-- The message schedule, newest word first. -/
def shaSchedule (w : List W32) : Nat → List W32
  | 0 => w
  | n + 1 =>
    let x15 := w.getD 14 0
    let x2 := w.getD 1 0
    let s0 := rotr x15 7 ^^^ rotr x15 18 ^^^ (x15 >>> 3)
    let s1 := rotr x2 17 ^^^ rotr x2 19 ^^^ (x2 >>> 10)
    shaSchedule ((w.getD 15 0 + s0 + w.getD 6 0 + s1) :: w) n

/-- One round over the eight working words. -/
def shaRound (v : List W32) (kw : W32) : List W32 :=
  match v with
  | [a, b, c, d, e, f, g, h] =>
    let t1 := h + (rotr e 6 ^^^ rotr e 11 ^^^ rotr e 25) + ((e &&& f) ^^^ (~~~e &&& g)) + kw
    let t2 := (rotr a 2 ^^^ rotr a 13 ^^^ rotr a 22) + ((a &&& b) ^^^ (a &&& c) ^^^ (b &&& c))
    [t1 + t2, a, b, c, d + t1, e, f, g]
  | _ => v

/-- One block of 64 bytes. -/
def shaBlock (h : List W32) (blk : List Byte) : List W32 :=
  let w0 := (List.range 16).map (fun i => beWord ((blk.drop (4 * i)).take 4))
  let w := (shaSchedule w0.reverse 48).reverse
  let v := (List.zipWith (· + ·) shaK w).foldl shaRound h
  List.zipWith (· + ·) h v

def shaBlocks (h : List W32) (m : List Byte) : Nat → List W32
  | 0 => h
  | n + 1 => shaBlocks (shaBlock h (m.take 64)) (m.drop 64) n

/-- SHA-256 of a byte string: 32 bytes. -/
def sha256 (m : List Byte) : List Byte :=
  let p := shaPad m
  (shaBlocks shaH p (p.length / 64)).flatMap (fun x => (bytesOf x.toNat 4).reverse)

end Sys2Proof.Machine
end

