-- ==== Sys2Proof/Machine/Ras.lean ====
section
/-!
DEFINITION. Sys2Proof/Machine/Ras.lean: storage errors, the scrubber, failed service pairs, links, mesh edges and stacks, the distributor's
faults, resets of dies and of the package (spec/24_kernel_scheduler_host_and_ras_faults.md R462, R469-R482).
-/

namespace Sys2Proof.Machine

/-! ## Counters and poison (R470-R473) -/

/-- ECCCNT[s]: one more corrected or uncorrectable error, saturating (R469). -/
def State.eccCount (s : State) (d st : Nat) (corrected : Bool) : State :=
  let a := 0xC0100 + 8 * st
  let x := s.reg d a
  let lo := if corrected then min (2 ^ 32 - 1) (x % 2 ^ 32 + 1) else x % 2 ^ 32
  let hi := if corrected then x / 2 ^ 32 else min (2 ^ 32 - 1) (x / 2 ^ 32 + 1)
  s.setReg d a (hi * 2 ^ 32 + lo)

/-- A corrected error: counted, and recorded at most once per structure per 1,000,000 ticks (R471). -/
def State.corrected (s : State) (d st : Nat) : State :=
  let s1 := (s.eccCount d st true).modDie d (fun x => { x with eccSince := Tab.modD x.eccSince st 0 (· + 1) })
  let now := s.tickOf d
  let due := match Tab.get? (s.die d).eccLast st with
    | none => true
    | some t => decide (t + 1000000 ≤ now)
  if due then
    (s1.machineCheck d { cause := 0x60, sub := st, cls := 2, scope := scNONE, detail := Tab.getD (s1.die d).eccSince st 0 }).modDie d (fun x =>
      { x with eccLast := Tab.set x.eccLast st now, eccSince := Tab.set x.eccSince st 0 })
  else s1

/-- The scratchpad word of a core at a physical offset is poisoned, in the allocation that holds it. -/
def State.poisonScratch (s : State) (core off : Nat) : State :=
  match s.crews.find? (fun e => e.2.core == core && e.2.place.onCore && e.2.base * gran ≤ off && off < (e.2.base + e.2.grans) * gran) with
  | some (c, k) => s.modCrew c (fun x => { x with spoison := insertSet x.spoison ((off - k.base * gran) / 4) })
  | none => s

/-- What the scrubber cannot correct it poisons: a sector by its address, a scratchpad word by core * 2^18 + offset (R471). -/
def State.scrubPoison (s : State) (d st addr : Nat) : State :=
  if 3 ≤ st && st ≤ 6 then s.markSector (addr / 32) true
  else if st = 2 then s.poisonScratch (d * 256 + addr / 2 ^ 18 % 256) (addr % 2 ^ 18)
  else s

/-- R471: the next granule is read; `structure_` is 0 when no error is found there. SCRUBINT = 0 disables it. -/
def execScrubTick (die structure_ : Nat) (corrected : Bool) (addr : Nat) (s : State) : Host.Outcome State Fault Refusal :=
  if s.reg die 0xC0000 = 0 then .next s
  else
    let s1 := s.modDie die (fun x => { x with scrub := (x.scrub + 1) % 2 ^ 28 })
    if structure_ = 0 || structure_ > 13 then .next s1
    else if corrected then .next (s1.corrected die structure_)
    else .next ((s1.eccCount die structure_ false).scrubPoison die structure_ addr)

/-- R472. -/
def execRfpoison (w lane row : Nat) (s : State) : Host.Outcome State Fault Refusal :=
  match s.wave? w with
  | none => .next s
  | some v =>
    let d := s.dieOf v
    let s1 := s.setWave w { v with vpoison := insertSet v.vpoison (lane % 64 * 256 + row % 256) }
    .next ((s1.eccCount d 1 false).machineCheck d
      { s.waveRec v lane 0x61 1 2 scNONE with val := packFields [(row, 0, 8), (lane, 8, 6)] })

/-- The crews whose context lies in the shadow bank of a core. -/
def State.bankCrews (s : State) (core : Nat) : List Nat :=
  (s.crews.filter (fun e => e.2.core == core && (e.2.place == .shadow || e.2.place == .swapping))).map (·.1)

/-- R475: the cluster is contained; contexts in a damaged shadow bank (that of core `bank` of the cluster) are lost, and their waves are dead. -/
def execSramue (die cluster structure_ bank : Nat) (s : State) : Host.Outcome State Fault Refusal :=
  let cl := cluster % 16
  let sel := fun (c : Nat) => c / 16 == die * 16 + cl
  let gone := if structure_ = 8 then s.bankCrews (die * 256 + cl * 16 + bank % 16) else []
  let ps := s.procsOn sel
  let s1 := (s.eccCount die structure_ false).machineCheckTo die { cause := cSRAMUE, sub := structure_, cls := 2, scope := scCLUSTER, susp := true } ps
  let s2 := (s1.waves.filter (fun e => gone.contains e.2.crew && !e.2.dead)).foldl (fun s e => s.endWave e.1 3) s1
  .next (s2.containCluster die cl)

/-! ## Service pairs (R476) -/

/-- The stroke die that a die knows (R347). -/
def State.stroke (s : State) (d : Nat) : Option Nat := if bitOf (s.reg d 0x10) 3 then some (s.reg d 0x10 % 8) else none

/-- R476: SUB 1 a disagreement, 2 an error of the pair's SRAM (R470). The record goes to the stroke die's ring. -/
def execLockstep (die sub : Nat) (s : State) : Host.Outcome State Fault Refusal :=
  let r : RecInfo := { cause := cLOCKSTEP, sub := sub, cls := 2, scope := scDIE, susp := true }
  let ps := s.procsOn (fun c => coreDie c == die)
  let (q, s1) := s.takeSeq die
  let s2 := match s.stroke die with
    | some x => if x = die then s1 else s1.ringWrite x (r.pack false die q (s.tickOf die % 2 ^ 48))
    | none => s1
  let s3 := ps.foldl (fun s p => s.sendRecordSeq die p q r) s2
  .next (((s3.setErr die 0x32).modDie die (fun x => { x with svcStopped := true })).containDie die)

/-! ## The distributor (R462) -/

/-- The distributor core halts and its die is contained. -/
def State.distFail (s : State) (d code : Nat) (r : RecInfo) : State :=
  ((s.dieCheck d r).setErr d code).modDist d (fun x => { x with halted := true })

/-- R462: a hook longer than WDOG cycles. -/
def execDistwdog (die : Nat) (s : State) : Host.Outcome State Fault Refusal := .next (s.distFail die 0x33 { cause := 0x48, cls := 2 })
/-- R462. -/
def execDistfault (die sub mepc : Nat) (s : State) : Host.Outcome State Fault Refusal :=
  .next (s.distFail die 0x34 { cause := 0x49, sub := sub, cls := 2, val := mepc })

/-! ## Links, edges, stacks (R477-R479) -/

/-- R477: a link fails and retrains. -/
def execLinkFailure (link : Nat) (s : State) : Host.Outcome State Fault Refusal :=
  .next (if (Tab.get? s.host.links link).isNone then { s with host := { s.host with links := Tab.set s.host.links link 1 } } else s)
/-- R477: a link that retrains does not come up in time: it is down. Die d carries links 2d and 2d + 1 (R8). -/
def execLinkdown (die link : Nat) (s : State) : Host.Outcome State Fault Refusal :=
  if Tab.getD s.host.links link 0 = 1 && link / 2 == die then
    .next ({ s with host := { s.host with links := Tab.set s.host.links link 2 } }.machineCheck die { cause := cLINKDOWN, cls := 2, scope := scNONE, detail := link % 16 })
  else .next s
/-- R452: the link is up again; messages of the node about pages are taken again, its stale copies being invalidated. -/
def execLinkBroughtUp (link node : Nat) (s : State) : Host.Outcome State Fault Refusal :=
  .next { s with
    host := { s.host with links := Tab.del s.host.links link }
    pages := s.pages.map (fun e => (e.1, { e.2 with gone := e.2.gone.filter (· != node) })) }
/-- R477: port A is on CD0, port B on CD4 (R8). -/
def execHostLinkDown (port : Nat) (s : State) : Host.Outcome State Fault Refusal :=
  .next ({ s with host := { s.host with down := insertSet s.host.down (port % 2) } }.machineCheck (if port % 2 = 0 then 0 else 4)
    { cause := cLINKDOWN, cls := 2, scope := scNONE, detail := packFields [(1, 4, 1), (port, 5, 1)] })

/-- The ten mesh edges (R8). -/
def meshEdges : List (Nat × Nat) := [(0, 1), (1, 2), (2, 3), (4, 5), (5, 6), (6, 7), (0, 4), (1, 5), (2, 6), (3, 7)]

/-- An order of a list by free numbers: the spec does not number the edges (log 32). -/
def freeEdges : Nat → List (Nat × Nat) → List (Nat × Nat)
  | 0, _ => []
  | n + 1, l => let i := Config.meshOrder n % l.length; (l[i]?).toList ++ freeEdges n (l.eraseIdx i)

/-- The two dies that a numbered edge joins. -/
def edgeEnds (e : Nat) : Nat × Nat := (freeEdges 10 meshEdges).getD e (8, 8)

/-- Every edge of a die has failed (R478). -/
def State.cutOff (s : State) (d : Nat) : Bool :=
  let down := (List.range 8).flatMap (fun x => (s.die x).edgesDown)
  ((List.range 10).filter (fun e => (edgeEnds e).1 == d || (edgeEnds e).2 == d)).all (fun e => down.contains e)

/-- A lost die is as one contained at Die scope (R478). -/
def State.loseDie (s : State) (d : Nat) : State :=
  if (s.die d).lostDie then s else (s.modDie d (fun x => { x with lostDie := true })).containDie d

/-- R478: a die at an end of the edge reports it (R8). -/
def execMeshEdgeFailure (die edge : Nat) (s : State) : Host.Outcome State Fault Refusal :=
  if (edgeEnds (edge % 10)).1 != die && (edgeEnds (edge % 10)).2 != die then .next s
  else
  let s1 := (s.modDie die (fun x => { x with edgesDown := insertSet x.edgesDown (edge % 10) })).machineCheck die
    { cause := cLINKDOWN, cls := 2, scope := scNONE, detail := packFields [(1, 6, 2), (edge % 10, 8, 4)] }
  .next ((List.range 8).foldl (fun s d => if s.cutOff d then s.loseDie d else s) s1)

/-- Whether a page-table page below a level lies in a stack (R479). -/
def State.tableIn (s : State) (stack table : Nat) : Nat → Bool
  | 0 => false
  | n + 1 =>
    (List.range 128).any (fun i => tracked table && stackOf (table / 32 + i) == stack) ||
    (List.range 512).any (fun i =>
      let e := BitVec.ofNat 64 (s.cohN (table + 8 * i) 8)
      pteV e && !pteLeaf e && s.tableIn stack (pteFrame e * 4096) n)

/-- Processes with a page table in a stack, or with an object of a die whose cave the stack holds a part of. -/
def State.procsIn (s : State) (d stack : Nat) : List Nat :=
  (s.procs.filter (fun (e : Nat × Proc) => s.tableIn stack (e.2.ptroot.toNat * 4096) 4 || e.2.die == d)).map (·.1)

/-- R479: every sector of the stack is poisoned, the die is contained, and the processes that held contexts, tables or objects in it receive HBMUE. -/
def execHbmStackFailure (die stack : Nat) (s : State) : Host.Outcome State Fault Refusal :=
  let n := die * 2 + stack % 2
  let ps := s.procsIn die n
  let s1 : State := { s with stackDown := insertSet s.stackDown n, mclean := s.mclean.filter (fun (q : Nat) => stackOf q != n) }
  let s2 := ps.foldl State.containProc s1
  .next ((s2.machineCheckTo die { cause := cHBMUE, sub := 6, cls := 2, scope := scPROC, susp := true, val := die * 2 ^ 37 } ps).containDie die)

/-! ## Reset of a die (R353, R453, R482) -/

/-- Waves that wait on an object of the die end their wait with STALE (R453). -/
def State.staleWaits (s : State) (d : Nat) : State :=
  s.waves.foldl (fun s e =>
    match e.2.wait with
    | some (.port id _ seq r _) => if objDie id = d then s.wake e.1 seq (sOut r stSTALE) else s
    | some (.waitSet id _ seq r _) => if objDie id = d then s.wake e.1 seq (sOut r stSTALE) else s
    | some (.join id _ seq r) => if objDie id = d then s.wake e.1 seq (sOut r stSTALE) else s
    | some (.service id seq r) => if objDie id = d then s.wake e.1 seq (sOut r stSTALE) else s
    | some (.lock line seq r) => if lineDie line = d then s.wake e.1 seq (sOut r stSTALE) else s
    | _ => s) s

/-- Copies of the die's lines elsewhere are written back and dropped; lines of which only the die had the dirty copy are poisoned at their home. -/
def State.resetLines (s : State) (d : Nat) : State :=
  let homed := fun (e : Nat × RdcLine) => tracked (e.1 % 2 ^ 64 * 128) && lineDie (e.1 % 2 ^ 64) == d
  let out := s.rdc.filter (fun e => e.1 / 2 ^ 64 != d && homed e)
  let s1 := out.foldl (fun s e => s.applyBytes e.2.dirty) s
  let mine := (s1.rdc ++ s1.wbBuf).filter (fun (e : Nat × RdcLine) => e.1 / 2 ^ 64 == d && !e.2.dirty.isEmpty)
  let l1 := ((s1.cores.filter (fun (c : Nat × Core) => coreDie c.1 == d)).flatMap (fun (c : Nat × Core) => c.2.l1.filter (fun b => b.2.dirty && tracked b.1))).map (fun b => lineOf b.1)
  let s2 := (mine.map (fun (e : Nat × RdcLine) => e.1 % 2 ^ 64) ++ l1).foldl State.poisonLine s1
  let owned := fun (e : DirEntry) => e.state == 2#2 && e.owner.toNat == d
  { s2 with
    rdc := s2.rdc.filter (fun e => e.1 / 2 ^ 64 != d && !homed e)
    wbBuf := s2.wbBuf.filter (fun e => e.1 / 2 ^ 64 != d && !homed e)
    homeQ := (s2.homeQ.filter (fun (e : Nat × List (Nat × Bool)) => lineDie e.1 != d)).map (fun e => (e.1, e.2.filter (fun r => r.1 != d)))
    pages := s2.pages.filter (fun e => keyDie (e.1 * 4096) != d)
    dir := (s2.dir.filter (fun (e : Nat × DirEntry) => lineDie e.1 != d)).map (fun (e : Nat × DirEntry) =>
      (e.1, { e.2 with state := if owned e.2 then 0 else e.2.state, sharers := e.2.sharers &&& ~~~(1#8 <<< d) })) }

/-- The die's objects are gone: every entry is freed, each GEN kept and raised (R482). -/
def State.resetObjects (s : State) (d : Nat) : State :=
  let gone := (s.crews.filter (fun e => objDie e.1 == d || coreDie e.2.core == d)).map (·.1)
  let held := (s.crews.filter (fun e => gone.contains e.1)).flatMap (fun e => e.2.slots.map (·.2))
  let accd := (s.crews.filter (fun e => gone.contains e.1)).flatMap (fun e => e.2.accs.map (·.2))
  let far := s.waves.filter (fun e => !gone.contains e.2.crew && objDie e.2.proc == d && !e.2.dead)
  let s1 := far.foldl (fun s e => s.endWave e.1 2) s
  let s2 := (s1.waves.filter (fun e => gone.contains e.2.crew)).foldl (fun s e => s.unwait e.1) s1
  { s2 with
    waves := s2.waves.filter (fun e => !gone.contains e.2.crew)
    crews := s2.crews.filter (fun e => !gone.contains e.1)
    runq := s2.runq.filter (fun c => !gone.contains c)
    opslots := s2.opslots.filter (fun e => !held.contains e.1)
    accs := s2.accs.filter (fun e => !accd.contains e.1)
    gangs := s2.gangs.filter (fun e => e.1 / 64 != d)
    procs := s2.procs.filter (fun e => objDie e.1 != d)
    ports := s2.ports.filter (fun e => objDie e.1 != d)
    wsets := s2.wsets.filter (fun e => objDie e.1 != d)
    timers := s2.timers.filter (fun e => objDie e.1 != d)
    tqs := s2.tqs.filter (fun e => e.2.die != d)
    names := s2.names.filter (fun n => n.die != d && (n.handle.isSome || objDie n.port != d))
    farNames := s2.farNames.filter (fun n => objDie n.port != d)
    nameCache := s2.nameCache.filter (fun n => n.1 != d && (n.2.handle.isSome || objDie n.2.port != d))
    acks := s2.acks.filter (fun e => e.2.die != d)
    objs := s2.objs.map (fun (e : Nat × Obj) =>
      if objDie e.1 == d && e.2.kind != 0 then (e.1, { e.2 with kind := 0, gen := (e.2.gen + 1) % 4096, refs := 0, dying := false }) else e) }

/-- The locks homed on the die are gone with its lock table. -/
def State.resetLocks (s : State) (d : Nat) : State :=
  { s with
    locks := s.locks.filter (fun e => lineDie e.1 != d)
    waves := s.waves.map (fun (e : Nat × Wave) =>
      (e.1, { e.2 with heldLocks := e.2.heldLocks.filter (fun l => lineDie l != d), lkPending := e.2.lkPending.filter (fun x => lineDie x.1 != d) })) }

/-- Shootdowns no longer wait for the die. -/
def State.resetShoots (s : State) (d : Nat) : State :=
  let left := s.shoots.filter (fun e => e.2.window != some d)
  let s1 : State := { s with shoots := left.map (fun (e : Nat × Shoot) => (e.1, { e.2 with dies := e.2.dies.filter (· != d) })) }
  s1.send ((left.filter (fun e => e.2.dies == [d])).map (fun e => Instr.shootdownComplete e.1))

/-- The die starts again: ROM, its counter at 0, every register at its reset value; HBM keeps its contents. The lease and the package's sideband
are CD0's. -/
def State.dieReset (s : State) (d : Nat) : State :=
  let s1 := ((((s.breakDie d).staleWaits d).resetLines d).resetObjects d).resetLocks d
  let s2 := s1.resetShoots d
  { s2 with
    cores := s2.cores.filter (fun e => coreDie e.1 != d) ++ (List.range 256).map (fun i => (d * 256 + i, ({ cycle0 := s2.cycles } : Core)))
    dies := Tab.set s2.dies d { tick0 := s2.ticks }
    host := if d = 0 then { down := s2.host.down, links := s2.host.links } else s2.host }

/-- R353, R482. -/
def execDieReset (die : Nat) (s : State) : Host.Outcome State Fault Refusal := .next (s.dieReset (die % 8))

/-- R482. -/
def execDiereset (who die : Nat) (v : W64) (s : State) : Host.Outcome State Fault Refusal :=
  .next (if s.mayWrite who die .s && bits v.toNat 15 0 == 0xD1E5 then s.dieReset (die % 8) else s)

/-- R354: PERST# on a host port. Memory keeps its contents, poison and tags (log 33); clocks start again. -/
def execFundamentalReset (_port : Nat) (s : State) : Host.Outcome State Fault Refusal :=
  .next { State.reset with
    mem := s.mem, mpoison := s.mpoison, stackDown := s.stackDown, mclean := s.mclean, futures := s.futures.map (fun (e : Nat × List Nat) => (e.1, [])), cxl := s.cxl
    agenda := s.agenda, steps := s.steps, free := s.free }

end Sys2Proof.Machine
end

