-- ==== Sys2Proof/Machine/Boot.lean ====
section
/-!
DEFINITION. Sys2Proof/Machine/Boot.lean: the lease, registers with a behaviour of their own, boot and election, heartbeat, identity, sideband
and power (spec/17_external_interfaces_and_bringup.md R347-R361, spec/23_memory_lock_plane_and_engine_faults.md R437,
spec/24_kernel_scheduler_host_and_ras_faults.md R463, R466, R467, R480).
-/

namespace Sys2Proof.Machine

/-! ## The lease (R350, R466) -/

/-- VALID clears, with the LEASE machine check of CD0. -/
def State.leaseLost (s : State) (linkDown : Bool) : State :=
  ({ s with host := { s.host with valid := false } }).machineCheck 0
    { cause := 0x4A, cls := 2, scope := scNONE, detail := packFields [(s.host.holder, 0, 1), (b2n linkDown, 1, 1)] }

/-- A lease whose EXPIRY TICK has reached. -/
def State.leaseOver (s : State) : Bool := s.host.valid && !s.leased
/-- A lease without expiry whose holder's link is down. -/
def State.leaseCut (s : State) : Bool := s.host.valid && s.host.noexp && s.host.down.contains s.host.holder

/-- R466. -/
def execLeaseExpiry (linkDown : Bool) (s : State) : Host.Outcome State Fault Refusal :=
  .next (if (if linkDown then s.leaseCut else s.leaseOver) then s.leaseLost linkDown else s)

/-- Before a write of LEASE[1] is judged, a lease that has run out is cleared. -/
def State.leaseNow (s : State) : State := if s.leaseOver then s.leaseLost false else s

/-- Give the lease to a port, and it the vectors that wait (R351, R466). -/
def State.giveLease (s : State) (port : Nat) (noexp : Bool) (expiry : Nat) : State :=
  ({ s with host := { s.host with valid := true, holder := port, noexp := noexp, expiry := expiry } }).flushVectors

/-- The port that a write of LEASE[1] counts for: a service core may write it too (R347), and R350 does not say for which port: free (log
88). -/
def State.leasePort (s : State) (who : Nat) : Nat := if who < 2 then who else (Config.freeWord s.free).toNat % 2

/-- A write of LEASE[1] that is not dropped. -/
def State.leaseOpen (s : State) (who port : Nat) : Bool := s.mayWrite who 0 .a && (!s.host.valid || s.host.holder == port)

/-- R350: TERM is not 0. -/
def execLeaseTake (port term : Nat) (s : State) : Host.Outcome State Fault Refusal :=
  let s1 := { s.leaseNow with free := s.leaseNow.free + b2n (port ≥ 2) }
  let x := s.leaseNow.leasePort port
  .next (if s1.leaseOpen port x then s1.giveLease x false ((s1.tickOf 0 + 10000 * (term % 2 ^ 16)) % 2 ^ 48) else s1)
/-- R350: only while the other port's link is down. -/
def execLeaseTakeNoexp (port : Nat) (s : State) : Host.Outcome State Fault Refusal :=
  let s1 := { s.leaseNow with free := s.leaseNow.free + b2n (port ≥ 2) }
  let x := s.leaseNow.leasePort port
  .next (if s1.leaseOpen port x && s1.host.down.contains (1 - x) then s1.giveLease x true s1.host.expiry else s1)
/-- R350. -/
def execLeaseRelease (port : Nat) (s : State) : Host.Outcome State Fault Refusal :=
  let s1 := { s.leaseNow with free := s.leaseNow.free + b2n (port ≥ 2) }
  .next (if s1.leaseOpen port (s.leaseNow.leasePort port) then { s1 with host := { s1.host with valid := false } } else s1)

/-! ## Registers with a behaviour of their own -/

/-- The writable bits of the four words of a format window (R188). -/
def fmtMask : Nat := 0x1FF + (2 ^ 116 - 2 ^ 76) + (2 ^ 180 - 2 ^ 140) + (2 ^ 244 - 2 ^ 197)

/-- Whether an enabled window meets R188: a binary8 or binary4 format, BASE below LIMIT, both addresses in the die's HBM. -/
def fmtOk (d n : Nat) : Bool :=
  let w := FmtWin.of (BitVec.ofNat 256 n)
  let lo := d * 2 ^ 37
  (match (Fmt.ofCode w.fmt) with | some f => f.isB8 || f.isB4 | none => false)
  && decide (w.base < w.limit) && decide (lo ≤ w.base) && decide (w.limit < lo + 2 ^ 37)

/-- R437: one word of a window. A setting that breaks R188 leaves the register unchanged and sets ERR 0x31. Cached lines hold no decoded data in
this model, so the flush of R190 changes nothing. -/
def execFmtwinWrite (who die off : Nat) (v : W64) (s : State) : Host.Outcome State Fault Refusal :=
  let i := off % 512 / 32
  let sh := 64 * (off % 32 / 8)
  let old := (Tab.getD (s.die die).fmtwin i 0).toNat
  let n := mergeBits old (v.toNat * 2 ^ sh) (fmtMask &&& ((2 ^ 64 - 1) * 2 ^ sh))
  if !s.mayWrite who die .s then .next s
  else if bitOf n 0 && !fmtOk die n then .next (s.setErr die 0x31)
  else .next (s.modDie die (fun x => { x with fmtwin := Tab.set x.fmtwin i (BitVec.ofNat 256 n) }))

/-- R361: clamped, and one value for the package. -/
def execPlimitWrite (who die : Nat) (v : W64) (s : State) : Host.Outcome State Fault Refusal :=
  let x := v.toNat % 2 ^ 13
  .next (if s.mayWrite who die .s then { s with host := { s.host with plimit := max 1500 (min 4500 x) } } else s)

/-- R344: a value outside 4 to 20 stores the nearer end. -/
def execTrlognWrite (who die : Nat) (v : W64) (s : State) : Host.Outcome State Fault Refusal :=
  .next (if s.mayWrite who die .s then s.setReg die 0x6008 (max 4 (min 20 v.toNat)) else s)

/-! ## Measurements (R357, R358) -/

/-- Measure an item: refused when the log is full. -/
def Die.measure (x : Die) (m : List Byte) : Option Die :=
  if x.log.length ≥ 256 then none
  else let h := sha256 m; some { x with log := x.log ++ [h], digest := sha256 (x.digest ++ h) }

/-- A quote is requested over the current log; one that is pending drops the request. -/
def State.requestQuote (s : State) (d : Nat) : State :=
  if (s.die d).qreq then s else s.modDie d (fun x => { x with qreq := true, qbuf := [] })

/-- R357. -/
def execQreq (who die : Nat) (s : State) : Host.Outcome State Fault Refusal :=
  .next (if s.mayWrite who die .a then s.requestQuote die else s)

/-- R358: the signature, 384 bytes, comes from the die's key. -/
def execQuoteComplete (die : Nat) (sig : List Byte) (s : State) : Host.Outcome State Fault Refusal :=
  .next (if (s.die die).qreq then s.modDie die (fun x => { x with qreq := false, qbuf := (sig ++ List.replicate 384 0).take 384 }) else s)

/-- R359: the nonce in, and a quote asked of each die. -/
def execQuote (nonce : List Byte) (s : State) : Host.Outcome State Fault Refusal :=
  .next ((List.range 8).foldl (fun s d =>
    ((List.range 4).foldl (fun s i => s.setReg d (0x71000 + 8 * i) (wordAt nonce (8 * i))) s).requestQuote d) s)

/-! ## Distributor microcode (R356, R462) -/

/-- R356: a load that is pending is replaced. -/
def execDload (who die : Nat) (v : W64) (s : State) : Host.Outcome State Fault Refusal :=
  .next (if s.mayWrite who die .s then
    (s.modDie die (fun x => { x with dload := some (v.toNat % 2 ^ 48) })).setReg die 0x40008 (mergeBits (s.reg die 0x40008) 0x100 0x100) else s)

/-- R356, R358: the image, measured, replaces the microcode, and a halted distributor runs again (R462); one that is refused leaves it. -/
def execMicrocodeInstall (die : Nat) (ok : Bool) (image : List Byte) (s : State) : Host.Outcome State Fault Refusal :=
  if (s.die die).dload.isNone then .next s
  else
    let s1 := s.modDie die (fun x => { x with dload := none })
    match (if ok then (s1.die die).measure image else none) with
    | some x => .next ((s1.modDie die (fun _ => { x with dist := { x.dist with cox := false, halted := false } })).setReg die 0x40008 stOK)
    | none => .next ((s1.setReg die 0x40008 stBADDESC).setErr die 0x30)

/-! ## Boot and election (R353, R354) -/

def State.stage (s : State) (d : Nat) : Nat := s.reg d 0x08 % 16
def State.setStage (s : State) (d n : Nat) : State := s.setReg d 0x08 (mergeBits (s.reg d 0x08) n 0xF)

/-- R353, R480: self-test passes, or stops the die with its failure code. -/
def execSelfTestDone (die err : Nat) (s : State) : Host.Outcome State Fault Refusal :=
  if s.stage die > 1 then .next s
  else .next (if err = 0 then s.setStage die 2 else (s.setStage die 1).setErr die err)

/-- STROKE is written on a die; one without PASS does not adopt it. A die that STROKE no longer names stops its operating service (R467). -/
def State.adopt (s : State) (d v : Nat) : State :=
  if !s.passed d then s
  else
    let s1 := s.setReg d 0x10 (v % 16)
    if s.stage d = 4 && v % 8 != d then s1.setStage d 3 else s1

/-- The elected die writes STROKE on every die and runs the operating service. -/
def State.crown (s : State) (d : Nat) : State := ((List.range 8).foldl (fun s x => s.adopt x (d + 8)) s).setStage d 4

/-- A die's wait has ended: it elects the lowest-numbered die whose PASS it has received, or joins under a valid STROKE of another (R354, R482). -/
def State.elect (s : State) (d : Nat) : State :=
  let s1 := s.modDie d (fun x => { x with elected := true })
  if !s.passed d then s1
  else match (List.range 8).findSome? (fun x => if x = d || !s.passed x then none else s.stroke x) with
    | some x => s1.adopt d (x + 8)
    | none => match minList (((s.die d).passes.filter (·.2)).map (·.1)) with
      | some x => if x = d then s1.crown d else s1.adopt d (x + 8)
      | none => s1

/-- A result reaches a die whose wait has not ended. -/
def State.passFrom (s : State) (d src : Nat) (pass : Bool) : State :=
  if (s.die d).elected then s
  else
    let s1 := s.modDie d (fun x => { x with passes := (x.passes.filter (fun e => e.1 != src)) ++ [(src, pass)] })
    if (s1.die d).passes.length ≥ 8 then s1.elect d else s1

/-- R353, R357: a verified image sets PASS and is measured; a refused one leaves its failure code. The result goes to every die. -/
def execFirmwareVerifyDone (die err : Nat) (body : List Byte) (s : State) : Host.Outcome State Fault Refusal :=
  if s.stage die ≠ 2 then .next s
  else
    let pass := err == 0
    let s1 := if pass then
        ((s.setReg die 0x08 (mergeBits (s.reg die 0x08) 0x10 0x10)).setStage die 3).modDie die (fun x => (x.measure body).getD x)
      else s.setErr die err
    .next ((s1.passFrom die die pass).send (((List.range 8).filter (· != die)).map (fun d => Instr.passBroadcast die d pass)))

/-- R354. -/
def execPassBroadcast (src die : Nat) (pass : Bool) (s : State) : Host.Outcome State Fault Refusal := .next (s.passFrom die src pass)

/-- R354: 2,000,000 ticks after the die's reset. -/
def execElectionTimeout (die : Nat) (s : State) : Host.Outcome State Fault Refusal :=
  .next (if (s.die die).elected || s.tickOf die < 2000000 then s else s.elect die)

/-- R354. -/
def execStrokeWrite (who die : Nat) (v : W64) (s : State) : Host.Outcome State Fault Refusal :=
  .next (if s.mayWrite who die .s then s.adopt die v.toNat else s)

/-! ## Heartbeat (R355, R467) -/

/-- R355, R467: a write from a die that STROKE does not name is dropped. -/
def execHeartbeatWrite (die src : Nat) (count : W32) (s : State) : Host.Outcome State Fault Refusal :=
  if s.stroke die ≠ some src then .next s
  else
    let s1 := s.setReg die 0x18 (count.toNat + src * 2 ^ 32)
    .next (if s.reg die 0x18 % 2 ^ 32 = count.toNat then s1
      else s1.modDie die (fun x => { x with hbAt := s.tickOf die, lapseAt := none, lapses := [] }))

/-- A die may become the stroke die: every reachable die but the old one has reported, or 2,000,000 ticks have passed since its own detection. -/
def State.succeeds (s : State) (d old : Nat) : Bool :=
  s.passed d && d != old && !(s.die d).lostDie &&
  (match (s.die d).lapseAt with
    | none => false
    | some t =>
      decide (t + 2000000 ≤ s.tickOf d) ||
      (List.range 8).all (fun x => x == old || x == d || (s.die x).lostDie || (s.die d).lapses.contains x))

/-- The lowest-numbered such die takes the office, and resets the old stroke die (R467, R480). -/
def State.succession (s : State) (old : Nat) : State :=
  match (List.range 8).find? (fun d => s.succeeds d old) with
  | none => s
  | some d =>
    let s1 := s.crown d
    let s2 := (List.range 8).foldl (fun s x => s.modDie x (fun y => { y with hbAt := s.tickOf x, lapseAt := none, lapses := [] })) s1
    if (s.die old).lostDie then s2 else (s2.dieReset old).setErr old 0x20

/-- R467: the lapse is recorded and reported once; later the die's own wait may have ended. -/
def execHeartbeatLapse (die : Nat) (s : State) : Host.Outcome State Fault Refusal :=
  match s.stroke die with
  | none => .next s
  | some old =>
    if old = die || !s.passed die || s.tickOf die < (s.die die).hbAt + s.reg die 0xC0028 then .next s
    else if (s.die die).lapseAt.isSome then .next (s.succession old)
    else
      let s1 := (s.machineCheck die { cause := 0x4B, cls := 2, scope := scNONE, detail := old }).modDie die (fun x => { x with lapseAt := some (s.tickOf die) })
      .next ((s1.succession old).send (((List.range 8).filter (· != die)).map (fun d => Instr.lapseBroadcast die d)))

/-- R467. -/
def execLapseBroadcast (src die : Nat) (s : State) : Host.Outcome State Fault Refusal :=
  let s1 := s.modDie die (fun x => { x with lapses := insertSet x.lapses src })
  .next (match s.stroke die with
    | some old => s1.succession old
    | none => s1)

/-! ## Sideband and power (R359, R360) -/

/-- R359. -/
def execEntdaa (addr : Nat) (s : State) : Host.Outcome State Fault Refusal :=
  .next { s with host := { s.host with i3cAddr := some (addr % 128) } }
/-- R359: an in-band interrupt. -/
def execThermalPowerAlert (s : State) : Host.Outcome State Fault Refusal := .next { s with host := { s.host with i3cAlert := true } }
/-- R360. -/
def execPowerStepChange (die step : Nat) (s : State) : Host.Outcome State Fault Refusal :=
  .next (if step < 8 then s.modDie die (fun x => { x with pstate := step }) else s)

/-! ## A write of any other register (R347) -/

/-- R347: a register with no behaviour of its own, CMD of the command window, GSTAT's W1C bit, or a register of the debug block. Registers with an
event of their own take their writes there. A distributor core stores to its own registers (R338). BOOTSTAT has no writers, but the operating service of the stroke die sets STAGE (R355). -/
def execRegisterWrite (who die off : Nat) (v : W64) (s : State) : Host.Outcome State Fault Refusal :=
  if 16 ≤ who then .next (if who = 16 + die then s.distStore die (off % 0x40000000) v.toNat else s) else
  if off = 0x3000 then .next (s.command who die (v.toNat % 256) [])
  else if off = 0x2010 then
    .next (if s.mayWrite who die .h && v.getLsbD 16 then s.setReg die 0x2010 (mergeBits (s.reg die 0x2010) 0 0x10000) else s)
  else if off = 0x08 then
    .next (match (List.range 8).findSome? s.stroke with
      | some x => if who = 2 + x && s.passed die then s.setStage die (bits v.toNat 3 0) else s
      | none => s)
  else if 0x100000 ≤ off && off < 0x180000 && off % 8 = 0 then
    .next (if s.mayWrite who die .h then s.writeDbg (die * 256 + (off - 0x100000) / 0x800) (off % 0x800 / 8) v else s)
  else .next (s.plainWrite who die off v.toNat)

/-- What a register of a die's map reads (R347, R362, R374). -/
def State.readMap (s : State) (d off : Nat) : Nat :=
  if 0x100000 ≤ off && off < 0x180000 then
    (if off % 8 = 0 then (s.readDbg (d * 256 + (off - 0x100000) / 0x800) (off % 0x800 / 8)).toNat else 0)
  else if 0x180000 ≤ off && off < 0x1A4000 then (s.readSnap d (off - 0x180000)).toNat
  else s.readReg d off

/-- A host's read through BAR0 (R346); a die without PASS serves DIEID, BOOTSTAT and STROKE only (R354). -/
def State.readBar0 (s : State) (o : Nat) : Nat :=
  let d := o / 2 ^ 24
  let off := o % 2 ^ 24
  if s.passed d || off = 0x00 || off = 0x08 || off = 0x10 then s.readMap d off else 0

end Sys2Proof.Machine
end

