-- ==== Sys2Proof/Machine/WaveEvents.lean ====
section
/-!
DEFINITION. Sys2Proof/Machine/WaveEvents.lean: what the hardware does by itself for a wave: run starts, returning results, refusals,
re-reads of ld.poll, acknowledgements, futures at their home, debug entries from outside, and what arrives at L1s and scratchpads
(opcode_table.json's events of spec/02 to spec/09, spec/18 and spec/21).
-/

namespace Sys2Proof.Machine

/-! ## Runs (R24, R25, R29, R31) -/

/-- Close the wave's run if all it waits for has come. -/
def State.tryClose (s : State) (w : Nat) : State :=
  match s.wave? w with
  | none => s
  | some v => match v.run with
    | none => s
    | some r => if s.closable w v r then s.closeRun w v r moveCrew else s

/-- R24, R25: an ended run closes; else a single step re-enters the handler (R370), or the next run starts. -/
def execRunStart (w : Nat) (s : State) : Host.Outcome State Fault Refusal :=
  match s.wave? w with
  | none => .next s
  | some v =>
    if v.dead then .next s
    else if v.stepState = 2 then
      (match s.stepEntry w v with
        | some s1 => .next s1
        | none => .next (s.tryClose w))
    else match v.run with
      | some _ => .next (s.tryClose w)
      | none => if s.mayStart v then .next (s.startRun w v) else .next s

/-- R29: the result of the wave's n-th issue has returned; the wave unparks when it was the last (R31). -/
def execVarResultReturn (w n : Nat) (s : State) : Host.Outcome State Fault Refusal :=
  .next ((s.modWave w (fun v => v.modRes n (fun r => { r with back := r.back || r.ready }))).tryClose w)

/-- R489: taken at the end of its run when that is still to come, else held for the wave. -/
def execWriteRefusalArrival (w run : Nat) (r : Refused) (s : State) : Host.Outcome State Fault Refusal :=
  .next (s.modWave w (fun v =>
    let mine := fun (x : Option Run) => match x with | some y => y.first == run | none => false
    let add := fun (x : Option Run) => x.map (fun y => if y.first == run then { y with late := y.late ++ [lateOf r] } else y)
    if mine v.run || mine v.frozen || mine v.resume || (match v.dbg with | some d => mine d.frozen | none => false) then
      { v with
        run := add v.run, frozen := add v.frozen, resume := add v.resume
        dbg := v.dbg.map (fun d => { d with frozen := add d.frozen }) }
    else { v with refusals := v.refusals ++ [lateOf r] }))

/-! ## ld.poll (R158) -/

/-- What a re-read sees of its wave. -/
def pollCtx (w : Nat) (v : Wave) (p : Poll) : Ctx :=
  let r : Run := v.run.getD { mask := 0, start := 0, pc := 0 }
  { w := w, v := v, run := { r with pc := r.site.pc }, raw := .event, words := [r.site.word, r.site.x1, r.site.x2], lanes := [p.lane], act := [p.lane] }

/-- A fibre has its value. The instruction's result is complete when every fibre has finished. -/
def State.pollDone (s : State) (w n : Nat) (p : Poll) (x : Nat) : State :=
  s.modWave w (fun v =>
    let rest := v.polls.eraseIdx n
    let ws : List Write := (List.range (if p.size = 8 then 2 else 1)).flatMap (fun i =>
      if p.d < 0x30 then [{ loc := .v p.lane (p.winBase + p.d + i), val := BitVec.ofNat 64 (x / 2 ^ (32 * i) % 2 ^ 32) }]
      else if p.d < 0x38 then [{ loc := .t p.lane (p.d + i - 0x30), val := BitVec.ofNat 64 (x / 2 ^ (32 * i) % 2 ^ 32) }] else [])
    { (v.modRes p.seq (fun r => { r with writes := r.writes ++ ws, ready := !(rest.any (fun q => q.seq == p.seq)) })) with polls := rest })

/-- R158: one more read of the n-th unfinished fibre. -/
def execLdPollReread (w n : Nat) (s : State) : Host.Outcome State Fault Refusal :=
  match s.wave? w with
  | none => .next s
  | some v => match v.polls[n]? with
    | none => .next s
    | some p =>
      match s.resolve v p.lane { kind := aREAD, size := p.size, align := p.size } false p.addr with
      | (.error _, s1) => .next (s1.pollDone w n p p.last)
      | (.ok t, s1) =>
        match s1.pollRead (pollCtx w v p) p.lane p.addr p.size p.scope t with
        | (.error e, s2) =>
          let c := pollCtx w v p
          let lf : LateFault := { seq := p.seq, trap := { e with lanes := maskOf [p.lane] }, pc := c.run.site.pc, word := c.run.site.word, x1 := c.run.site.x1, x2 := c.run.site.x2 }
          .next ((s2.modWave w (fun v => v.addLate p.seq lf)).modWave w (fun v =>
            let rest := v.polls.eraseIdx n
            { (v.modRes p.seq (fun r => { r with ready := !(rest.any (fun q => q.seq == p.seq)) })) with polls := rest }))
        | (.ok x, s2) =>
          let leaving := match s2.crew? v.crew with | some k => k.preempt.isSome | none => false
          if x != p.old || p.reads + 1 ≥ 16 || leaving then .next (s2.pollDone w n p x)
          else .next ((s2.modWave w (fun v =>
            { v with polls := v.polls.eraseIdx n ++ [{ p with reads := p.reads + 1, last := x }] })).send [.ldPollReread w n])

/-! ## Acknowledgements (R215, R450) -/

/-- R215. -/
def execAckArrival (id : Nat) (s : State) : Host.Outcome State Fault Refusal :=
  match Tab.get? s.acks id with
  | none => .next s
  | some a => .next ({ s with acks := Tab.del s.acks id }.modWave a.wave (fun v => { v with ackcnt := v.ackcnt - 1 }))

/-- R450: the write is sent once more; a second loss, or one of a no-return atomic, is ACKLOST with process containment. -/
def execAckTimeout (id : Nat) (s : State) : Host.Outcome State Fault Refusal :=
  match Tab.get? s.acks id with
  | none => .next s
  | some a =>
    if !a.resent && !a.atomic then
      .next ({ s with acks := Tab.set s.acks id { a with resent := true } }.send [.ackArrival id])
    else
      let s1 := ({ s with acks := Tab.del s.acks id }).modWave a.wave (fun v => { v with ackcnt := v.ackcnt - 1 })
      match s.wave? a.wave with
      | none => .next s1
      | some v =>
        let r : RecInfo := { cause := 0x67, cls := 2, scope := scPROC, susp := true, val := a.key % 2 ^ 52, detail := a.node, tenant := s.tenantOf v.proc }
        .next ((s1.containProc v.proc).machineCheckTo a.die r [v.proc])

/-- R167, R216: a zero-length read of a .sys release has completed; it follows the acknowledgements. -/
def execZeroLengthReadCompletion (w port : Nat) (s : State) : Host.Outcome State Fault Refusal :=
  if !(s.acked w) then .next (s.send [.zeroLengthReadCompletion w port])
  else .next (s.modWave w (fun v =>
    let f := fun (r : Run) => { r with waitZlr := r.waitZlr.erase port }
    { v with run := v.run.map f, frozen := v.frozen.map f, resume := v.resume.map f, dbg := v.dbg.map (fun d => { d with frozen := d.frozen.map f }) }))

/-! ## Futures at their home (R172-R174, R457, R458) -/

def cFUTINIT : Nat := 0x44

/-- The 16 bytes of a future: value and flags. -/
def futBytes (v : W64) (full waits : Bool) : List Byte := bytesOf v.toNat 8 ++ bytesOf (b2n full + 2 * b2n waits) 8

def State.putFut (s : State) (key : Nat) (v : W64) (full waits : Bool) : State :=
  s.pointWrite (fun s k b => s.homeWrite k b) key (futBytes v full waits)

/-- FUTINIT of the instruction (R458). -/
def State.futFault (s : State) (w seq sub addr : Nat) (pc : BitVec 48) (word x1 x2 : W32) : State :=
  s.modWave w (fun v =>
    let m := (v.run.map (·.mask)).getD 0#64 &&& v.live
    (v.addLate seq { seq := seq, trap := { cause := cFUTINIT, sub := sub, tval := BitVec.ofNat 64 addr, lanes := m }, pc := pc, word := word, x1 := x1, x2 := x2 }).modRes
      seq (fun r => { r with ready := true }))

/-- Wake the readers of a future in their order; each acquires (R173, R174). -/
def State.wakeReaders (s : State) (v : W64) : List Nat → State
  | [] => s
  | w :: t =>
    (match (s.wave? w).bind (fun x => x.wait.map (fun y => (x, y))) with
      | some (x, .future _ seq d scope addr) => (s.wake w seq (sOut d v.toNat)).acqObj x scope { kind := 5, ident := addr }
      | _ => s).wakeReaders v t

/-- The issuing core keeps no copy of the future, so that the wave's later loads see its own operation (R155, R207). -/
def State.dropFuture (s : State) (w key : Nat) : State :=
  match s.wave? w with
  | none => s
  | some v => s.flushL1 (s.coreOf v) (fun k => decide (k / 32 = key / 32)) true

/-- The release that a fut.wr makes at its scope can take effect (R174, R203). -/
def State.futReleased (s : State) (w seq scope : Nat) : Bool :=
  !(s.tagged w (futRel seq)) && (scope < scPkg || s.acked w)
  && (scope < scSys || !(s.inflight.any (fun m => match m with | .zeroLengthReadCompletion x _ => x == w | _ => false)))

/-- One operation on a future (R173). -/
def State.futureOp (w seq d : Nat) (op : FutOp) (key scope addr : Nat) (pc : BitVec 48) (word x1 x2 : W32) (s : State) :
    Host.Outcome State Fault Refusal :=
  match op, Tab.get? s.futures key with
  | .init, some (_ :: _) => .next (s.futFault w seq 0 addr pc word x1 x2)
  | .init, _ => .next (({ s with futures := Tab.set s.futures key [] }.putFut key 0 false false).fill w seq [])
  | _, none => .next (s.futFault w seq 1 addr pc word x1 x2)
  | .rd, some l =>
    if s.futFull key then
      (match s.wave? w with
        | none => .next s
        | some v => .next ((s.fill w seq (sOut d (s.pointRead (fun s k => s.homeRead k) key 8).1)).acqObj v scope { kind := 5, ident := addr }))
    else if (s.wave? w).isNone then .next s
    else .next ((({ s with futures := Tab.set s.futures key (l ++ [w]) }).putFut key 0 false true).block w (.future key seq d scope addr))
  | .wr v, some l =>
    if !(s.futReleased w seq scope) then .next (s.send [.futureOpAtHome w seq d (.wr v) key scope addr pc word x1 x2])
    else if s.futFull key then .next (s.fill w seq (sOut d stFULL))
    else
      let s1 := ({ s with futures := Tab.set s.futures key [] }.putFut key v true false).fill w seq (sOut d stOK)
      .next ((s1.wakeReaders v l).wsReady (.fut key))

/-- R172, R173: one operation at the home, in order of arrival. -/
def execFutureOpAtHome (w seq d : Nat) (op : FutOp) (key scope addr : Nat) (pc : BitVec 48) (word x1 x2 : W32) (s : State) :
    Host.Outcome State Fault Refusal :=
  State.futureOp w seq d op key scope addr pc word x1 x2 (s.dropFuture w key)

/-! ## Debug entries (R365-R368) -/

/-- R365: a comparator matches the instruction about to issue; with another wave in debug mode the match is suppressed. -/
def execDebugEntryBpc (w : Nat) (s : State) : Host.Outcome State Fault Refusal :=
  match s.wave? w with
  | none => .next s
  | some v => match v.run with
    | none => .next s
    | some r =>
      match s.bpcHits v r with
      | [] => .next s
      | i :: l =>
        let core := s.coreOf v
        if otherInDebug s w core then .next ((s.suppress core).modWave w (fun x => { x with skipBpc := true }))
        else .next (s.enterDebug w v (r.mask &&& v.live) r.pc (if r.issued = 0 then none else some r) false
          { cause := 1, index := i, matched := (i :: l).foldl (fun n j => n + 2 ^ j) 0 }
          ((i :: l).any (fun j => (s.dreg core (8 + j)).getLsbD 1)))

/-- R368: a remote hit enters at the member's next instruction boundary; while a run waits for its results it stays on its way. -/
def execWatchRemoteEntry (w index src lane addr kind : Nat) (s : State) : Host.Outcome State Fault Refusal :=
  match s.wave? w with
  | none => .next s
  | some v =>
    if v.dead then .next s
    else match v.entrant with
      | none => .next (s.send [.watchRemoteEntry w index src lane addr kind])
      | some (lanes, pc, fr, hd) =>
        let o := (s.wave? src).getD v
        .next (s.tryDebug w v lanes pc fr hd
          { cause := 3, index := index, remote := true, core := s.coreOf o, launch := o.launch.toNat, block := o.block.toNat
            thread := o.threadOf lane, addr := addr, kind := kind } ((s.dreg (s.coreOf v) (0x24 + index)).getLsbD 1))

/-! ## L1, router, TLB (R165, R183, R184, R195) -/

/-- R184: the L1 writes a line back, or evicts it, at a time of its choosing. -/
def execL1EarlyWriteback (core line : Nat) (evict : Bool) (s : State) : Host.Outcome State Fault Refusal :=
  .next (s.flushL1 core (fun k => lineOf k == line) evict)

/-- R183: a write that arrives through the cluster window, with the writer index of R235; only the sender's own process is reached. -/
def execClusterWindowAccess (src core x : Nat) (bytes : List Byte) (s : State) : Host.Outcome State Fault Refusal :=
  match s.wave? src with
  | none => .next s
  | some v => match s.crewAt core v.proc x with
    | none => .next s
    | some (k, c) =>
      let off := x - c.base * gran
      match blockTrap c { kind := aWRITE, size := bytes.length, align := 1 } off x with
      | some _ => .next s
      | none => .next (s.scratchStore k off bytes.length (ofBytes bytes) 0xFFFE).1

/-- A list of reductions that a router may merge: integer add, min, max, and, or and xor of 4 or 8 bytes, in global memory (R159, R165). -/
def mayMerge (key size op : Nat) : Bool := op ≤ 7 && (size == 4 || size == 8) && key % size == 0

/-- R165: no-return reductions of one location, merged or not: their effect is that of performing them one after another. -/
def execRouterAtomicArrival (key size op : Nat) (vals : List Nat) (s : State) : Host.Outcome State Fault Refusal :=
  .next (if !mayMerge key size op then s else vals.foldl (fun s b =>
    let (m, s1) := s.pointRead (fun s k => s.homeRead k) key size
    s1.pointWrite (fun s k x => s.homeWrite k x) key (bytesOf (atomNew op size m b 0) size)) s)

/-- R195, R474: the walk of an address completes and its leaf is installed, or it meets an uncorrectable error. -/
def execPageWalkComplete (core proc addr : Nat) (s : State) : Host.Outcome State Fault Refusal :=
  match s.proc? proc with
  | none => .next s
  | some p =>
    match s.tlbLook core p.asn.toNat addr with
    | (some _, s1) => .next s1
    | (none, _) => match s.walkMiss (coreDie core) p.asn.toNat p.ptroot.toNat addr with
      | (some key, _, s1) => .next (s1.hbmue (coreDie core) proc key)
      | (none, .leaf e key sz, s1) => .next (s1.install core p.asn.toNat addr e key sz).2
      | (none, .bad _, s1) => .next s1

end Sys2Proof.Machine
end

