-- ==== Sys2Proof/Machine/Dispatch.lean ====
section
/-!
DEFINITION. Sys2Proof/Machine/Dispatch.lean: one arm per instruction, each one direct call of its meaning.
-/

namespace Sys2Proof.Machine

def exec (i : Instr) (s : State) : Host.Outcome State Fault Refusal :=
  match i with
  | .add f => Sys2Proof.Machine.execAdd f s
  | .sub f => Sys2Proof.Machine.execSub f s
  | .mulLo f => Sys2Proof.Machine.execMulLo f s
  | .mulHiI32 f => Sys2Proof.Machine.execMulHiI32 f s
  | .mulHiN32 f => Sys2Proof.Machine.execMulHiN32 f s
  | .madLo f => Sys2Proof.Machine.execMadLo f s
  | .minI32 f => Sys2Proof.Machine.execMinI32 f s
  | .minN32 f => Sys2Proof.Machine.execMinN32 f s
  | .maxI32 f => Sys2Proof.Machine.execMaxI32 f s
  | .maxN32 f => Sys2Proof.Machine.execMaxN32 f s
  | .abs f => Sys2Proof.Machine.execAbs f s
  | .and f => Sys2Proof.Machine.execAnd f s
  | .or f => Sys2Proof.Machine.execOr f s
  | .xor f => Sys2Proof.Machine.execXor f s
  | .andn f => Sys2Proof.Machine.execAndn f s
  | .shl f => Sys2Proof.Machine.execShl f s
  | .shr f => Sys2Proof.Machine.execShr f s
  | .sra f => Sys2Proof.Machine.execSra f s
  | .rot f => Sys2Proof.Machine.execRot f s
  | .bfe f => Sys2Proof.Machine.execBfe f s
  | .bfi f => Sys2Proof.Machine.execBfi f s
  | .popc f => Sys2Proof.Machine.execPopc f s
  | .clz f => Sys2Proof.Machine.execClz f s
  | .brev f => Sys2Proof.Machine.execBrev f s
  | .addI64 f => Sys2Proof.Machine.execAddI64 f s
  | .subI64 f => Sys2Proof.Machine.execSubI64 f s
  | .mulWideI32 f => Sys2Proof.Machine.execMulWideI32 f s
  | .mulWideN32 f => Sys2Proof.Machine.execMulWideN32 f s
  | .divI32 f => Sys2Proof.Machine.execDivI32 f s
  | .divN32 f => Sys2Proof.Machine.execDivN32 f s
  | .remI32 f => Sys2Proof.Machine.execRemI32 f s
  | .remN32 f => Sys2Proof.Machine.execRemN32 f s
  | .cmpI32 f => Sys2Proof.Machine.execCmpI32 f s
  | .cmpN32 f => Sys2Proof.Machine.execCmpN32 f s
  | .cmpF32 f => Sys2Proof.Machine.execCmpF32 f s
  | .cmpF64 f => Sys2Proof.Machine.execCmpF64 f s
  | .pr f => Sys2Proof.Machine.execPr f s
  | .sel f => Sys2Proof.Machine.execSel f s
  | .mov f => Sys2Proof.Machine.execMov f s
  | .addF32 f => Sys2Proof.Machine.execAddF32 f s
  | .subF32 f => Sys2Proof.Machine.execSubF32 f s
  | .mulF32 f => Sys2Proof.Machine.execMulF32 f s
  | .fmaF32 f => Sys2Proof.Machine.execFmaF32 f s
  | .minF32 f => Sys2Proof.Machine.execMinF32 f s
  | .maxF32 f => Sys2Proof.Machine.execMaxF32 f s
  | .absF32 f => Sys2Proof.Machine.execAbsF32 f s
  | .negF32 f => Sys2Proof.Machine.execNegF32 f s
  | .addF64 f => Sys2Proof.Machine.execAddF64 f s
  | .mulF64 f => Sys2Proof.Machine.execMulF64 f s
  | .fmaF64 f => Sys2Proof.Machine.execFmaF64 f s
  | .minF64 f => Sys2Proof.Machine.execMinF64 f s
  | .maxF64 f => Sys2Proof.Machine.execMaxF64 f s
  | .add2Bf16 f => Sys2Proof.Machine.execAdd2Bf16 f s
  | .mul2Bf16 f => Sys2Proof.Machine.execMul2Bf16 f s
  | .fma2Bf16 f => Sys2Proof.Machine.execFma2Bf16 f s
  | .add2F16 f => Sys2Proof.Machine.execAdd2F16 f s
  | .mul2F16 f => Sys2Proof.Machine.execMul2F16 f s
  | .fma2F16 f => Sys2Proof.Machine.execFma2F16 f s
  | .cvt f => Sys2Proof.Machine.execCvt f s
  | .packP8 f => Sys2Proof.Machine.execPackP8 f s
  | .unpackP8 f => Sys2Proof.Machine.execUnpackP8 f s
  | .rcpF32 f => Sys2Proof.Machine.execRcpF32 f s
  | .rsqF32 f => Sys2Proof.Machine.execRsqF32 f s
  | .sqrtF32 f => Sys2Proof.Machine.execSqrtF32 f s
  | .ex2F32 f => Sys2Proof.Machine.execEx2F32 f s
  | .lg2F32 f => Sys2Proof.Machine.execLg2F32 f s
  | .sinPiF32 f => Sys2Proof.Machine.execSinPiF32 f s
  | .cosPiF32 f => Sys2Proof.Machine.execCosPiF32 f s
  | .tanhF32 f => Sys2Proof.Machine.execTanhF32 f s
  | .shflIdx f => Sys2Proof.Machine.execShflIdx f s
  | .shflUp f => Sys2Proof.Machine.execShflUp f s
  | .shflDown f => Sys2Proof.Machine.execShflDown f s
  | .shflXor f => Sys2Proof.Machine.execShflXor f s
  | .voteAny f => Sys2Proof.Machine.execVoteAny f s
  | .voteAll f => Sys2Proof.Machine.execVoteAll f s
  | .voteBallot f => Sys2Proof.Machine.execVoteBallot f s
  | .reduxAdd f => Sys2Proof.Machine.execReduxAdd f s
  | .reduxMin f => Sys2Proof.Machine.execReduxMin f s
  | .reduxMax f => Sys2Proof.Machine.execReduxMax f s
  | .matchB32 f => Sys2Proof.Machine.execMatchB32 f s
  | .histAdd f => Sys2Proof.Machine.execHistAdd f s
  | .histMerge f => Sys2Proof.Machine.execHistMerge f s
  | .ld f => Sys2Proof.Machine.execLd f s
  | .st f => Sys2Proof.Machine.execSt f s
  | .ldPoll f => Sys2Proof.Machine.execLdPoll f s
  | .atom f => Sys2Proof.Machine.execAtom f s
  | .atomNr f => Sys2Proof.Machine.execAtomNr f s
  | .cas128 f => Sys2Proof.Machine.execCas128 f s
  | .ldp f => Sys2Proof.Machine.execLdp f s
  | .pf f => Sys2Proof.Machine.execPf f s
  | .brp f => Sys2Proof.Machine.execBrp f s
  | .winAdv f => Sys2Proof.Machine.execWinAdv f s
  | .vget f => Sys2Proof.Machine.execVget f s
  | .vset f => Sys2Proof.Machine.execVset f s
  | .sAdd f => Sys2Proof.Machine.execSAdd f s
  | .sSub f => Sys2Proof.Machine.execSSub f s
  | .sMul f => Sys2Proof.Machine.execSMul f s
  | .sAnd f => Sys2Proof.Machine.execSAnd f s
  | .sOr f => Sys2Proof.Machine.execSOr f s
  | .sXor f => Sys2Proof.Machine.execSXor f s
  | .sShl f => Sys2Proof.Machine.execSShl f s
  | .sShr f => Sys2Proof.Machine.execSShr f s
  | .sSra f => Sys2Proof.Machine.execSSra f s
  | .sMinI64 f => Sys2Proof.Machine.execSMinI64 f s
  | .sMinN64 f => Sys2Proof.Machine.execSMinN64 f s
  | .sMaxI64 f => Sys2Proof.Machine.execSMaxI64 f s
  | .sMaxN64 f => Sys2Proof.Machine.execSMaxN64 f s
  | .sMov f => Sys2Proof.Machine.execSMov f s
  | .sCmpI64 f => Sys2Proof.Machine.execSCmpI64 f s
  | .sCmpN64 f => Sys2Proof.Machine.execSCmpN64 f s
  | .sSel f => Sys2Proof.Machine.execSSel f s
  | .br f => Sys2Proof.Machine.execBr f s
  | .bz f => Sys2Proof.Machine.execBz f s
  | .bnz f => Sys2Proof.Machine.execBnz f s
  | .bneg f => Sys2Proof.Machine.execBneg f s
  | .call f => Sys2Proof.Machine.execCall f s
  | .jmp f => Sys2Proof.Machine.execJmp f s
  | .fibSpawn f => Sys2Proof.Machine.execFibSpawn f s
  | .fibEnd f => Sys2Proof.Machine.execFibEnd f s
  | .mkJoin f => Sys2Proof.Machine.execMkJoin f s
  | .mkLeave f => Sys2Proof.Machine.execMkLeave f s
  | .mkWait f => Sys2Proof.Machine.execMkWait f s
  | .mkMovToMask f => Sys2Proof.Machine.execMkMovToMask f s
  | .mkMovFromMask f => Sys2Proof.Machine.execMkMovFromMask f s
  | .mkCur f => Sys2Proof.Machine.execMkCur f s
  | .sld f => Sys2Proof.Machine.execSld f s
  | .sst f => Sys2Proof.Machine.execSst f s
  | .satom f => Sys2Proof.Machine.execSatom f s
  | .fenceRel f => Sys2Proof.Machine.execFenceRel f s
  | .fenceAcq f => Sys2Proof.Machine.execFenceAcq f s
  | .fenceAr f => Sys2Proof.Machine.execFenceAr f s
  | .ecBind f => Sys2Proof.Machine.execEcBind f s
  | .ecDrop f => Sys2Proof.Machine.execEcDrop f s
  | .waitAddr f => Sys2Proof.Machine.execWaitAddr f s
  | .futInit f => Sys2Proof.Machine.execFutInit f s
  | .futRd f => Sys2Proof.Machine.execFutRd f s
  | .futWr f => Sys2Proof.Machine.execFutWr f s
  | .crewJoin f => Sys2Proof.Machine.execCrewJoin f s
  | .crewLeave f => Sys2Proof.Machine.execCrewLeave f s
  | .nbArrive f => Sys2Proof.Machine.execNbArrive f s
  | .nbSync f => Sys2Proof.Machine.execNbSync f s
  | .nbWait f => Sys2Proof.Machine.execNbWait f s
  | .plCfg f => Sys2Proof.Machine.execPlCfg f s
  | .plJoin f => Sys2Proof.Machine.execPlJoin f s
  | .plJoinDrop f => Sys2Proof.Machine.execPlJoinDrop f s
  | .step f => Sys2Proof.Machine.execStep f s
  | .lkAcq f => Sys2Proof.Machine.execLkAcq f s
  | .lkTry f => Sys2Proof.Machine.execLkTry f s
  | .lkRel f => Sys2Proof.Machine.execLkRel f s
  | .mxGang f => Sys2Proof.Machine.execMxGang f s
  | .mxIssue f => Sys2Proof.Machine.execMxIssue f s
  | .mxDrain f => Sys2Proof.Machine.execMxDrain f s
  | .mxZero f => Sys2Proof.Machine.execMxZero f s
  | .omClaim f => Sys2Proof.Machine.execOmClaim f s
  | .omRel f => Sys2Proof.Machine.execOmRel f s
  | .cpIssue f => Sys2Proof.Machine.execCpIssue f s
  | .tokWait f => Sys2Proof.Machine.execTokWait f s
  | .tokTest f => Sys2Proof.Machine.execTokTest f s
  | .qBind f => Sys2Proof.Machine.execQBind f s
  | .qPop f => Sys2Proof.Machine.execQPop f s
  | .qFree f => Sys2Proof.Machine.execQFree f s
  | .eqFence f => Sys2Proof.Machine.execEqFence f s
  | .wvNew f => Sys2Proof.Machine.execWvNew f s
  | .wvExit f => Sys2Proof.Machine.execWvExit f s
  | .wvJoin f => Sys2Proof.Machine.execWvJoin f s
  | .wvYield f => Sys2Proof.Machine.execWvYield f s
  | .wvPrio f => Sys2Proof.Machine.execWvPrio f s
  | .hDup f => Sys2Proof.Machine.execHDup f s
  | .hClose f => Sys2Proof.Machine.execHClose f s
  | .hInfo f => Sys2Proof.Machine.execHInfo f s
  | .wsNew f => Sys2Proof.Machine.execWsNew f s
  | .wsAdd f => Sys2Proof.Machine.execWsAdd f s
  | .wsDel f => Sys2Proof.Machine.execWsDel f s
  | .wsWait f => Sys2Proof.Machine.execWsWait f s
  | .wsPoll f => Sys2Proof.Machine.execWsPoll f s
  | .tmNew f => Sys2Proof.Machine.execTmNew f s
  | .tmArm f => Sys2Proof.Machine.execTmArm f s
  | .tmStop f => Sys2Proof.Machine.execTmStop f s
  | .ptNew f => Sys2Proof.Machine.execPtNew f s
  | .ptSend f => Sys2Proof.Machine.execPtSend f s
  | .ptRecv f => Sys2Proof.Machine.execPtRecv f s
  | .ptTry f => Sys2Proof.Machine.execPtTry f s
  | .pgPull f => Sys2Proof.Machine.execPgPull f s
  | .nmPub f => Sys2Proof.Machine.execNmPub f s
  | .nmDrop f => Sys2Proof.Machine.execNmDrop f s
  | .nmLook f => Sys2Proof.Machine.execNmLook f s
  | .tqPush f => Sys2Proof.Machine.execTqPush f s
  | .sysCall f => Sys2Proof.Machine.execSysCall f s
  | .srRd f => Sys2Proof.Machine.execSrRd f s
  | .srWr f => Sys2Proof.Machine.execSrWr f s
  | .nop f => Sys2Proof.Machine.execNop f s
  | .trap f => Sys2Proof.Machine.execTrap f s
  | .brk f => Sys2Proof.Machine.execBrk f s
  | .rfe f => Sys2Proof.Machine.execRfe f s
  | .dbgRd f => Sys2Proof.Machine.execDbgRd f s
  | .dbgWr f => Sys2Proof.Machine.execDbgWr f s
  | .runStart w => Sys2Proof.Machine.execRunStart w s
  | .varResultReturn w n => Sys2Proof.Machine.execVarResultReturn w n s
  | .unassignedOpcode w0 w1 w2 => Sys2Proof.Machine.execUnassignedOpcode w0 w1 w2 s
  | .writeRefusalArrival w run r => Sys2Proof.Machine.execWriteRefusalArrival w run r s
  | .ldPollReread w n => Sys2Proof.Machine.execLdPollReread w n s
  | .ackArrival id => Sys2Proof.Machine.execAckArrival id s
  | .portMessageEnqueue port gen msg ret => Sys2Proof.Machine.execPortMessageEnqueue port gen msg ret s
  | .futureOpAtHome w seq d op key scope addr pc word x1 x2 => Sys2Proof.Machine.execFutureOpAtHome w seq d op key scope addr pc word x1 x2 s
  | .lockRequestAtHome w seq d line try_ timeout => Sys2Proof.Machine.execLockRequestAtHome w seq d line try_ timeout s
  | .lockReleaseAtHome w line => Sys2Proof.Machine.execLockReleaseAtHome w line s
  | .lockGrantArrival w line status => Sys2Proof.Machine.execLockGrantArrival w line status s
  | .nonholderWriteAtHome w key bytes => Sys2Proof.Machine.execNonholderWriteAtHome w key bytes s
  | .nameOpAtAuthority w seq d name op => Sys2Proof.Machine.execNameOpAtAuthority w seq d name op s
  | .nameCacheInvalidate die name tenant => Sys2Proof.Machine.execNameCacheInvalidate die name tenant s
  | .shootdownRequest id die => Sys2Proof.Machine.execShootdownRequest id die s
  | .shootdownComplete id => Sys2Proof.Machine.execShootdownComplete id s
  | .shadowSwapDone crew => Sys2Proof.Machine.execShadowSwapDone crew s
  | .caveRestoreDone crew => Sys2Proof.Machine.execCaveRestoreDone crew s
  | .sampleRecordWrite core rec_ => Sys2Proof.Machine.execSampleRecordWrite core rec_ s
  | .watchRemoteEntry w index src lane addr kind => Sys2Proof.Machine.execWatchRemoteEntry w index src lane addr kind s
  | .stopEffect core => Sys2Proof.Machine.execStopEffect core s
  | .snapshotLatch die => Sys2Proof.Machine.execSnapshotLatch die s
  | .taskComplete die kind ix node succ proc crew => Sys2Proof.Machine.execTaskComplete die kind ix node succ proc crew s
  | .zeroLengthReadCompletion w port => Sys2Proof.Machine.execZeroLengthReadCompletion w port s
  | .bisnpResponse line => Sys2Proof.Machine.execBisnpResponse line s
  | .writeBack die line => Sys2Proof.Machine.execWriteBack die line s
  | .writeBackAck die line => Sys2Proof.Machine.execWriteBackAck die line s
  | .passBroadcast src die pass => Sys2Proof.Machine.execPassBroadcast src die pass s
  | .lapseBroadcast src die => Sys2Proof.Machine.execLapseBroadcast src die s
  | .pgPullPageDone w => Sys2Proof.Machine.execPgPullPageDone w s
  | .queueRecordTake id => Sys2Proof.Machine.execQueueRecordTake id s
  | .onReady die => Sys2Proof.Machine.execOnReady die s
  | .onSlotFree die => Sys2Proof.Machine.execOnSlotFree die s
  | .onPreemptRequest die crew reason => Sys2Proof.Machine.execOnPreemptRequest die crew reason s
  | .onBalance die => Sys2Proof.Machine.execOnBalance die s
  | .launchPortRecordLaunch port => Sys2Proof.Machine.execLaunchPortRecordLaunch port s
  | .debugEntryBpc w => Sys2Proof.Machine.execDebugEntryBpc w s
  | .omClaimGrant w => Sys2Proof.Machine.execOmClaimGrant w s
  | .readForOwnership die line => Sys2Proof.Machine.execReadForOwnership die line s
  | .upgrade die line => Sys2Proof.Machine.execUpgrade die line s
  | .dieReset die => Sys2Proof.Machine.execDieReset die s
  | .crewPlacement core => Sys2Proof.Machine.execCrewPlacement core s
  | .crewDeschedule crew => Sys2Proof.Machine.execCrewDeschedule crew s
  | .graphReplayStart die g => Sys2Proof.Machine.execGraphReplayStart die g s
  | .timerExpiry id => Sys2Proof.Machine.execTimerExpiry id s
  | .pageWalkComplete core proc addr => Sys2Proof.Machine.execPageWalkComplete core proc addr s
  | .l1EarlyWriteback core line evict => Sys2Proof.Machine.execL1EarlyWriteback core line evict s
  | .clusterWindowAccess src core x bytes => Sys2Proof.Machine.execClusterWindowAccess src core x bytes s
  | .routerAtomicArrival key size op vals => Sys2Proof.Machine.execRouterAtomicArrival key size op vals s
  | .ackTimeout id => Sys2Proof.Machine.execAckTimeout id s
  | .readShared die line => Sys2Proof.Machine.execReadShared die line s
  | .recallArrival line => Sys2Proof.Machine.execRecall line s
  | .hostSnoop die line => Sys2Proof.Machine.execHostSnoop die line s
  | .hostCxlMemRead addr n => Sys2Proof.Machine.execHostCxlMemRead addr n s
  | .hostCxlMemWrite addr bytes => Sys2Proof.Machine.execHostCxlMemWrite addr bytes s
  | .hostBar2Read port addr n => Sys2Proof.Machine.execHostBar2Read port addr n s
  | .hostBar2Write port addr bytes => Sys2Proof.Machine.execHostBar2Write port addr bytes s
  | .hostAtomicop port addr op size b cmp => Sys2Proof.Machine.execHostAtomicop port addr op size b cmp s
  | .remotePageRead node key => Sys2Proof.Machine.execRemotePageRead node key s
  | .remotePageWrite node key bytes => Sys2Proof.Machine.execRemotePageWrite node key bytes s
  | .remotePageAtomic node key op size b cmp => Sys2Proof.Machine.execRemotePageAtomic node key op size b cmp s
  | .pageInvalidate node page => Sys2Proof.Machine.execPageInvalidate node page s
  | .pagePinWindowEnd page => Sys2Proof.Machine.execPagePinWindowEnd page s
  | .pageInvalTimeout node page => Sys2Proof.Machine.execPageInvalTimeout node page s
  | .lockTimeout w line => Sys2Proof.Machine.execLockTimeout w line s
  | .wsWaitTimeout w => Sys2Proof.Machine.execWsWaitTimeout w s
  | .starveAging crew => Sys2Proof.Machine.execStarveAging crew s
  | .mxOperationStart core => Sys2Proof.Machine.execMxOperationStart core s
  | .mxOperationPerformed core => Sys2Proof.Machine.execMxOperationPerformed core s
  | .mxZeroPerform core => Sys2Proof.Machine.execMxZeroPerform core s
  | .drainStart core => Sys2Proof.Machine.execDrainStart core s
  | .drainPerformed core => Sys2Proof.Machine.execDrainPerformed core s
  | .copyCommandStart core q => Sys2Proof.Machine.execCopyCommandStart core q s
  | .copyCommandPerformed core q => Sys2Proof.Machine.execCopyCommandPerformed core q s
  | .copySignalWrite core q => Sys2Proof.Machine.execCopySignalWrite core q s
  | .place die cand core => Sys2Proof.Machine.execPlace die cand core s
  | .migrate die src dst count => Sys2Proof.Machine.execMigrate die src dst count s
  | .preempt die crew reason => Sys2Proof.Machine.execPreempt die crew reason s
  | .preemptPartition die cluster mask => Sys2Proof.Machine.execPreemptPartition die cluster mask s
  | .distwdog die => Sys2Proof.Machine.execDistwdog die s
  | .distfault die sub mepc => Sys2Proof.Machine.execDistfault die sub mepc s
  | .microcodeInstall die ok image => Sys2Proof.Machine.execMicrocodeInstall die ok image s
  | .pnew who die arg0 => Sys2Proof.Machine.execPnew who die arg0 s
  | .suspend who die h => Sys2Proof.Machine.execSuspend who die h s
  | .resume who die h => Sys2Proof.Machine.execResume who die h s
  | .kill who die h => Sys2Proof.Machine.execKill who die h s
  | .shoot who die asn addr pages flags => Sys2Proof.Machine.execShoot who die asn addr pages flags s
  | .readCmd who die h pa => Sys2Proof.Machine.execReadCmd who die h pa s
  | .pool who die pa n => Sys2Proof.Machine.execPool who die pa n s
  | .orphan who die => Sys2Proof.Machine.execOrphan who die s
  | .unknownCommand who die code => Sys2Proof.Machine.execUnknownCommand who die code s
  | .gkick who die v => Sys2Proof.Machine.execGkick who die v s
  | .gload who die v => Sys2Proof.Machine.execGload who die v s
  | .tqreg who die v => Sys2Proof.Machine.execTqreg who die v s
  | .leaseTake port term => Sys2Proof.Machine.execLeaseTake port term s
  | .leaseTakeNoexp port => Sys2Proof.Machine.execLeaseTakeNoexp port s
  | .leaseRelease port => Sys2Proof.Machine.execLeaseRelease port s
  | .leaseExpiry linkDown => Sys2Proof.Machine.execLeaseExpiry linkDown s
  | .fmtwinWrite who die off v => Sys2Proof.Machine.execFmtwinWrite who die off v s
  | .plimitWrite who die v => Sys2Proof.Machine.execPlimitWrite who die v s
  | .trlognWrite who die v => Sys2Proof.Machine.execTrlognWrite who die v s
  | .dload who die v => Sys2Proof.Machine.execDload who die v s
  | .strokeWrite who die v => Sys2Proof.Machine.execStrokeWrite who die v s
  | .heartbeatWrite die src count => Sys2Proof.Machine.execHeartbeatWrite die src count s
  | .qreq who die => Sys2Proof.Machine.execQreq who die s
  | .quoteComplete die sig => Sys2Proof.Machine.execQuoteComplete die sig s
  | .contclr who die v => Sys2Proof.Machine.execContclr who die v s
  | .diereset who die v => Sys2Proof.Machine.execDiereset who die v s
  | .sampctlWrite who core v => Sys2Proof.Machine.execSampctlWrite who core v s
  | .wdataAccess who core write v => Sys2Proof.Machine.execWdataAccess who core write v s
  | .stoprel who core => Sys2Proof.Machine.execStoprel who core s
  | .dbgctlResume who core v => Sys2Proof.Machine.execDbgctlResume who core v s
  | .snapgo who die => Sys2Proof.Machine.execSnapgo who die s
  | .snapclr who die => Sys2Proof.Machine.execSnapclr who die s
  | .registerWrite who die off v => Sys2Proof.Machine.execRegisterWrite who die off v s
  | .entdaa addr => Sys2Proof.Machine.execEntdaa addr s
  | .snaptrig => Sys2Proof.Machine.execSnaptrig s
  | .quote nonce => Sys2Proof.Machine.execQuote nonce s
  | .fundamentalReset port => Sys2Proof.Machine.execFundamentalReset port s
  | .selfTestDone die err => Sys2Proof.Machine.execSelfTestDone die err s
  | .firmwareVerifyDone die err body => Sys2Proof.Machine.execFirmwareVerifyDone die err body s
  | .electionTimeout die => Sys2Proof.Machine.execElectionTimeout die s
  | .heartbeatLapse die => Sys2Proof.Machine.execHeartbeatLapse die s
  | .powerStepChange die step => Sys2Proof.Machine.execPowerStepChange die step s
  | .hostLinkDown port => Sys2Proof.Machine.execHostLinkDown port s
  | .scrubTick die structure_ corrected addr => Sys2Proof.Machine.execScrubTick die structure_ corrected addr s
  | .rfpoison w lane row => Sys2Proof.Machine.execRfpoison w lane row s
  | .sramue die cluster structure_ bank => Sys2Proof.Machine.execSramue die cluster structure_ bank s
  | .lockstep die sub => Sys2Proof.Machine.execLockstep die sub s
  | .linkdown die link => Sys2Proof.Machine.execLinkdown die link s
  | .meshEdgeFailure die edge => Sys2Proof.Machine.execMeshEdgeFailure die edge s
  | .hbmStackFailure die stack => Sys2Proof.Machine.execHbmStackFailure die stack s
  | .systemCallReply w value => Sys2Proof.Machine.execSystemCallReply w value s
  | .linkFailure link => Sys2Proof.Machine.execLinkFailure link s
  | .linkBroughtUp link node => Sys2Proof.Machine.execLinkBroughtUp link node s
  | .thermalPowerAlert => Sys2Proof.Machine.execThermalPowerAlert s

end Sys2Proof.Machine
end

