-- ==== Sys2Proof/Machine/Fetch.lean ====
section
/-!
DEFINITION. Sys2Proof/Machine/Fetch.lean: fetching an instruction's words, the choice of the next action, and loading a program
(spec/03_encoding_and_assembly.md R45, R53, spec/23_memory_lock_plane_and_engine_faults.md R430, R432; log 2, log 9).
-/

namespace Sys2Proof.Machine

/-! ## Fetch (R45, R432) -/

/-- Fetch one word for a wave: translated for execution, read at the home. -/
def State.fetchWord (s : State) (v : Wave) (a : BitVec 48) : Except Trap W32 × State :=
  match s.resolve v 0 { kind := aFETCH, size := 4, align := 4, globalOnly := true } false a.toNat with
  | (.error t, s1) => (.error t, s1)
  | (.ok (.glob p), s1) => let (n, s2) := s1.pointRead (fun s k => s.homeRead k) p.key 4; (.ok (BitVec.ofNat 32 n), s2)
  | (.ok _, s1) => (.error (accTrap cSPACE aFETCH 3 false a.toNat), s1)

/-- Words that an instruction has, by its first word (R53); 0 where the word is no instruction. -/
def wordCount (w : W32) : Nat :=
  match decode w 0 0 with
  | .ok i => (encode i).length
  | .error _ => 0

/-- A word after one that is no instruction: it reads 0 where it cannot be fetched (R407). -/
def State.peekWord (s : State) (v : Wave) (a : BitVec 48) : W32 × State :=
  match s.fetchWord v a with
  | (.error _, s1) => (0, s1)
  | (.ok w, s1) => (w, s1)

/-- Fetch the words after the first; those that the instruction does not have read 0. -/
def State.fetchMore (s : State) (v : Wave) (a : BitVec 48) (w : W32) : Except Trap (W32 × W32 × W32) × State :=
  if wordCount w = 0 then
    let (w1, s1) := s.peekWord v (a + 4#48)
    let (w2, s2) := s1.peekWord v (a + 8#48)
    (.ok (w, w1, w2), s2)
  else if wordCount w = 1 then (.ok (w, 0, 0), s)
  else match s.fetchWord v (a + 4#48) with
    | (.error t, s1) => (.error t, s1)
    | (.ok w1, s1) =>
      if wordCount w ≤ 2 then (.ok (w, w1, 0), s1)
      else match s1.fetchWord v (a + 8#48) with
        | (.error t, s2) => (.error t, s2)
        | (.ok w2, s2) => (.ok (w, w1, w2), s2)

/-- The words at an address. -/
def State.fetch (s : State) (v : Wave) (a : BitVec 48) : Except Trap (W32 × W32 × W32) × State :=
  match s.fetchWord v a with
  | (.error t, s1) => (.error t, s1)
  | (.ok w, s1) => s1.fetchMore v a w

/-! ## The next action (log 2) -/

/-- What a wave would do next by itself. -/
def State.waveTurn (s : State) (w : Nat) (v : Wave) : Option Turn :=
  if v.stepState = 2 && !v.dead && s.isResident v && v.stepper.isSome then some (.event (.runStart w))
  else match v.run with
  | some r =>
    if !r.ended then (if v.stopped || v.stepState = 2 then none else some (.issue w))
    else match r.pending.find? (fun x => x.left.isNone && !x.back && x.ready) with
      | some x => some (.event (.varResultReturn w x.seq))
      | none => if s.closable w v r then some (.event (.runStart w)) else none
  | none =>
    if s.mayStart v && (v.resume.isSome || (v.nextBatch).isSome) then some (.event (.runStart w)) else none

/-- The oldest event of a distributor that runs, or its period of on_balance (R337). -/
def State.hookTurn (s : State) (d : Nat) : Option Turn :=
  if (s.dist d).halted || (s.die d).contained then none
  else match (s.dist d).fifo with
    | [] => if s.passed d && decide ((s.dist d).balper ≤ s.tickOf d - (s.dist d).lastBal) then some (.event (.onBalance d)) else none
    | (0, _, _) :: _ => some (.event (.onReady d))
    | (1, _, _) :: _ => some (.event (.onSlotFree d))
    | (2, a, b) :: _ => some (.event (.onPreemptRequest d a b))
    | _ :: _ => some (.event (.onBalance d))

/-- A crew that leaves its core: pre-empted or spun out (R42, R343). -/
def State.leaveTurn (s : State) (c : Nat) (k : Crew) : Option Turn :=
  if s.canLeave c && (k.preempt.isSome || (s.together c).all s.spunOut) then
    some (.event (.crewDeschedule c)) else none

/-- A deadline that has passed (R239, R305, R306, R464, R466, R224). -/
def State.dueTurn (s : State) : Option Turn :=
  match s.timers.find? (fun e => e.2.armed && decide (e.2.deadline ≤ s.tickOf (objDie e.1))) with
  | some (id, _) => some (.event (.timerExpiry id))
  | none =>
    match s.waves.find? (fun e => match e.2.wait with
        | some (.waitSet id _ _ _ (some t)) => decide (t ≤ s.tickOf (objDie id))
        | _ => false) with
    | some (w, _) => some (.waitDue w)
    | none =>
      match s.locks.findSome? (fun e => (e.2.queue.find? (fun q => match q.deadline with
          | some t => decide (t ≤ s.tickOf (lineDie e.1))
          | none => false)).map (fun q => (q.wave, e.1))) with
      | some (w, l) => some (.lockDue w l)
      | none =>
        match s.crews.find? (fun e =>
            let d := coreDie e.2.core
            s.runq.contains e.1 && s.reg d 0xC0020 != 0 && decide (s.reg d 0xC0020 * (e.2.starved + 1) ≤ s.tickOf d - e.2.runnableAt)) with
        | some (c, _) => some (.starveDue c)
        | none =>
          if s.leaseOver then some (.leaseDue false) else if s.leaseCut then some (.leaseDue true)
          else match s.pages.find? (fun e => s.pinOver e.1) with
            | some (g, _) => some (.pinDue g)
            | none => (s.waves.find? (fun e => s.killOver e.1 e.2)).map (fun e => .killDue e.1)

/-- What the Muhan units, the distributors and the engines would do by themselves. -/
def State.kernelTurn (s : State) : Option Turn :=
  match s.engineTurn with
  | some (c, q) => some (.engine c q)
  | none => match (List.range 8).findSome? s.hookTurn with
    | some t => some t
    | none => match s.tqs.find? (fun e => s.takeable e.2 && !(s.tableFull e.2.die && s.awaits e.2.die 0 e.2.ix 0)) with
      | some (id, _) => some (.event (.queueRecordTake id))
      | none => match s.crews.findSome? (fun e => s.leaveTurn e.1 e.2) with
        | some t => some t
        | none => match s.runq.findSome? (fun c => match s.crew? c with
            | some k => if (s.placeCrew c).isSome then ((crewCores k.core).find? (fun x => s.comesTo x c)).map (fun x => Turn.event (.crewPlacement x)) else none
            | none => none) with
          | some t => some t
          | none => s.dueTurn

/-- What waves and units would do by themselves, waves in turn. -/
def State.unitTurn (s : State) : Option Turn :=
  let wave := (rotate s.waves (s.steps / 4)).findSome? (fun e => s.waveTurn e.1 e.2)
  if s.steps / 2 % 2 = 0 then (match wave with | some t => some t | none => s.kernelTurn)
  else (match s.kernelTurn with | some t => some t | none => wave)

/-- A message that waits because the die that it goes to serves no request (R403, R451). -/
def State.heldUp (s : State) (m : Instr) : Bool :=
  let shut := fun (d : Nat) => (s.die d).contained
  match m with
  | .lockRequestAtHome _ _ _ line _ _ => shut (lineDie line)
  | .lockReleaseAtHome _ line => shut (lineDie line)
  | .nonholderWriteAtHome _ key _ => tracked key && shut (keyDie key)
  | .futureOpAtHome _ _ _ _ key _ _ _ _ _ _ => shut (keyDie key)
  | .portMessageEnqueue port _ m _ => shut (objDie port) || !(s.msgReady port m)
  | .readForOwnership _ line => shut (lineDie line)
  | .upgrade _ line => shut (lineDie line)
  | .writeBack _ line => shut (lineDie line)
  | _ => false

/-- The action taken when nothing outside has named one: messages and units in turn (log 2). -/
def State.ownTurn (s : State) : Option Turn :=
  let msg : Option Turn := (s.inflight.findIdx? (fun m => !s.heldUp m)).map Turn.deliver
  if s.steps % 2 = 0 then (match msg with | some t => some t | none => s.unitTurn)
  else (match s.unitTurn with | some t => some t | none => msg)

/-- Two messages of which the first must arrive first: sends of one wave to one port (R310), writes of one wave to one line. -/
def ordered (a b : Instr) : Bool :=
  match a, b with
  | .portMessageEnqueue p _ m _, .portMessageEnqueue q _ n _ => p == q && m.wave == n.wave && m.die == n.die && m.record == n.record
  | .nonholderWriteAtHome w k _, .nonholderWriteAtHome x l _ => w == x && lineOf k == lineOf l
  | _, _ => false

/-- The message that arrives when the n-th is named: the earliest that must precede it, or itself. -/
def State.arrival (s : State) (n : Nat) : Nat :=
  match s.inflight[n]? with
  | none => n
  | some m => (((List.range n).filter (fun i => match s.inflight[i]? with | some x => ordered x m | none => false)).head?).getD n

/-! ## Loading a program (log 9) -/

/-- Page tables for the loader: root at frame 1, one table at frame 2, one leaf of 1 GiB that maps virtual 0 to physical 0. -/
def loadTables (m : List Host.Cell) : List Host.Cell :=
  memWriteBytes (memWriteBytes m 0x1000 (bytesOf (2 * 4096 + 1) 8)) 0x2000 (bytesOf 0x3F 8)

/-- A process, a crew of one resident on core 0 and a wave of width 16, at one virtual address. -/
def loadProc : Proc := { die := 0, ptroot := 1 }
def loadCrew : Crew := { proc := 1, core := 0, slot := 0, newBase := false, members := [(0, 3)], spawn := 16, place := .resident }
def loadAddr : Nat := 0x10000
def loadWave : Wave :=
  { proc := 1, crew := 2, member := 0, die := 0, width := 16, nvregs := 64
    fibres := (List.range 16).map (fun l => (l, { pc := va loadAddr, thread := BitVec.ofNat 16 l }))
    run := some { mask := laneMask 16, start := va loadAddr, pc := va loadAddr } }

/-- Place the words of one instruction and make the wave that issues it next. -/
def State.load (s : State) (bytes : List Byte) : State :=
  { s with
    mem := memWriteBytes (loadTables s.mem) loadAddr bytes
    procs := Tab.set s.procs 1 loadProc
    crews := Tab.set s.crews 2 loadCrew
    waves := Tab.set s.waves 3 loadWave
    objs := Tab.set (Tab.set (Tab.set s.objs 1 { kind := kPROC, owner := 1 }) 2 { kind := kCREW, owner := 1 }) 3 { kind := kWAVE, owner := 1 }
    agenda := [.issue 3] }

end Sys2Proof.Machine
end

