-- ==== Sys2Proof/Machine/Step.lean ====
section
/-!
DEFINITION. Sys2Proof/Machine/Step.lean: one step of the package: clocks pass, and one indivisible action happens (log 2): a message arrives, an
event happens, or a wave issues the instruction at its run's PC.
-/

namespace Sys2Proof.Machine

/-- Time passes by an amount the spec leaves open (R145, log 3). -/
def State.tickClock (s : State) : State :=
  { s with
    ticks := s.ticks + Config.tickAdvance s.steps
    cycles := s.cycles + Config.cycleAdvance s.steps
    steps := s.steps + 1 }

/-- A wave issues the instruction at its run's PC: comparators first (R365), then the fetch (R432), then the instruction. -/
def issueStep (w : Nat) (s : State) : Host.Outcome State Fault Refusal :=
  let s0 : State := { s with turn := w }
  match s0.issuer with
  | none => .next s0
  | some (v, r) =>
    if s0.bpcHits v r != [] then exec (.debugEntryBpc w) s0
    else match s0.fetch v r.pc with
      | (.error t, s1) => .next (s1.issueTrap w v r t { pc := r.pc })
      | (.ok (w0, w1, w2), s1) => match decode w0 w1 w2 with
        | .ok i => exec i s1
        | .error _ => exec (.unassignedOpcode w0 w1 w2) s1

/-- Take one action. -/
def act (t : Turn) (s : State) : Host.Outcome State Fault Refusal :=
  match t with
  | .issue w => issueStep w s
  | .event i => if i.encodable then .next s else exec i s
  | .engine core q => engineStep core q s
  | .lockDue w line => execLockTimeout w line s
  | .waitDue w => execWsWaitTimeout w s
  | .starveDue c => execStarveAging c s
  | .leaseDue b => execLeaseExpiry b s
  | .pinDue g => execPagePinWindowEnd g s
  | .killDue w => .next (s.endWave w 1)
  | .deliver n =>
    match s.inflight[s.arrival n]? with
    | none => .next s
    | some m => if m.encodable || s.heldUp m then .next s else exec m { s with inflight := s.inflight.eraseIdx (s.arrival n) }

/-- One step: the action that the agenda names, else the machine's own next action, else time alone. -/
def step (s : State) : Host.Outcome State Fault Refusal :=
  let s0 := s.tickClock
  match s0.agenda with
  | t :: rest => act t { s0 with agenda := rest }
  | [] => match s0.ownTurn with
    | some t => act t s0
    | none => .next s0

/-- The state with an instruction where step fetches next (log 9). Bits above nbits are zero. -/
def State.withFetchWord (s : State) (nbits w : Nat) : State := s.load (bytesOf (w % 2 ^ nbits) 12)

end Sys2Proof.Machine
end

