-- ==== Sys2Proof/WellFormed.lean ====
section
/-!
DEFINITION. Sys2Proof/WellFormed.lean: the instructions that an assembler may produce (spec/03_encoding_and_assembly.md R46-R59,
spec/22_execution_and_instruction_faults.md R405-R419): no word check fails, a run-ending instruction carries S (or V = 1), fields that have no
place in the words are zero, and of two instructions on one opcode the fields select this one.
-/

namespace Sys2Proof

/-- Fields that the words do not carry are zero (R53, R54). -/
def LR.canonical (f : LR) (op : Nat) : Bool := (laneHasX op || f.x == 0#32) && (f.usesOw || f.ow == 0#32)
def GR.canonical (f : GR) (op : Nat) : Bool := (uniHasX op || f.x == 0#32) && (f.usesOw || f.ow == 0#32)

def Raw.canonical : Raw → Bool
  | .lr op f => f.canonical op
  | .gr op f => f.canonical op
  | .event => false
  | _ => true

/-- A run-ending instruction carries S or is interlocked (R27, R33). -/
def Instr.shapeOk (i : Instr) : Bool := !(Machine.endsRun i.raw) || i.sBit || i.v1

/-- Of two instructions on one opcode, the one that the opcode word or B selects (R54, R57, R137, R234). -/
def Instr.selected : Instr → Bool
  | .mkMovToMask f => f.b != 0x101#9
  | .mkMovFromMask f => f.b == 0x101#9
  | .plJoin f => !(decide (0x104 ≤ f.b.toNat) && decide (f.b.toNat ≤ 0x107))
  | .plJoinDrop f => decide (0x104 ≤ f.b.toNat) && decide (f.b.toNat ≤ 0x107)
  | .hClose f => !f.x.getLsbD 0
  | .hInfo f => f.x.getLsbD 0
  | .wsAdd f => !f.x.getLsbD 0
  | .wsDel f => f.x.getLsbD 0
  | .wsWait f => !f.x.getLsbD 0
  | .wsPoll f => f.x.getLsbD 0
  | .tmArm f => !f.x.getLsbD 0
  | .tmStop f => f.x.getLsbD 0
  | .ptRecv f => !f.x.getLsbD 0
  | .ptTry f => f.x.getLsbD 0
  | .nmPub f => !f.x.getLsbD 0
  | .nmDrop f => f.x.getLsbD 0
  | _ => true

/-- A well-formed instruction. Events have no words and are not. -/
def WellFormed (i : Instr) : Prop := i.raw.canonical = true ∧ Machine.checkRaw i.raw = [] ∧ i.shapeOk = true ∧ i.selected = true

/-- The test of it. -/
def wellFormed (i : Instr) : Bool := i.raw.canonical && (Machine.checkRaw i.raw).isEmpty && i.shapeOk && i.selected

end Sys2Proof
end

