-- ==== Sys2Proof/Safety.lean ====
section
/-!
DEFINITION. Sys2Proof/Safety.lean: what a safe state is (the invariant that every step keeps: memory stands in its canonical form, R186), and when an
instruction issues with no check failing.
-/

namespace Sys2Proof.Machine

/-- The memory list is canonical: keys rise and nothing listed equals what an unlisted byte reads as. -/
def State.memOk (s : State) : Prop := Memory.wf s.mem = true

/-- The invariant: memory is canonical, so that equal memories are equal data. -/
def State.Inv (s : State) : Prop := s.memOk

/-- Instruction i issues and no check of its issue fails (R24, R34, R39, R369, R405, R411-R416, R472): wave s.turn has the open run r, an
instruction with V = 1 stands at the start of a run, a run takes at most 24 instructions, the words pass their checks, and every register
of the active lanes lies in the allocation and is clean where it is read. -/
def Issues (i : Instr) (s : State) (v : Wave) (r : Run) : Prop :=
  s.issuer = some (v, r) ∧ WellFormed i ∧ (i.v1 = true → r.issued = 0) ∧ (i.v1 = false → r.issued < 24) ∧
  ∀ u ∈ usesOf i.raw, ∀ l ∈ (mkCtx s.turn v r i).act, useOutside v u l = false ∧ usePoison v u l = none

/-- The context of the issue of i by the wave whose turn it is. -/
def State.ctx (s : State) (v : Wave) (r : Run) (i : Instr) : Ctx := mkCtx s.turn v r i

end Sys2Proof.Machine
end

