-- ==== Sys2Proof/Certificates/Slice0/Obligations.lean ====
section
/-!
DEFINITION. Sys2Proof/Certificates/Slice0/Obligations.lean: the statements for the provers. The helper definitions under Sys2Proof.Spec say the
spec's tables a second time, apart from the model's own text, so that a statement compares the two.
-/

namespace Sys2Proof.Spec

open Sys2Proof.Machine

/-- The next state in which i has issued with effect e, in the run of s.turn (R24, R28): everything but the wave's run bookkeeping is e's. -/
def done (i : Instr) (s : State) (v : Wave) (r : Run) (e : Eff) : Host.Outcome State Fault Refusal :=
  .next (retire (s.ctx v r i) i.v1 i.sBit e)

/-- i issues, writes n registers of the destination code d in every active lane, and changes nothing else at once. -/
def laneDone (i : Instr) (f : LR) (n : Nat) (val : Ctx → Nat → Nat) (s : State) (v : Wave) (r : Run) : Host.Outcome State Fault Refusal :=
  done i s v r { s := s, writes := (s.ctx v r i).act.flatMap (fun l => laneWrites (s.ctx v r i) f.v1 l f.d.toNat n (val (s.ctx v r i) l)) }

/-- The 32-bit operands A, B and C (X-OP4) of a lane, as n32. -/
def opA (f : LR) (c : Ctx) (l : Nat) : Nat := (readLane c f.ow l f.a.toNat).toNat
def opB (f : LR) (c : Ctx) (l : Nat) : Nat := (readLane c f.ow l f.b.toNat).toNat
def opC (f : LR) (c : Ctx) (l : Nat) : Nat := (readLane c f.ow l (f.x.toNat % 64)).toNat
/-- The 64-bit pair operands of a lane. -/
def pairA (f : LR) (c : Ctx) (l : Nat) : Nat := (readPair c f.ow l f.a.toNat).toNat
def pairB (f : LR) (c : Ctx) (l : Nat) : Nat := (readPair c f.ow l f.b.toNat).toNat

/-- A number of w bits as a signed integer, and an integer truncated to w bits. -/
def signed (w a : Nat) : Int := if a < 2 ^ (w - 1) then a else (a : Int) - 2 ^ w
def wrap (w : Nat) (z : Int) : Nat := (z % 2 ^ w).toNat

/-- Position and number of bits of a field (R98): position 0 to 31 and at least one bit, else none. -/
def field (b : Nat) : Option (Nat × Nat) :=
  if b % 256 ≥ 32 ∨ b / 256 % 256 = 0 then none else some (b % 256, min (b / 256 % 256) (32 - b % 256))

/-- R97, R98, R105: the operations on two 32-bit sources. -/
def int32 : List ((LR → Instr) × (Nat → Nat → Nat)) :=
  [(.add, fun a b => (a + b) % 2 ^ 32),
   (.sub, fun a b => wrap 32 ((a : Int) - b)),
   (.mulLo, fun a b => a * b % 2 ^ 32),
   (.mulHiI32, fun a b => wrap 64 (signed 32 a * signed 32 b) / 2 ^ 32),
   (.mulHiN32, fun a b => a * b / 2 ^ 32),
   (.minI32, fun a b => if signed 32 a < signed 32 b then a else b),
   (.minN32, fun a b => min a b),
   (.maxI32, fun a b => if signed 32 a < signed 32 b then b else a),
   (.maxN32, fun a b => max a b),
   (.and, fun a b => a &&& b),
   (.or, fun a b => a ||| b),
   (.xor, fun a b => a ^^^ b),
   (.andn, fun a b => a &&& (2 ^ 32 - 1 - b)),
   (.shl, fun a b => if b < 32 then a * 2 ^ b % 2 ^ 32 else 0),
   (.shr, fun a b => if b < 32 then a / 2 ^ b else 0),
   (.sra, fun a b => if b < 32 then wrap 32 (signed 32 a / 2 ^ b) else if a < 2 ^ 31 then 0 else 2 ^ 32 - 1),
   (.rot, fun a b => a * 2 ^ (b % 32) % 2 ^ 32 + a / 2 ^ (32 - b % 32)),
   (.bfe, fun a b => match field b with | none => 0 | some (pos, n) => a / 2 ^ pos % 2 ^ n)]

/-- R98, R105: the operations on one 32-bit source. -/
def int32u : List ((LR → Instr) × (Nat → Nat)) :=
  [(.abs, fun a => if signed 32 a < 0 then wrap 32 (-(signed 32 a)) else a),
   (.popc, fun a => ((List.range 32).map (fun i => a / 2 ^ i % 2)).sum),
   (.clz, fun a => (List.range 32).countP (fun i => decide (a < 2 ^ i))),
   (.brev, fun a => ((List.range 32).map (fun i => a / 2 ^ (31 - i) % 2 * 2 ^ i)).sum),
   (.mov, fun a => a)]

/-- R98: the operations on three 32-bit sources. -/
def int32t : List ((LR → Instr) × (Nat → Nat → Nat → Nat)) :=
  [(.madLo, fun a b c => (a * b + c) % 2 ^ 32),
   (.bfi, fun a b c => match field b with
      | none => c
      | some (pos, n) => c % 2 ^ pos + a % 2 ^ n * 2 ^ pos + c / 2 ^ (pos + n) * 2 ^ (pos + n))]

/-- R100: quotient truncated toward zero and remainder, defined for every operand. -/
def quotN (a b : Nat) : Nat := if b = 0 then 2 ^ 32 - 1 else a / b
def remN (a b : Nat) : Nat := if b = 0 then a else a - a / b * b
def quotI (a b : Nat) : Nat :=
  if b = 0 then 2 ^ 32 - 1 else if a = 2 ^ 31 ∧ b = 2 ^ 32 - 1 then 2 ^ 31
  else wrap 32 (Int.tdiv (signed 32 a) (signed 32 b))
def remI (a b : Nat) : Nat :=
  if b = 0 then a else if a = 2 ^ 31 ∧ b = 2 ^ 32 - 1 then 0
  else wrap 32 (signed 32 a - Int.tdiv (signed 32 a) (signed 32 b) * signed 32 b)

/-- Conditions of R51 and R102 on two integers. -/
def intCond (cond : Nat) (a b : Int) : Bool :=
  match cond with
  | 0 => a == b
  | 1 => a != b
  | 2 => decide (a < b)
  | 3 => decide (a ≤ b)
  | 4 => decide (a > b)
  | 5 => decide (a ≥ b)
  | 6 => true
  | _ => false

/-- i issues and writes predicate D[2:0] of every active lane (R51). -/
def predDone (i : Instr) (f : LR) (val : Ctx → Nat → Bool) (s : State) (v : Wave) (r : Run) : Host.Outcome State Fault Refusal :=
  done i s v r { s := s, writes := (s.ctx v r i).act.map (fun l => { loc := .p l (f.d.toNat % 8), val := if val (s.ctx v r i) l then 1 else 0 }) }

/-- Conditions of R102 on two floating operands. -/
def fltCond (cond : Nat) (x y : FVal) : Bool :=
  match cond with
  | 0 => !x.isNan && !y.isNan && x.cmp y == .eq
  | 1 => x.isNan || y.isNan || x.cmp y != .eq
  | 2 => !x.isNan && !y.isNan && x.cmp y == .lt
  | 3 => !x.isNan && !y.isNan && x.cmp y != .gt
  | 4 => !x.isNan && !y.isNan && x.cmp y == .gt
  | 5 => !x.isNan && !y.isNan && x.cmp y != .lt
  | 6 => !x.isNan && !y.isNan
  | _ => x.isNan || y.isNan

end Sys2Proof.Spec

open Sys2Proof Sys2Proof.Machine

/-! ## Encoding -/

/-- R45-R57: decoding the words of a well-formed instruction gives it back, with every operand. -/
def Obligations.EncodeDecodeAgree : Prop := ∀ i : Instr, WellFormed i → decodeWords (encode i) = .ok i

/-- R45, R46, R53: decoding drops no bit: the words of the decoded instruction are the words it was decoded from. -/
def Sys2Proof.Spec.DecodeKeepsWords : Prop :=
  ∀ (w w1 w2 : W32) (i : Instr), decode w w1 w2 = .ok i →
    i.encodable = true ∧ (encode i).getD 0 0 = w ∧ (2 ≤ (encode i).length → (encode i).getD 1 0 = w1) ∧
    (3 ≤ (encode i).length → (encode i).getD 2 0 = w2) ∧ (encode i).length ≤ 3

namespace Sys2Proof.Spec
/-- The opcodes of R56 and R57 that are no dash. -/
def laneAssigned (op : Nat) : Bool :=
  decide (op ≤ 0x26) || (decide (0x28 ≤ op) && decide (op ≤ 0x34)) || (decide (0x38 ≤ op) && decide (op ≤ 0x3D))
  || (decide (0x40 ≤ op) && decide (op ≤ 0x42)) || (decide (0x48 ≤ op) && decide (op ≤ 0x5C)) || (decide (0x60 ≤ op) && decide (op ≤ 0x67))
  || (decide (0x70 ≤ op) && decide (op ≤ 0x73))
def uniAssigned (op : Nat) : Bool :=
  decide (op ≤ 0x10) || (decide (0x18 ≤ op) && decide (op ≤ 0x24)) || (decide (0x28 ≤ op) && decide (op ≤ 0x33))
  || (decide (0x38 ≤ op) && decide (op ≤ 0x42)) || (decide (0x48 ≤ op) && decide (op ≤ 0x4D)) || (decide (0x58 ≤ op) && decide (op ≤ 0x5E))
  || (decide (0x60 ≤ op) && decide (op ≤ 0x7B))
end Sys2Proof.Spec

/-- R33, R56, R57, R407: a word is no instruction exactly when its V field, bits [29:28], is 2 or 3, or its opcode, bits [27:21], is a dash of
the map of its set, bit 31; the V field is checked before the opcode. -/
def Sys2Proof.Spec.UnassignedRefused : Prop :=
  ∀ w w1 w2 : W32,
    (w.toNat / 2 ^ 28 % 4 ≥ 2 → decode w w1 w2 = .error .badV) ∧
    (w.toNat / 2 ^ 28 % 4 < 2 → w.toNat / 2 ^ 31 = 0 → ((∃ i, decode w w1 w2 = .ok i) ↔ Spec.laneAssigned (w.toNat / 2 ^ 21 % 128) = true)) ∧
    (w.toNat / 2 ^ 28 % 4 < 2 → w.toNat / 2 ^ 31 = 1 → ((∃ i, decode w w1 w2 = .ok i) ↔ Spec.uniAssigned (w.toNat / 2 ^ 21 % 128) = true)) ∧
    (w.toNat / 2 ^ 28 % 4 < 2 → decode w w1 w2 ≠ .error .badV)

/-- The encoded kernel of R59's section, the examples of R94, R110 and one word of each format: each decodes to the instruction it stands for. -/
def Sys2Proof.Spec.DecodedWords : Prop :=
  decode 0x44C00E7F 0 0 = .ok (.mov { s := true, v1 := false, g := 0, d := 0, a := 0x39, b := 0x3F, x := 0, ow := 0 }) ∧
  decode 0xC4000000 0 0 = .ok (.mkJoin { s := true, v1 := false, d := 0, a := 0, b := 0, x := 0, ow := 0 }) ∧
  decode 0x4401103A 8 0 = .ok (.cmpI32 { s := true, v1 := false, g := 0, d := 0x11, a := 0, b := 0x3A, x := 0, ow := 8 }) ∧
  decode 0x4E040004 0 0 = .ok (.brp { s := true, v1 := false, g := 1, off := 4 }) ∧
  decode 0x4000203A 100 0 = .ok (.add { s := true, v1 := false, g := 0, d := 2, a := 0, b := 0x3A, x := 0, ow := 100 }) ∧
  decode 0xC3000003 0 0 = .ok (.br { s := true, v1 := false, off := 3 }) ∧
  decode 0xC4400000 0 0 = .ok (.mkWait { s := true, v1 := false, d := 0, a := 0, b := 0, x := 0, ow := 0 }) ∧
  decode 0xC3E00000 0 0 = .ok (.fibEnd { s := true, v1 := false, d := 0, a := 0, b := 0, x := 0, ow := 0 }) ∧
  decode 0x45604042 3 0 = .ok (.fmaF32 { s := true, v1 := false, g := 0, d := 4, a := 1, b := 2, x := 3, ow := 0 }) ∧
  decode 0x480051BF 0x9909 0 = .ok (.cvt { s := true, v1 := false, g := 0, d := 5, a := 6, b := 0x3F, x := 0x9909, ow := 0 }) ∧
  decode 0x0560407A 3 0x3F800000 = .ok (.fmaF32 { s := false, v1 := false, g := 0, d := 4, a := 1, b := 0x3A, x := 3, ow := 0x3F800000 }) ∧
  decode 0x80018480 0xFFFFFFFF 0 = .ok (.sAdd { s := false, v1 := false, d := 3, a := 2, b := 0x080, x := 0, ow := 0xFFFFFFFF }) ∧
  decode 0xD3297FFF 0 0 = .ok (.bz { s := true, v1 := true, a := 0x12, off := 0x7FFF })

namespace Sys2Proof.Spec
/-- R59: the fixed latency of a lane opcode (0: variable result, none: no register). -/
def laneLatency (op : Nat) : Option Nat :=
  if op ∈ [0x00, 0x01, 0x06, 0x07, 0x08, 0x09, 0x0A, 0x0B, 0x0C, 0x0D, 0x0E, 0x0F, 0x10, 0x11, 0x12, 0x13, 0x14, 0x15, 0x16, 0x17, 0x18, 0x19,
    0x20, 0x21, 0x22, 0x23, 0x24, 0x25, 0x26, 0x5B, 0x72, 0x73] then some 2
  else if op ∈ [0x02, 0x03, 0x04, 0x05, 0x1A, 0x1B, 0x28, 0x29, 0x2A, 0x2B, 0x2C, 0x2D, 0x2E, 0x2F, 0x38, 0x39, 0x3A, 0x3B, 0x3C, 0x3D,
    0x40, 0x41, 0x42] then some 4
  else if op ∈ [0x30, 0x31, 0x32, 0x33, 0x34] then some 8
  else if op ∈ [0x1C, 0x1D, 0x1E, 0x1F] then some 16
  else if (0x48 ≤ op ∧ op ≤ 0x5A) ∨ op ∈ [0x5C, 0x60, 0x62, 0x63, 0x65, 0x66] then some 0
  else none
/-- R59: the lane opcodes that end a run. -/
def laneEnds (op : Nat) : Bool := (decide (0x50 ≤ op) && decide (op ≤ 0x5A)) || op == 0x62 || op == 0x70 || op == 0x71
/-- R59 for the uniform opcodes. -/
def uniLatency (op : Nat) : Option Nat :=
  if op = 0x02 then some 3
  else if op ≤ 0x10 ∨ op ∈ [0x20, 0x21, 0x23, 0x24, 0x5A, 0x74, 0x7A] then some 1
  else if op ∈ [0x1E, 0x28, 0x2A, 0x2E, 0x2F, 0x32, 0x33, 0x38, 0x3D, 0x40, 0x41, 0x48, 0x4C, 0x5C, 0x60, 0x62] ∨ (0x64 ≤ op ∧ op ≤ 0x73) then some 0
  else none
/-- `variant` is X-FN [0]: the polling variants of ws.wait and pt.recv need not end a run. -/
def uniEnds (op : Nat) (variant : Bool) : Bool :=
  op ∈ [0x18, 0x19, 0x1A, 0x1B, 0x1C, 0x1D, 0x1E, 0x1F, 0x22, 0x2B, 0x2C, 0x2D, 0x30, 0x32, 0x38, 0x39, 0x3B, 0x3C, 0x3F, 0x40, 0x48, 0x4C, 0x59,
    0x5C, 0x61, 0x62, 0x63, 0x73, 0x77, 0x78, 0x79] || ((op == 0x69 || op == 0x6E) && !variant)
/-- The result class that a latency stands for. -/
def classOf : Option Nat → RKind
  | none => .none
  | some 0 => .var
  | some n => .fix n
/-- The opcode of an instruction and, for the uniform set, its X-FN variant. -/
def opOf : Raw → Nat
  | .lr op _ => op
  | .lb op _ => op
  | .gr op _ => op
  | .gj op _ => op
  | .gc op _ => op
  | .event => 0
def isLane : Raw → Bool
  | .lr _ _ => true
  | .lb _ _ => true
  | _ => false
def variantOf : Raw → Bool
  | .gr _ f => f.x.toNat % 2 == 1
  | _ => false
end Sys2Proof.Spec

/-- R59: every instruction with an encoding has the result class and the run-ending mark of the tables. -/
def Sys2Proof.Spec.ResultClasses : Prop :=
  ∀ i : Instr, i.encodable = true →
    resultClass i.raw = Spec.classOf (if Spec.isLane i.raw then Spec.laneLatency (Spec.opOf i.raw) else Spec.uniLatency (Spec.opOf i.raw)) ∧
    endsRun i.raw = (if Spec.isLane i.raw then Spec.laneEnds (Spec.opOf i.raw) else Spec.uniEnds (Spec.opOf i.raw) (Spec.variantOf i.raw))

/-! ## Fetch and step -/

namespace Sys2Proof.Spec
/-- A byte that every reader sees as memory holds it: its page has no state between packages, no die owns its line or holds a line of another
home, no format window covers it (R185, R189, R219, R222). -/
def plainAt (s : State) (k : Nat) : Prop :=
  Tab.get? s.pages (k / 4096) = none ∧ (s.dirOf (k / 128)).state ≠ 2#2 ∧ s.winAt k = none ∧
  (tracked k = true ∨ ∀ e ∈ s.rdc, tracked (e.1 % 2 ^ 64 * 128) = true)
/-- No write of a wave to a locked line, and no operation of it on a future, is on its way. -/
def noneFlying (s : State) (w : Nat) : Prop :=
  ∀ m ∈ s.inflight, (∀ k bs, m ≠ .nonholderWriteAtHome w k bs) ∧ ∀ a b c d e f g h i j, m ≠ .futureOpAtHome w a b c d e f g h i j
/-- A core's L1 with room for n more lines (R7). -/
def roomy (s : State) (c n : Nat) : Prop := (l1Lines (s.core c).l1).length + n ≤ 1024
end Sys2Proof.Spec

/-- R45: where an address resolves for execution to a key, the word fetched is the four bytes of memory from that key, the lowest first, and the
fetch changes nothing more than the translation did. -/
def Sys2Proof.Spec.FetchReads : Prop :=
  ∀ (s s1 : State) (v : Wave) (a : BitVec 48) (p : Phys),
    s.resolve v 0 { kind := aFETCH, size := 4, align := 4, globalOnly := true } false a.toNat = (.ok (.glob p), s1) →
    (∀ i < 4, Spec.plainAt s1 (p.key + i)) →
    s.fetchWord v a = (.ok (BitVec.ofNat 32 ((s1.rd8 p.key).toNat + 256 * (s1.rd8 (p.key + 1)).toNat + 65536 * (s1.rd8 (p.key + 2)).toNat
      + 16777216 * (s1.rd8 (p.key + 3)).toNat)), s1)

/-- A step in which wave w is to issue, and no comparator matches, fetches the words at the run's PC and runs the instruction that they decode to;
words that are no instruction run as UNASSIGNED_OPCODE (R407), and words that cannot be fetched trap (R432). Time has passed before, the action
is taken off the agenda, and w has the turn: nothing else is around it. -/
def Obligations.StepRunsDecoded : Prop :=
  ∀ (s : State) (w : Nat) (rest : List Turn) (v : Wave) (r : Run),
    (s.agenda = .issue w :: rest ∨ (s.agenda = [] ∧ rest = [] ∧ s.tickClock.ownTurn = some (.issue w))) →
    ({ s.tickClock with agenda := rest, turn := w } : State).issuer = some (v, r) →
    ({ s.tickClock with agenda := rest, turn := w } : State).bpcHits v r = [] →
    (∀ w0 w1 w2 s1 i, ({ s.tickClock with agenda := rest, turn := w } : State).fetch v r.pc = (.ok (w0, w1, w2), s1) →
      decode w0 w1 w2 = .ok i → step s = exec i s1) ∧
    (∀ w0 w1 w2 s1 e, ({ s.tickClock with agenda := rest, turn := w } : State).fetch v r.pc = (.ok (w0, w1, w2), s1) →
      decode w0 w1 w2 = .error e → step s = exec (.unassignedOpcode w0 w1 w2) s1) ∧
    (∀ t s1, ({ s.tickClock with agenda := rest, turn := w } : State).fetch v r.pc = (.error t, s1) →
      step s = .next (s1.issueTrap w v r t { pc := r.pc }))

/-- Every instruction and every event answers a next state; the one exception is the model's own: an instruction with an encoding, or
UNASSIGNED_OPCODE, where no wave issues. Nothing is refused, and nothing faults otherwise. -/
def Sys2Proof.Spec.ExecAnswers : Prop :=
  ∀ (i : Instr) (s : State),
    (∃ t, exec i s = .next t) ∨
    (exec i s = .fault .noIssuer ∧ s.issuer = none ∧ (i.encodable = true ∨ ∃ w0 w1 w2, i = .unassignedOpcode w0 w1 w2))

/-- No step is refused: it answers a next state, or finds that no wave issues. -/
def Sys2Proof.Spec.StepAnswers : Prop := ∀ s : State, (∃ t, step s = .next t) ∨ step s = .fault .noIssuer

/-! ## What an issue does to its run -/

/-- R27, R28, R33, R48, R53: an instruction that issues with an effect leaves every other wave and everything outside the waves as the effect has
it; in its own wave the run counts one more instruction, goes on at the next address after the instruction and its extension words (or where the
effect sends it), and has ended exactly where S or V = 1 stands; with no result pending, registers, masks, fibres and flags are those of the
effect's state, and what the instruction writes waits in the run. -/
def Obligations.RetireFrame : Prop :=
  ∀ (i : Instr) (s : State) (v : Wave) (r : Run) (e : Eff) (v' : Wave),
    e.s.wave? s.turn = some v' →
    ∃ t v1 r1, Spec.done i s v r e = .next t ∧ t.wave? s.turn = some v1 ∧ v1.run = some r1 ∧
      (∀ w, w ≠ s.turn → t.wave? w = e.s.wave? w) ∧
      ({ t with waves := [] } : State) = { e.s with waves := [] } ∧
      (r1.issued = r.issued + 1 ∧ r1.mask = r.mask ∧ r1.start = r.start ∧ r1.ended = (i.sBit || i.v1) ∧
        r1.pc = e.goto.getD (r.pc + BitVec.ofNat 48 (4 * (encode i).length)) ∧ v1.issues = v'.issues + 1) ∧
      (r.pending = [] →
        v1.sregs = v'.sregs ∧ v1.masks = v'.masks ∧ v1.vregs = v'.vregs ∧ v1.fibres = v'.fibres ∧ v1.fpflags = v'.fpflags ∧
        v1.pwinflags = v'.pwinflags ∧ v1.frame = v'.frame ∧ v1.inTrap = v'.inTrap ∧ v1.ackcnt = v'.ackcnt ∧ v1.srseed = v'.srseed ∧
        r1.temps = r.temps ∧
        ∀ n, resultClass i.raw = .fix n →
          r1.pending = [{ seq := v'.issues, left := some n, writes := e.writes, flags := e.flags, oob := e.oob }]) ∧
      (r.pending = [] → resultClass i.raw = .var → e.silent = false →
          r1.pending = [{ seq := v'.issues, left := none, back := false, ready := e.ready, writes := e.writes, flags := e.flags, oob := e.oob }])

namespace Sys2Proof.Spec
/-- n further instructions of the batch have issued. -/
def later : Nat → Wave × Run → Wave × Run
  | 0, p => p
  | n + 1, p => countIssue (later n p).1 (later n p).2
/-- The value of a location of the wave. -/
def read (v : Wave) : Loc → W64
  | .v lane row => BitVec.ofNat 64 (v.row lane row).toNat
  | .s n => v.sreg n
  | .k n => v.mask n
  | _ => 0
/-- The value that a write leaves in a location: a register word keeps 32 bits, a mask the bits below W (R17, R19). -/
def kept (v : Wave) : Loc → W64 → W64
  | .v _ _, x => BitVec.ofNat 64 (x.toNat % 2 ^ 32)
  | .s _, x => x
  | .k _, x => x &&& laneMask v.width
  | _, _ => 0
def readable : Loc → Bool
  | .v _ _ => true
  | .s _ => true
  | .k _ => true
  | _ => false
end Sys2Proof.Spec

/-- R28: a fixed-latency result of latency L commits after L further instructions have issued, and not before: until then every register holds
its old value. -/
def Sys2Proof.Spec.CommitLatency : Prop :=
  ∀ (v : Wave) (r : Run) (x : Res) (n : Nat), r.pending = [x] → x.left = some n → 0 < n →
    (∀ k < n, Spec.later k (v, r) = (v, { r with pending := [{ x with left := some (n - k) }] })) ∧
    Spec.later n (v, r) = ((commitRes (v, r) x).1, { (commitRes (v, r) x).2 with pending := [] })

/-- R30: at the end of a run each register holds the result of the last instruction of the run, in program order, that wrote it: a write that no
later pending result and no committed later instruction overwrites is what the register reads, and one that a later instruction has already
overwritten is not made. -/
def Sys2Proof.Spec.CommitOrder : Prop :=
  ∀ (v : Wave) (r : Run) (before after : List Res) (x : Res) (ws1 ws2 : List Write) (l : Loc) (val : W64),
    r.pending = before ++ x :: after → Spec.readable l = true → x.writes = ws1 ++ ⟨l, val⟩ :: ws2 →
    (∀ y ∈ before, y.seq < x.seq) →
    (∀ w ∈ ws2, w.loc ≠ l) → (∀ y ∈ after, ∀ w ∈ y.writes, w.loc ≠ l) →
    (∀ q, lastWriter l r.wrote = some q → q ≤ x.seq) →
    Spec.read (commitAll v r).1 l = Spec.kept v l val

/-- R31 and the end of a run: once a run has ended and what it waits for has come, its results commit in program order, its fibres stand at the run's
next PC, or at the target that brp gave a lane, and the run is gone with its temporaries. -/
def Sys2Proof.Spec.RunEnds : Prop :=
  ∀ (v : Wave) (r : Run),
    (v.finishRun r).run = none ∧ (v.finishRun r).lastStart = r.start ∧
    (v.finishRun r).sregs = (commitAll v r).1.sregs ∧ (v.finishRun r).masks = (commitAll v r).1.masks ∧
    (v.finishRun r).vregs = (commitAll v r).1.vregs ∧
    ∀ l f, (commitAll v r).1.fibre? l = some f →
      (v.finishRun r).fibre? l = some
        (if l < v.width ∧ (r.mask &&& (commitAll v r).1.live).getLsbD l = true then
          { f with pc := Tab.getD r.targets l r.pc, winBase := Tab.getD r.winNext l f.winBase }
         else f)

/-! ## Traps -/

/-- R391, R394, R395: an issue trap of a wave outside trap and debug mode, with a handler to go to, saves s60 to s63 and the frame, freezes the open
run, sets INTRAP, and puts the batch's fibres at TRAPBASE. No register, mask, predicate or window is changed, and nothing outside the wave. -/
def Sys2Proof.Spec.TrapEntry : Prop :=
  ∀ (s : State) (w : Nat) (v : Wave) (r : Run) (t : Trap) (site : Site) (p : Proc),
    v.inTrap = false → v.dbg = none → s.proc? v.proc = some p → p.trapbase ≠ 0#48 → t.cause ≠ cHBMUE → t.cause ≠ cACKLOST → v.width ≤ 64 →
    ∃ v', s.issueTrap w v r t site = s.setWave w v' ∧
      v'.inTrap = true ∧ v'.trapMask = r.mask &&& v.live ∧ v'.run = none ∧ v'.frozen = (if r.issued = 0 then none else some r) ∧
      (v'.frame.cause.toNat = t.cause % 256 ∧ v'.frame.sub.toNat = t.sub % 256 ∧ v'.frame.tepc = site.pc ∧ v'.frame.tfpc = site.pc ∧
        v'.frame.tval = t.tval ∧ v'.frame.tword.toNat = site.word.toNat + site.x1.toNat * 2 ^ 32 ∧ v'.frame.txword.toNat = site.x2.toNat ∧
        v'.frame.tmask = r.mask &&& v.live ∧ v'.frame.tlanes = (if t.lanes = 0#64 then r.mask &&& v.live else t.lanes)) ∧
      (v'.frame.tsave0 = v.sreg 60 ∧ v'.frame.tsave1 = v.sreg 61 ∧ v'.frame.tsave2 = v.sreg 62 ∧ v'.frame.tsave3 = v.sreg 63) ∧
      (r.issued < 32 → v'.frame.trun.toNat = r.issued + (if r.issued = 0 then 0 else 32)) ∧
      (v'.sregs = v.sregs ∧ v'.masks = v.masks ∧ v'.vregs = v.vregs ∧ v'.fpflags = v.fpflags ∧ v'.issues = v.issues ∧ v'.held = v.held) ∧
      ∀ l f, v.fibre? l = some f →
        v'.fibre? l = some { f with pc := if l < v.width ∧ r.mask.getLsbD l = true then p.trapbase else f.pc }

/-- R397: a synchronous cause in trap or debug mode suspends the wave, enters no handler, leaves debug mode, keeps the frame, and sends a record of
class 1 with cause DOUBLE whose SUB is the second cause. -/
def Sys2Proof.Spec.DoubleTrap : Prop :=
  ∀ (s : State) (w : Nat) (v : Wave) (r : Run) (t : Trap) (site : Site),
    (v.inTrap = true ∨ v.dbg.isSome = true) → t.cause ≠ cHBMUE → t.cause ≠ cACKLOST →
    ∃ v' rec, s.issueTrap w v r t site = (s.setWave w v').sendRecord (s.dieOf v) v.proc rec ∧
      v' = { v with run := none, dbg := none, suspended := true } ∧
      rec.cause = 0x41 ∧ rec.sub = t.cause ∧ rec.cls = 1 ∧ rec.scope = 1 ∧ rec.susp = true ∧ rec.pc = site.pc.toNat ∧ rec.val = t.tval.toNat

/-- R398: with TRAPBASE 0 the wave is suspended where the trap leaves it, with the frame saved and the run frozen, and a record of class 0 carries
the frame's values. -/
def Sys2Proof.Spec.UndeliveredTrap : Prop :=
  ∀ (s : State) (w : Nat) (v : Wave) (r : Run) (t : Trap) (site : Site) (p : Proc),
    v.inTrap = false → v.dbg = none → s.proc? v.proc = some p → p.trapbase = 0#48 →
    t.cause ≠ cHBMUE → t.cause ≠ cACKLOST → t.cause ≠ cPOISON →
    ∃ v' rec, s.issueTrap w v r t site = (s.setWave w v').sendRecord (s.dieOf v) v.proc rec ∧
      v'.suspended = true ∧ v'.undelivered = true ∧ v'.inTrap = false ∧ v'.run = none ∧ v'.frozen = (if r.issued = 0 then none else some r) ∧
      v'.frame.cause.toNat = t.cause % 256 ∧ v'.frame.tepc = site.pc ∧ v'.frame.tfpc = site.pc ∧ v'.frame.tval = t.tval ∧
      v'.fibres = v.fibres ∧ v'.sregs = v.sregs ∧ v'.vregs = v.vregs ∧
      rec.cause = t.cause ∧ rec.sub = t.sub ∧ rec.cls = 0 ∧ rec.scope = 1 ∧ rec.susp = true ∧ rec.pc = site.pc.toNat ∧ rec.val = t.tval.toNat

/-- R397: when the last live fibre that entered the handler stands at an rfe, s60 to s63 are restored, INTRAP is cleared, the fibres stand at TEPC, and
a frozen run, if there is one, goes on at the next run start; until then nothing but the note of the lanes that have arrived changes. -/
def Obligations.RfeReturns : Prop :=
  ∀ (v : Wave) (lanes : W64),
    (v.trapMask &&& v.live &&& ~~~(v.rfeMask ||| lanes) = 0#64 → v.frozen = none →
      ((v.rfeTrap lanes).inTrap = false ∧ (v.rfeTrap lanes).trapMask = 0#64 ∧
       (v.rfeTrap lanes).sreg 60 = v.frame.tsave0 ∧ (v.rfeTrap lanes).sreg 61 = v.frame.tsave1 ∧
       (v.rfeTrap lanes).sreg 62 = v.frame.tsave2 ∧ (v.rfeTrap lanes).sreg 63 = v.frame.tsave3 ∧
       (∀ n < 60, (v.rfeTrap lanes).sreg n = v.sreg n) ∧ (v.rfeTrap lanes).vregs = v.vregs ∧ (v.rfeTrap lanes).masks = v.masks ∧
       (v.rfeTrap lanes).resume = v.resume ∧
       ∀ l f, v.fibre? l = some f →
         (v.rfeTrap lanes).fibre? l = some { f with pc := if l < v.width ∧ l < 64 ∧ v.trapMask.getLsbD l = true then v.frame.tepc else f.pc })) ∧
    (v.trapMask &&& v.live &&& ~~~(v.rfeMask ||| lanes) = 0#64 → ∀ r, v.frozen = some r → v.frame.tepc = v.frame.tfpc →
      ((v.rfeTrap lanes).inTrap = false ∧ (v.rfeTrap lanes).frozen = none ∧
       ∃ r', (v.rfeTrap lanes).resume = some r' ∧ r'.pc = v.frame.tepc ∧ r'.issued = r.issued ∧ r'.pending = r.pending ∧ r'.temps = r.temps ∧
         r'.mask = r.mask &&& v.live ∧ r'.ended = r.ended)) ∧
    (v.trapMask &&& v.live &&& ~~~(v.rfeMask ||| lanes) ≠ 0#64 → v.rfeTrap lanes = { v with rfeMask := v.rfeMask ||| lanes })

/-! ## Operands and destinations -/

/-- R49, R50, R52, R152: what an operand code reads: a register of the lane's window, a temporary of the run, 0, the lane index, the operand word, the
low half of a uniform register; a pair is an even and an odd register, and the codes from zero on are extended by sign; B of a uniform
instruction is a register, an 8-bit immediate or the operand word, extended by sign. -/
def Sys2Proof.Spec.OperandForms : Prop :=
  ∀ (c : Ctx) (ow : W32) (l : Nat) (f : GR),
    (∀ k < 0x30, readLane c ow l k = c.v.row l (c.v.winBase l + k)) ∧
    (∀ k < 8, readLane c ow l (0x30 + k) = Tab.getD c.run.temps (l * 8 + k) 0) ∧
    readLane c ow l 0x38 = 0 ∧ readLane c ow l 0x39 = BitVec.ofNat 32 l ∧ readLane c ow l 0x3A = ow ∧
    readLane c ow l 0x3B = (c.v.sreg (ow.toNat % 64)).setWidth 32 ∧
    (∀ k < 0x38, readPair c ow l k = (readLane c ow l (k + 1)) ++ (readLane c ow l k)) ∧
    (readPair c ow l 0x38 = 0 ∧ readPair c ow l 0x3A = ow.signExtend 64 ∧
      readPair c ow l 0x3B = ((c.v.sreg (ow.toNat % 64)).setWidth 32).signExtend 64) ∧
    readA c f = c.v.sreg f.a.toNat ∧
    (f.b.toNat < 64 → readB c f = c.v.sreg f.b.toNat) ∧
    (f.b = 0x080#9 → readB c f = f.ow.signExtend 64) ∧
    (256 ≤ f.b.toNat → readB c f = (f.b.setWidth 8).signExtend 64)

/-- R32, R33, R49, R94: where a lane result goes: to a register of the window, to a temporary of the run unless the instruction is interlocked, and
nowhere for zero. -/
def Sys2Proof.Spec.DestinationForms : Prop :=
  ∀ (c : Ctx) (v1 : Bool) (l val : Nat),
    (∀ d < 0x30, laneWrites c v1 l d 1 val = [{ loc := .v l (c.v.winBase l + d), val := BitVec.ofNat 64 (val % 2 ^ 32) }]) ∧
    (∀ d < 0x2F, laneWrites c v1 l d 2 val =
      [{ loc := .v l (c.v.winBase l + d), val := BitVec.ofNat 64 (val % 2 ^ 32) },
       { loc := .v l (c.v.winBase l + d + 1), val := BitVec.ofNat 64 (val / 2 ^ 32 % 2 ^ 32) }]) ∧
    (∀ k < 8, laneWrites c false l (0x30 + k) 1 val = [{ loc := .t l k, val := BitVec.ofNat 64 (val % 2 ^ 32) }]) ∧
    (∀ k < 8, ∀ n, laneWrites c true l (0x30 + k) n val = []) ∧
    (∀ n, laneWrites c v1 l 0x38 n val = [])

/-! ## Lane instructions -/

/-- R97, R98, R105: each of these instructions, where it issues, writes to D in every active lane the value that the tables give, computed on integers and
truncated to 32 bits; it does nothing else, and no lane whose guard reads 0 takes part. -/
def Sys2Proof.Spec.LaneInteger : Prop :=
  ∀ (f : LR) (s : State) (v : Wave) (r : Run),
    (∀ p ∈ Spec.int32, Issues (p.1 f) s v r →
      exec (p.1 f) s = Spec.laneDone (p.1 f) f 1 (fun c l => p.2 (Spec.opA f c l) (Spec.opB f c l)) s v r) ∧
    (∀ p ∈ Spec.int32u, Issues (p.1 f) s v r →
      exec (p.1 f) s = Spec.laneDone (p.1 f) f 1 (fun c l => p.2 (Spec.opA f c l)) s v r) ∧
    (∀ p ∈ Spec.int32t, Issues (p.1 f) s v r →
      exec (p.1 f) s = Spec.laneDone (p.1 f) f 1 (fun c l => p.2 (Spec.opA f c l) (Spec.opB f c l) (Spec.opC f c l)) s v r)

namespace Sys2Proof.Spec
/-- The OP field [27:21] of an instruction's first word (R46). -/
def opcode (i : Instr) : Nat := ((encode i).getD 0 0).toNat / 2 ^ 21 % 128
/-- The word that follows the first, the opcode word of an instruction that has one (R54). -/
def xWord (i : Instr) : W32 := (encode i).getD 1 0
end Sys2Proof.Spec

/-- R100: division and remainder, at OP 0x1C to 0x1F, defined for every operand: the quotient truncates toward zero, the remainder is a - q * b. -/
def Obligations.LaneDivision : Prop :=
  ∀ (f : LR) (s : State) (v : Wave) (r : Run),
    (Spec.opcode (.divI32 f) = 0x1C ∧ Spec.opcode (.divN32 f) = 0x1D ∧ Spec.opcode (.remI32 f) = 0x1E ∧ Spec.opcode (.remN32 f) = 0x1F) ∧
    (Issues (.divI32 f) s v r → exec (.divI32 f) s = Spec.laneDone (.divI32 f) f 1 (fun c l => Spec.quotI (Spec.opA f c l) (Spec.opB f c l)) s v r) ∧
    (Issues (.divN32 f) s v r → exec (.divN32 f) s = Spec.laneDone (.divN32 f) f 1 (fun c l => Spec.quotN (Spec.opA f c l) (Spec.opB f c l)) s v r) ∧
    (Issues (.remI32 f) s v r → exec (.remI32 f) s = Spec.laneDone (.remI32 f) f 1 (fun c l => Spec.remI (Spec.opA f c l) (Spec.opB f c l)) s v r) ∧
    (Issues (.remN32 f) s v r → exec (.remN32 f) s = Spec.laneDone (.remN32 f) f 1 (fun c l => Spec.remN (Spec.opA f c l) (Spec.opB f c l)) s v r)

/-- R99: 64-bit sums and differences on pairs, and the exact 64-bit products of 32-bit sources. -/
def Sys2Proof.Spec.LanePairs : Prop :=
  ∀ (f : LR) (s : State) (v : Wave) (r : Run),
    (Issues (.addI64 f) s v r → exec (.addI64 f) s = Spec.laneDone (.addI64 f) f 2 (fun c l => (Spec.pairA f c l + Spec.pairB f c l) % 2 ^ 64) s v r) ∧
    (Issues (.subI64 f) s v r →
      exec (.subI64 f) s = Spec.laneDone (.subI64 f) f 2 (fun c l => Spec.wrap 64 ((Spec.pairA f c l : Int) - Spec.pairB f c l)) s v r) ∧
    (Issues (.mulWideI32 f) s v r → exec (.mulWideI32 f) s = Spec.laneDone (.mulWideI32 f) f 2
      (fun c l => Spec.wrap 64 (Spec.signed 32 (Spec.opA f c l) * Spec.signed 32 (Spec.opB f c l))) s v r) ∧
    (Issues (.mulWideN32 f) s v r → exec (.mulWideN32 f) s = Spec.laneDone (.mulWideN32 f) f 2 (fun c l => Spec.opA f c l * Spec.opB f c l) s v r)

/-- R51, R102: a compare writes predicate D[2:0] of every active fibre with condition D[5:3]. -/
def Sys2Proof.Spec.LaneCompare : Prop :=
  ∀ (f : LR) (s : State) (v : Wave) (r : Run),
    (Issues (.cmpI32 f) s v r → exec (.cmpI32 f) s = Spec.predDone (.cmpI32 f) f
      (fun c l => Spec.intCond (f.d.toNat / 8) (Spec.signed 32 (Spec.opA f c l)) (Spec.signed 32 (Spec.opB f c l))) s v r) ∧
    (Issues (.cmpN32 f) s v r → exec (.cmpN32 f) s = Spec.predDone (.cmpN32 f) f
      (fun c l => Spec.intCond (f.d.toNat / 8) (Spec.opA f c l) (Spec.opB f c l)) s v r) ∧
    (Issues (.cmpF32 f) s v r → exec (.cmpF32 f) s = Spec.predDone (.cmpF32 f) f
      (fun c l => Spec.fltCond (f.d.toNat / 8) (Fmt.f32.decode (Spec.opA f c l)) (Fmt.f32.decode (Spec.opB f c l))) s v r) ∧
    (Issues (.cmpF64 f) s v r → exec (.cmpF64 f) s = Spec.predDone (.cmpF64 f) f
      (fun c l => Spec.fltCond (f.d.toNat / 8) (Fmt.f64.decode (readF64 c f.ow l f.a.toNat).toNat) (Fmt.f64.decode (readF64 c f.ow l f.b.toNat).toNat)) s v r)

/-- R51, R103: pr combines two predicates by function D[5:3] into predicate D[2:0]. -/
def Sys2Proof.Spec.LanePredicates : Prop :=
  ∀ (f : LR) (s : State) (v : Wave) (r : Run),
    Issues (.pr f) s v r → exec (.pr f) s = Spec.predDone (.pr f) f
      (fun c l =>
        let a := c.v.pred l (f.a.toNat % 8)
        let b := c.v.pred l (f.b.toNat % 8)
        [a && b, a || b, a != b, a && !b, a || !b, !a, a, a].getD (f.d.toNat / 8) false) s v r

/-- R104: sel, at OP 0x25, writes to D of every active fibre a where the fibre's predicate S reads 1, else b; S is bits [2:0] of the opcode word. -/
def Obligations.LaneSelect : Prop :=
  ∀ (f : LR) (s : State) (v : Wave) (r : Run),
    Spec.opcode (.sel f) = 0x25 ∧ Spec.xWord (.sel f) = f.x ∧
    (Issues (.sel f) s v r → exec (.sel f) s = Spec.laneDone (.sel f) f 1
      (fun c l => if c.v.pred l (f.x.toNat % 8) then Spec.opA f c l else Spec.opB f c l) s v r)

namespace Sys2Proof.Spec
/-- The effect of a lane instruction that writes n registers and raises flags: the flags of the active lanes ORed (R90). `st` is the state after
the draws of the lane generators. -/
def lanesFlag (i : Instr) (f : LR) (n : Nat) (val : Ctx → Nat → Nat × FFlags) (st s : State) (v : Wave) (r : Run) : Host.Outcome State Fault Refusal :=
  done i s v r
    { s := st
      writes := (s.ctx v r i).act.flatMap (fun l => laneWrites (s.ctx v r i) f.v1 l f.d.toNat n (val (s.ctx v r i) l).1)
      flags := flagBits ((s.ctx v r i).act.map (fun l => (val (s.ctx v r i) l).2)) }

/-- One rounding to nearest even of an exact result, SAT = 0, with NV where the operation was invalid (R83, R106). -/
def rounded (F : Fmt) (x : FVal × Bool) : Nat × FFlags :=
  ((F.round x.1 .rne false 0).1, (F.round x.1 .rne false 0).2.or { nv := x.2 })
def fsum (F : Fmt) (a b : Nat) : Nat × FFlags := rounded F ((F.decode a).add (F.decode b))
def fdiff (F : Fmt) (a b : Nat) : Nat × FFlags := rounded F ((F.decode a).add (F.decode b).neg)
def fprod (F : Fmt) (a b : Nat) : Nat × FFlags := rounded F ((F.decode a).mul (F.decode b))
def ffma (F : Fmt) (a b c : Nat) : Nat × FFlags := rounded F ((F.decode a).fma (F.decode b) (F.decode c))
/-- The lesser and the greater of two operands (R107): one NaN gives the other operand, two give the canonical NaN, and -0 is below +0. -/
def fless (F : Fmt) (a b : Nat) : Bool :=
  (F.decode a).cmp (F.decode b) == .lt || ((F.decode a).cmp (F.decode b) == .eq && (F.decode a).isNeg)
def fmin (F : Fmt) (a b : Nat) : Nat :=
  if (F.decode a).isNan && (F.decode b).isNan then F.nanCode else if (F.decode a).isNan then b else if (F.decode b).isNan then a
  else if fless F a b then a else b
def fmax (F : Fmt) (a b : Nat) : Nat :=
  if (F.decode a).isNan && (F.decode b).isNan then F.nanCode else if (F.decode a).isNan then b else if (F.decode b).isNan then a
  else if fless F a b then b else a
/-- The two halves of a packed operation, apart (R109). -/
def pair16 (op : Nat → Nat → Nat × FFlags) (a b : Nat) : Nat × FFlags :=
  ((op (a % 65536) (b % 65536)).1 + 65536 * (op (a / 65536) (b / 65536)).1, (op (a % 65536) (b % 65536)).2.or (op (a / 65536) (b / 65536)).2)
def triple16 (op : Nat → Nat → Nat → Nat × FFlags) (a b c : Nat) : Nat × FFlags :=
  ((op (a % 65536) (b % 65536) (c % 65536)).1 + 65536 * (op (a / 65536) (b / 65536) (c / 65536)).1,
   (op (a % 65536) (b % 65536) (c % 65536)).2.or (op (a / 65536) (b / 65536) (c / 65536)).2)

def flt2 : List ((LR → Instr) × (Nat → Nat → Nat × FFlags)) :=
  [(.addF32, fsum Fmt.f32), (.subF32, fdiff Fmt.f32), (.mulF32, fprod Fmt.f32),
   (.minF32, fun a b => (fmin Fmt.f32 a b, FFlags.none)), (.maxF32, fun a b => (fmax Fmt.f32 a b, FFlags.none)),
   (.add2Bf16, pair16 (fsum Fmt.bf16)), (.mul2Bf16, pair16 (fprod Fmt.bf16)), (.add2F16, pair16 (fsum Fmt.f16)), (.mul2F16, pair16 (fprod Fmt.f16))]
def flt3 : List ((LR → Instr) × (Nat → Nat → Nat → Nat × FFlags)) :=
  [(.fmaF32, ffma Fmt.f32), (.fma2Bf16, triple16 (ffma Fmt.bf16)), (.fma2F16, triple16 (ffma Fmt.f16))]
def dbl2 : List ((LR → Instr) × (Nat → Nat → Nat × FFlags)) :=
  [(.addF64, fsum Fmt.f64), (.mulF64, fprod Fmt.f64),
   (.minF64, fun a b => (fmin Fmt.f64 a b, FFlags.none)), (.maxF64, fun a b => (fmax Fmt.f64 a b, FFlags.none))]
/-- abs and neg (R106, R107): the sign bit, or the canonical NaN. -/
def flt1 : List ((LR → Instr) × (Nat → Nat × FFlags)) :=
  [(.absF32, fun a => (if (Fmt.f32.decode a).isNan then 0x7FC00000 else a % 2 ^ 31, FFlags.none)),
   (.negF32, fun a => (if (Fmt.f32.decode a).isNan then 0x7FC00000 else (a + 2 ^ 31) % 2 ^ 32, FFlags.none))]
/-- The special functions (R113); where the model cannot tell which of two neighbours is the rounded value it takes a free value (log 15). -/
def special : List ((LR → Instr) × (Nat → Nat × FFlags)) :=
  [(.rcpF32, rcpOp), (.rsqF32, rsqOp), (.sqrtF32, sqrtOp), (.ex2F32, fun a => ex2Op (sfuFree 3 a) a), (.lg2F32, fun a => lg2Op (sfuFree 4 a) a),
   (.sinPiF32, fun a => sinPiOp (sfuFree 5 a) a), (.cosPiF32, fun a => cosPiOp (sfuFree 6 a) a), (.tanhF32, fun a => tanhOp (sfuFree 7 a) a)]
end Sys2Proof.Spec

/-- R106, R107, R108, R109: sums, differences, products and fused products are the exact result rounded once; min and max, abs and neg follow R107;
packed operations work on the two halves apart; the flags of all active lanes are ORed. -/
def Obligations.LaneFloat : Prop :=
  ∀ (f : LR) (s : State) (v : Wave) (r : Run),
    (∀ p ∈ Spec.flt2, Issues (p.1 f) s v r → exec (p.1 f) s = Spec.lanesFlag (p.1 f) f 1 (fun c l => p.2 (Spec.opA f c l) (Spec.opB f c l)) s s v r) ∧
    (∀ p ∈ Spec.flt3, Issues (p.1 f) s v r →
      exec (p.1 f) s = Spec.lanesFlag (p.1 f) f 1 (fun c l => p.2 (Spec.opA f c l) (Spec.opB f c l) (Spec.opC f c l)) s s v r) ∧
    (∀ p ∈ Spec.dbl2, Issues (p.1 f) s v r →
      exec (p.1 f) s = Spec.lanesFlag (p.1 f) f 2 (fun c l => p.2 (readF64 c f.ow l f.a.toNat).toNat (readF64 c f.ow l f.b.toNat).toNat) s s v r) ∧
    (Issues (.fmaF64 f) s v r → exec (.fmaF64 f) s = Spec.lanesFlag (.fmaF64 f) f 2 (fun c l => Spec.ffma Fmt.f64
      (readF64 c f.ow l f.a.toNat).toNat (readF64 c f.ow l f.b.toNat).toNat (readF64 c f.ow l (f.x.toNat % 64)).toNat) s s v r) ∧
    (∀ p ∈ Spec.flt1, Issues (p.1 f) s v r → exec (p.1 f) s = Spec.lanesFlag (p.1 f) f 1 (fun c l => p.2 (Spec.opA f c l)) s s v r)

/-- R74, R84, R107: where an operand is NaN every sum, product and fused product of the IEEE formats is the canonical NaN and raises no flag; an
infinity minus itself and zero times infinity are NaN with NV. -/
def Sys2Proof.Spec.FloatInvalid : Prop :=
  ∀ F ∈ [Fmt.f32, Fmt.f64, Fmt.f16, Fmt.bf16], ∀ a b c : Nat,
    (((F.decode a).isNan = true ∨ (F.decode b).isNan = true) →
      F.addOp a b = (F.nanCode, {}) ∧ F.subOp a b = (F.nanCode, {}) ∧ F.mulOp a b = (F.nanCode, {}) ∧ F.fmaOp a b c = (F.nanCode, {})) ∧
    (∀ n, F.decode a = .inf n → F.subOp a a = (F.nanCode, { nv := true })) ∧
    (∀ n m e, F.decode a = .inf n → F.decode b = .fin m 0 e → F.mulOp a b = (F.nanCode, { nv := true }) ∧ F.fmaOp a b c = (F.nanCode, { nv := true }))

namespace Sys2Proof.Spec
/-- The exact distance of two finite values, as a value that is not negative. -/
def dist (x y : FVal) : FVal := match (x.add y.neg).1 with
  | .fin _ m e => .fin false m e
  | z => z
end Sys2Proof.Spec

/-- R83: rounding an exact value into an IEEE format. RD gives the greatest value of the format that is not above it, RU the least that is not below it, RZ that of the two
that is nearer to zero; RNE gives, where its result is finite, a value at the least distance, and of two such the one with an even code. NX is raised exactly where the
result differs from the value. -/
def Sys2Proof.Spec.FloatRounding : Prop :=
  ∀ F ∈ [Fmt.f32, Fmt.f64, Fmt.f16, Fmt.bf16], ∀ (n : Bool) (m : Nat) (e : Int) (d : Nat),
    let x : FVal := .fin n m e
    let at_ := fun mode => F.decode (F.round x mode false d).1
    (at_ .rd).cmp x ≠ .gt ∧ x.cmp (at_ .ru) ≠ .gt ∧ at_ .rz = at_ (if n then .ru else .rd) ∧
    (∀ c < 2 ^ F.width, (F.decode c).isNan = false →
      ((F.decode c).cmp x ≠ .gt → (F.decode c).cmp (at_ .rd) ≠ .gt) ∧ (x.cmp (F.decode c) ≠ .gt → (at_ .ru).cmp (F.decode c) ≠ .gt)) ∧
    (∀ n' m' e', at_ .rne = .fin n' m' e' → ∀ c < 2 ^ F.width, ∀ n2 m2 e2, F.decode c = .fin n2 m2 e2 →
      (Spec.dist x (at_ .rne)).cmp (Spec.dist x (F.decode c)) ≠ .gt ∧
      ((Spec.dist x (at_ .rne)).cmp (Spec.dist x (F.decode c)) = .eq → (at_ .rne).cmp (F.decode c) ≠ .eq → (F.round x .rne false d).1 % 2 = 0)) ∧
    (∀ mode, (F.round x mode false d).2.nx = true ↔ (at_ mode).cmp x ≠ .eq)

/-- R113's table of special operands, for the codes of binary32. -/
def Sys2Proof.Spec.SpecialOperands : Prop :=
  (∀ p ∈ Spec.special, p.2 0x7FC00000 = (0x7FC00000, {}) ∧ p.2 0xFF800001 = (0x7FC00000, {})) ∧
  rcpOp 0 = (0x7F800000, { dz := true }) ∧ rcpOp 0x80000000 = (0xFF800000, { dz := true }) ∧ rcpOp 0x7F800000 = (0, {}) ∧ rcpOp 0xFF800000 = (0x80000000, {}) ∧
  rsqOp 0 = (0x7F800000, { dz := true }) ∧ rsqOp 0x80000000 = (0xFF800000, { dz := true }) ∧ rsqOp 0xBF800000 = (0x7FC00000, { nv := true }) ∧
  rsqOp 0x7F800000 = (0, {}) ∧
  sqrtOp 0 = (0, {}) ∧ sqrtOp 0x80000000 = (0x80000000, {}) ∧ sqrtOp 0xBF800000 = (0x7FC00000, { nv := true }) ∧ sqrtOp 0x7F800000 = (0x7F800000, {}) ∧
  (∀ x, ex2Op x 0xFF800000 = (0, {}) ∧ ex2Op x 0x7F800000 = (0x7F800000, {}) ∧ ex2Op x 0 = (0x3F800000, {}) ∧ ex2Op x 0x80000000 = (0x3F800000, {})) ∧
  (∀ x, lg2Op x 0 = (0xFF800000, { dz := true }) ∧ lg2Op x 0x80000000 = (0xFF800000, { dz := true }) ∧ lg2Op x 0xBF800000 = (0x7FC00000, { nv := true }) ∧
    lg2Op x 0x7F800000 = (0x7F800000, {}) ∧ lg2Op x 0x3F800000 = (0, {})) ∧
  (∀ x, sinPiOp x 0x7F800000 = (0x7FC00000, { nv := true }) ∧ sinPiOp x 0 = (0, {}) ∧ sinPiOp x 0x80000000 = (0x80000000, {}) ∧
    sinPiOp x 0x3F800000 = (0, {}) ∧ sinPiOp x 0xBF800000 = (0x80000000, {})) ∧
  (∀ x, cosPiOp x 0x7F800000 = (0x7FC00000, { nv := true }) ∧ cosPiOp x 0x3F000000 = (0, {}) ∧ cosPiOp x 0xBF000000 = (0, {})) ∧
  (∀ x, tanhOp x 0x7F800000 = (0x3F800000, {}) ∧ tanhOp x 0xFF800000 = (0xBF800000, {}) ∧ tanhOp x 0 = (0, {}) ∧ tanhOp x 0x80000000 = (0x80000000, {}))

namespace Sys2Proof.Spec
/-- An 8-bit draw, first bit out is bit 7, and n draws one after another (R87). -/
def draw (g : W32) : Nat × W32 :=
  (List.range 8).foldl (fun acc _ => (2 * acc.1 + (if (srStep acc.2).1 then 1 else 0), (srStep acc.2).2)) (0, g)
def draws : Nat → W32 → List Nat × W32
  | 0, g => ([], g)
  | n + 1, g => ((draw g).1 :: (draws n (draw g).2).1, (draws n (draw g).2).2)
/-- The k-th draw of lane l for an instruction, 0 where its mode is not SR. -/
def drawAt (c : Ctx) (sr : Bool) (k l : Nat) : Nat := if sr then ((draws (k + 1) (c.v.gen l)).1).getD k 0 else 0
/-- pack.p8 (R111): the elements 2q and 2q + 1 of D become the rounded a and b, and the rest of D stays. -/
def pack (f : LR) (c : Ctx) (l : Nat) : Nat × FFlags :=
  let F := cvtFmt (xDst f.x)
  let x := F.round (Fmt.f32.decode (opA f c l)) (cvtMode f.x) (f.x.getLsbD 15) (drawAt c (cvtMode f.x == .sr) 0 l)
  let y := F.round (Fmt.f32.decode (opB f c l)) (cvtMode f.x) (f.x.getLsbD 15) (drawAt c (cvtMode f.x == .sr) 1 l)
  let p := 2 * (f.x.toNat / 2 ^ 16 % 4) * F.width
  let old := (readLane c f.ow l f.d.toNat).toNat
  (old % 2 ^ p + (x.1 + y.1 * 2 ^ F.width) * 2 ^ p + old / 2 ^ (p + 2 * F.width) * 2 ^ (p + 2 * F.width), x.2.or y.2)
/-- unpack.p8 (R112): element q of a for f32, elements 2q and 2q + 1 for the 16-bit formats. -/
def unpack (f : LR) (c : Ctx) (l : Nat) : Nat × FFlags :=
  let S := cvtFmt (xSrc f.x)
  let q := f.x.toNat / 2 ^ 16 % 4
  let el := fun n k => (cvtFmt (xDst f.x)).round (S.decode (opA f c l / 2 ^ (n * S.width) % 2 ^ S.width)) (cvtMode f.x) (f.x.getLsbD 15) (drawAt c (cvtMode f.x == .sr) k l)
  if xDst f.x = 9 then el q 0
  else ((el (2 * q) 0).1 + (el (2 * q + 1) 1).1 * 2 ^ 16, (el (2 * q) 0).2.or (el (2 * q + 1) 1).2)
end Sys2Proof.Spec

/-- R87, R110, R111, R112, R113: the special functions, the conversion and the packing instructions issue, write their result in every active lane and
raise its flags; under SR the generators of the active lanes, and no others, move on by one draw for cvt, two for pack.p8 and one for each element
written by unpack.p8. The conversion is that of the two formats, the mode and SAT of the X-CVT word. -/
def Sys2Proof.Spec.LaneConvert : Prop :=
  ∀ (f : LR) (s : State) (v : Wave) (r : Run),
    (∀ p ∈ Spec.special, Issues (p.1 f) s v r → exec (p.1 f) s = Spec.lanesFlag (p.1 f) f 1 (fun c l => p.2 (Spec.opA f c l)) s s v r) ∧
    (Issues (.cvt f) s v r → exec (.cvt f) s = Spec.lanesFlag (.cvt f) f (if (cvtFmt (xDst f.x)).width = 64 then 2 else 1)
      (fun c l => convert (cvtFmt (xSrc f.x)) (cvtFmt (xDst f.x)) (cvtMode f.x) (f.x.getLsbD 15) (Spec.drawAt c (cvtMode f.x == .sr) 0 l)
        (if xSrc f.x = 8 then (readF64 c f.ow l f.a.toNat).toNat else if xSrc f.x = 6 ∨ xSrc f.x = 7 then Spec.pairA f c l else Spec.opA f c l))
      (drewAll (s.ctx v r (.cvt f)) (cvtMode f.x == .sr) 1 s) s v r) ∧
    (Issues (.packP8 f) s v r → exec (.packP8 f) s =
      Spec.lanesFlag (.packP8 f) f 1 (Spec.pack f) (drewAll (s.ctx v r (.packP8 f)) (cvtMode f.x == .sr) 2 s) s v r) ∧
    (Issues (.unpackP8 f) s v r → exec (.unpackP8 f) s =
      Spec.lanesFlag (.unpackP8 f) f 1 (Spec.unpack f)
        (drewAll (s.ctx v r (.unpackP8 f)) (cvtMode f.x == .sr) (if xDst f.x = 9 then 1 else 2) s) s v r)

namespace Sys2Proof.Spec
/-- An integer is in the range of an integer format. -/
def fits (b : Bool) (w : Nat) (z : Int) : Bool :=
  if b then decide (-(2 : Int) ^ (w - 1) ≤ z) && decide (z < (2 : Int) ^ (w - 1)) else decide (0 ≤ z) && decide (z < (2 : Int) ^ w)
/-- NV exactly where a value is out of the range of the integer format that it is converted to (R89; for integer sources log 68). -/
def rangeFlag (b : Bool) (w : Nat) (z : Int) : FFlags := if fits b w z then {} else { nv := true }
end Sys2Proof.Spec

/-- R110, R86: conversions between equal formats change nothing but a NaN, which becomes canonical; between integer formats they keep the low bits,
or clamp under SAT, and raise NV where the value is out of range (that R89 means integer sources too is the model's reading, log 68); a NaN becomes integer 0 with NV. -/
def Sys2Proof.Spec.ConversionRules : Prop :=
  (∀ (F : Fmt) (m : RMode) (sat : Bool) (d c : Nat), c < 2 ^ F.width → (F.decode c).isNan = false → convert F F m sat d c = (c, {})) ∧
  (∀ (F : Fmt) (m : RMode) (sat : Bool) (d c : Nat), F.isInt = false → c < 2 ^ F.width → (F.decode c).isNan = true → convert F F m sat d c = (F.nanCode, {})) ∧
  (∀ (w w' : Nat) (a b : Bool) (m : RMode) (d c : Nat), (a, w) ≠ (b, w') → 0 < w → 0 < w' → c < 2 ^ w →
    convert (.int a w) (.int b w') m false d c = (Spec.wrap w' (if a then Spec.signed w c else c),
      Spec.rangeFlag b w' (if a then Spec.signed w c else c))) ∧
  (∀ (w w' : Nat) (a b : Bool) (m : RMode) (d c : Nat), (a, w) ≠ (b, w') → 0 < w → 0 < w' → c < 2 ^ w →
    convert (.int a w) (.int b w') m true d c =
      (Spec.wrap w' (max (if b then -(2 : Int) ^ (w' - 1) else 0) (min (if b then (2 : Int) ^ (w' - 1) - 1 else (2 : Int) ^ w' - 1)
        (if a then Spec.signed w c else c))), Spec.rangeFlag b w' (if a then Spec.signed w c else c))) ∧
  (∀ (F : Fmt) (a : Bool) (w : Nat) (m : RMode) (sat : Bool) (d c : Nat), F.isInt = false → c < 2 ^ F.width → (F.decode c).isNan = true →
    convert F (.int a w) m sat d c = (0, { nv := true }))

namespace Sys2Proof.Spec
/-- Poisoned source words that a shuffle would lend (R472). -/
def lends (f : LR) (op : XOp) (c : Ctx) : Prop :=
  (op = .shflIdx ∨ op = .shflUp ∨ op = .shflDown ∨ op = .shflXor) → f.a.toNat < 0x30 → ∀ l ∈ c.lanes, c.v.vpoison.contains (l * 256 + c.v.winBase l + f.a.toNat) = false
/-- The member set that an issue at this PC meets (R115): that of the pending instance, else the mask that X-XL names, below W. -/
def members (f : LR) (c : Ctx) : W64 :=
  match c.v.instances.find? (fun i => i.pc == c.run.pc) with
  | some i => i.members
  | none => c.v.mask (f.x.toNat % 16) &&& laneMask c.v.width
/-- What the members offer to a reduction (R115, R118): an arrived member whose guard reads 1 its value, one whose lane holds no fibre 0. -/
def offered (m : W64) (w : Nat) (arr : List Arrival) (n : Nat) : Prop :=
  (∃ x ∈ arr, x.active = true ∧ x.a.toNat = n) ∨ (n = 0 ∧ ∃ l < w, m.getLsbD l = true ∧ ∀ x ∈ arr, x.lane ≠ l)
/-- What a fibre that forms a group of one writes (R115 to R119): its own a, its own truth, or its own bit of the mask. -/
def aloneIn (op : XOp) (a : Arrival) : List Write :=
  match op with
  | .voteAny | .voteAll => [{ loc := .p a.lane (a.d % 8), val := if a.truth then 1#64 else 0#64 }]
  | .ballot | .matchV =>
    let x := if op = .matchV ∨ a.truth = true then 2 ^ a.lane else 0
    if a.d < 0x30 then [{ loc := .v a.lane (a.winBase + a.d), val := BitVec.ofNat 64 (x % 2 ^ 32) },
      { loc := .v a.lane (a.winBase + a.d + 1), val := BitVec.ofNat 64 (x / 2 ^ 32) }] else []
  | _ => if a.d < 0x30 then [{ loc := .v a.lane (a.winBase + a.d), val := BitVec.ofNat 64 a.a.toNat }] else []
def cross : List ((LR → Instr) × XOp) :=
  [(.shflIdx, .shflIdx), (.shflUp, .shflUp), (.shflDown, .shflDown), (.shflXor, .shflXor), (.voteAny, .voteAny), (.voteAll, .voteAll),
   (.voteBallot, .ballot), (.reduxAdd, .redAdd), (.reduxMin, .redMin), (.reduxMax, .redMax), (.matchB32, .matchV)]
end Sys2Proof.Spec

/-- R114, R115: a cross-lane instruction issues: the batch's lanes that are members arrive at the instance of its PC (formed now if none is pending)
and are held; each of the others completes alone, as a group of one, and its result is written. -/
def Sys2Proof.Spec.CrossLaneIssue : Prop :=
  ∀ p ∈ Spec.cross, ∀ (f : LR) (s : State) (v : Wave) (r : Run), Issues (p.1 f) s v r → Spec.lends f p.2 (s.ctx v r (p.1 f)) →
    let c := s.ctx v r (p.1 f)
    let m := Spec.members f c
    exec (p.1 f) s = Spec.done (p.1 f) s v r
      { s := s.modWave s.turn (fun v => v.joinInstance r.pc p.2 (xEty f.x) m ((c.lanes.filter (fun l => m.getLsbD l)).map (arrive c f)))
        writes := (c.lanes.filter (fun l => !m.getLsbD l)).flatMap (fun l => (groupWrites p.2 (xEty f.x) (maskOf [l]) v.width [arrive c f l]).1)
        onEnd := if (c.lanes.filter (fun l => m.getLsbD l)) = [] then .go else .crossLane }

/-- R115 to R119: a cross-lane instruction completes. Where no lane of the batch is a member each active lane is a group of one: a shuffle and an integer
reduction write its own a, a vote its own truth, the ballot and match its own bit or none. Where the batch holds every member that holds a fibre, and no instance of the PC is
pending, the instance is complete when the instruction has issued, and completing it writes the result of each active lane to its register, pair or predicate. -/
def Sys2Proof.Spec.CrossLaneCompletes : Prop :=
  ∀ p ∈ Spec.cross, ∀ (f : LR) (s : State) (v : Wave) (r : Run), Issues (p.1 f) s v r → Spec.lends f p.2 (s.ctx v r (p.1 f)) → v.width ≤ 64 →
    let c := s.ctx v r (p.1 f)
    let m := Spec.members f c
    ((∀ l ∈ c.lanes, m.getLsbD l = false) → xEty f.x < 2 →
      exec (p.1 f) s = Spec.done (p.1 f) s v r
        { s := s.modWave s.turn (fun v => v.joinInstance r.pc p.2 (xEty f.x) m []), writes := c.act.flatMap (fun l => Spec.aloneIn p.2 (arrive c f l)) }) ∧
    (r.pending = [] → (∀ i ∈ v.instances, i.pc ≠ r.pc) → (∀ l ∈ c.lanes, m.getLsbD l = true) →
      (∀ l < v.width, m.getLsbD l = true → v.live.getLsbD l = true → l ∈ c.lanes) →
      let i : Instance := { pc := r.pc, members := m, op := p.2, ety := xEty f.x, arrived := c.lanes.map (arrive c f) }
      ∃ t v1, exec (p.1 f) s = .next t ∧ t.wave? s.turn = some v1 ∧ i ∈ v1.instances ∧ i.complete v1.live = true ∧
        i ∉ (v1.completeInstance i).instances ∧
        (∀ l, l ∉ c.act → ∀ q, (v1.completeInstance i).row l q = v1.row l q) ∧
        ∀ l ∈ c.act,
          let x := (instanceResult p.2 (xEty f.x) m v.width i.arrived).1 (arrive c f l)
          (p.2 = .voteAny ∨ p.2 = .voteAll → f.d.toNat % 8 ≠ 0 → (v1.completeInstance i).pred l (f.d.toNat % 8) = x.getLsbD 0) ∧
          (p.2 ≠ .voteAny → p.2 ≠ .voteAll → f.d.toNat < 0x30 →
            (v1.completeInstance i).row l (v.winBase l + f.d.toNat) = BitVec.ofNat 32 x.toNat ∧
            (p.2 = .ballot ∨ p.2 = .matchV → (v1.completeInstance i).row l (v.winBase l + f.d.toNat + 1) = BitVec.ofNat 32 (x.toNat / 2 ^ 32))))

/-- R116, R117, R119: what a contributing member of a complete instance receives: from a shuffle the a of the source lane where that is a member, else its
own; from a vote whether any, or every, member counts as true; from the ballot the mask of the members that count as true; from match the mask of
the contributing members with an equal a. -/
def Sys2Proof.Spec.CrossLaneResults : Prop :=
  ∀ (ety w : Nat) (m : W64) (arr : List Arrival) (a : Arrival), w ≤ 64 → (arr.map (·.lane)).Nodup → (∀ x ∈ arr, m.getLsbD x.lane = true ∧ x.lane < w) →
    (∀ op ∈ [XOp.shflIdx, .shflUp, .shflDown, .shflXor],
      ∀ j : Nat, shflSrc op a.lane a.b = j → j < w → m.getLsbD j = true → ∀ x ∈ arr, x.lane = j →
        ((instanceResult op ety m w arr).1 a).toNat = x.a.toNat) ∧
    (∀ op ∈ [XOp.shflIdx, .shflUp, .shflDown, .shflXor],
      (shflSrc op a.lane a.b < 0 ∨ (w : Int) ≤ shflSrc op a.lane a.b ∨ m.getLsbD (shflSrc op a.lane a.b).toNat = false) →
        ((instanceResult op ety m w arr).1 a).toNat = a.a.toNat) ∧
    ((instanceResult .voteAny ety m w arr).1 a = 1#64 ↔ ∃ x ∈ arr, x.active = true ∧ x.truth = true) ∧
    ((instanceResult .voteAll ety m w arr).1 a = 1#64 ↔ ∀ l < w, m.getLsbD l = true → ∃ x ∈ arr, x.lane = l ∧ x.active = true ∧ x.truth = true) ∧
    (∀ l < 64, ((instanceResult .ballot ety m w arr).1 a).getLsbD l = true ↔ ∃ x ∈ arr, x.lane = l ∧ x.active = true ∧ x.truth = true) ∧
    (∀ l < 64, ((instanceResult .matchV ety m w arr).1 a).getLsbD l = true ↔ ∃ x ∈ arr, x.lane = l ∧ x.active = true ∧ x.a = a.a) ∧
    (∀ op ∈ [XOp.shflIdx, .shflUp, .shflDown, .shflXor],
      ∀ j : Nat, shflSrc op a.lane a.b = j → j < w → m.getLsbD j = true → (∀ x ∈ arr, x.lane ≠ j) → ((instanceResult op ety m w arr).1 a).toNat = 0)

/-- R115, R118: redux.add of i32 and n32 is the wrapped sum of what the members offer, the minima and maxima of both are one of the offers that no
other passes, and an f32 sum, minimum or maximum of two offers is that of R83 and R107. A member whose guard reads 0 offers nothing, one whose lane holds no
fibre offers 0. -/
def Sys2Proof.Spec.ReduxResults : Prop :=
  ∀ (w : Nat) (m : W64) (arr : List Arrival) (a : Arrival), w ≤ 64 → (arr.map (·.lane)).Nodup → (∀ x ∈ arr, m.getLsbD x.lane = true ∧ x.lane < w) →
    (∀ ety < 2, ((instanceResult .redAdd ety m w arr).1 a).toNat = ((arr.filter (·.active)).map (fun x => x.a.toNat)).sum % 2 ^ 32) ∧
    ((∃ n, Spec.offered m w arr n) →
      (Spec.offered m w arr ((instanceResult .redMin 1 m w arr).1 a).toNat ∧ Spec.offered m w arr ((instanceResult .redMax 1 m w arr).1 a).toNat ∧
        ∀ n, Spec.offered m w arr n → ((instanceResult .redMin 1 m w arr).1 a).toNat ≤ n ∧ n ≤ ((instanceResult .redMax 1 m w arr).1 a).toNat) ∧
      (Spec.offered m w arr ((instanceResult .redMin 0 m w arr).1 a).toNat ∧ Spec.offered m w arr ((instanceResult .redMax 0 m w arr).1 a).toNat ∧
        ∀ n, Spec.offered m w arr n → Spec.signed 32 ((instanceResult .redMin 0 m w arr).1 a).toNat ≤ Spec.signed 32 n ∧
          Spec.signed 32 n ≤ Spec.signed 32 ((instanceResult .redMax 0 m w arr).1 a).toNat)) ∧
    (∀ x y : Arrival, arr = [x, y] → x.lane < y.lane → x.active = true → y.active = true → (∀ l < w, m.getLsbD l = true → l = x.lane ∨ l = y.lane) →
      (∀ p ∈ [(XOp.redAdd, (Spec.fsum Fmt.f32 x.a.toNat y.a.toNat).1), (.redMin, Spec.fmin Fmt.f32 x.a.toNat y.a.toNat), (.redMax, Spec.fmax Fmt.f32 x.a.toNat y.a.toNat)],
        (Fmt.f32.decode x.a.toNat).isNan = false → ((instanceResult p.1 2 m w arr).1 a).toNat = p.2) ∧
      (instanceResult .redAdd 2 m w arr).2 = (Spec.fsum Fmt.f32 x.a.toNat y.a.toNat).2)

/-- R48, R118, R120, R121, R122, R123, R124, R396: histogram increments and merges, per-fibre branches, window moves, vget and vset issue with the
effects the rules give. In trap and debug mode vget and vset reach the frozen run's temporaries, vset when its result commits. -/
def Obligations.LaneControl : Prop :=
  ∀ (f : LR) (b : LB) (s : State) (v : Wave) (r : Run),
    (Issues (.histAdd f) s v r → exec (.histAdd f) s = Spec.done (.histAdd f) s v r
      (let c := s.ctx v r (.histAdd f)
       let hit := c.act.filter (fun l => decide (Spec.opA f c l < xBins f.x))
       let sum := fun l => if xEty f.x = 2 then Fmt.f32.addOp (readLane c f.ow l (f.d.toNat + Spec.opA f c l)).toNat (Spec.opB f c l)
         else (((readLane c f.ow l (f.d.toNat + Spec.opA f c l)).toNat + Spec.opB f c l) % 2 ^ 32, FFlags.none)
       { s := s
         writes := hit.flatMap (fun l => laneWrites c f.v1 l (f.d.toNat + Spec.opA f c l) 1 (sum l).1)
         flags := flagBits (hit.map (fun l => (sum l).2)) })) ∧
    (Issues (.histMerge f) s v r → xBins f.x ≤ v.width → exec (.histMerge f) s = Spec.done (.histMerge f) s v r
      (let c := s.ctx v r (.histMerge f)
       let bin := fun j => sumEty (xEty f.x) (c.act.map (fun l => (readLane c f.ow l (f.a.toNat + j)).toNat))
       { s := s
         writes := (List.range (xBins f.x)).flatMap (fun j => if c.act.contains j then laneWrites c f.v1 j f.d.toNat 1 (bin j).1 else [])
         flags := flagBits ((List.range (xBins f.x)).map (fun j => (bin j).2)) })) ∧
    (Issues (.brp b) s v r → exec (.brp b) s = Spec.done (.brp b) s v r
      { s := s, lanePc := (s.ctx v r (.brp b)).act.map (fun l => (l, r.pc + 4 * b.off.signExtend 48)) }) ∧
    (Issues (.winAdv f) s v r →
      (∀ l ∈ (s.ctx v r (.winAdv f)).act,
        let a := Spec.signed 32 (Spec.opA f (s.ctx v r (.winAdv f)) l)
        a % 8 = 0 ∧ v.winBase l % 8 = 0 ∧
        (if v.nvregs < 48 then (v.winBase l : Int) + a = 0 else 0 ≤ (v.winBase l : Int) + a ∧ (v.winBase l : Int) + a ≤ v.nvregs - 48)) →
      exec (.winAdv f) s = Spec.done (.winAdv f) s v r
        { s := s, winNext := (s.ctx v r (.winAdv f)).act.map (fun l => (l, ((v.winBase l : Int) + Spec.signed 32 (Spec.opA f (s.ctx v r (.winAdv f)) l)).toNat)) }) ∧
    (Issues (.vget f) s v r →
      (∀ l ∈ (s.ctx v r (.vget f)).act,
        let k := Spec.opB f (s.ctx v r (.vget f)) l % 64
        k ≤ 0x39 ∧ (k < 0x30 → v.winBase l + k < v.nvregs ∧ v.vpoison.contains (l * 256 + v.winBase l + k) = false)) →
      exec (.vget f) s = Spec.laneDone (.vget f) f 1 (fun c l =>
        let k := Spec.opB f c l % 64
        match v.frozenTemps with
        | none => (readLane c f.ow l k).toNat
        | some fr => if 0x30 ≤ k ∧ k < 0x38 then (Tab.getD fr.temps (l * 8 + (k - 0x30)) 0).toNat else (readLane c f.ow l k).toNat) s v r) ∧
    (Issues (.vset f) s v r →
      (∀ l ∈ (s.ctx v r (.vset f)).act,
        let k := Spec.opB f (s.ctx v r (.vset f)) l % 64
        k ≤ 0x38 ∧ (k < 0x30 → v.winBase l + k < v.nvregs)) →
      exec (.vset f) s = Spec.done (.vset f) s v r
        (let c := s.ctx v r (.vset f)
         let k := fun l => Spec.opB f c l % 64
         match v.frozenTemps with
         | none => { s := s, writes := c.act.flatMap (fun l => laneWrites c f.v1 l (k l) 1 (Spec.opA f c l)) }
         | some _ =>
           { s := s
             writes := c.act.flatMap (fun l => if 0x30 ≤ k l ∧ k l < 0x38 then [{ loc := .f l (k l - 0x30), val := BitVec.ofNat 64 (Spec.opA f c l) }]
               else laneWrites c f.v1 l (k l) 1 (Spec.opA f c l)) })) ∧
    (∀ (l n : Nat) (x : W64) (fr : Run), v.dbg = none → v.frozen = some fr → v.inTrap = true →
      (v.put (.f l n) x).frozen = some { fr with temps := Tab.set fr.temps (l * 8 + n) (BitVec.ofNat 32 x.toNat) } ∧
      ({ v.put (.f l n) x with frozen := none } : Wave) = { v with frozen := none })

/-! ## Uniform instructions -/

namespace Sys2Proof.Spec
/-- R127, R128: the uniform operations on a and b, as n64. -/
def uni2 : List ((GR → Instr) × (Nat → Nat → Nat)) :=
  [(.sAdd, fun a b => (a + b) % 2 ^ 64), (.sSub, fun a b => wrap 64 ((a : Int) - b)), (.sMul, fun a b => a * b % 2 ^ 64),
   (.sAnd, fun a b => a &&& b), (.sOr, fun a b => a ||| b), (.sXor, fun a b => a ^^^ b),
   (.sShl, fun a b => if b < 64 then a * 2 ^ b % 2 ^ 64 else 0), (.sShr, fun a b => if b < 64 then a / 2 ^ b else 0),
   (.sSra, fun a b => if b < 64 then wrap 64 (signed 64 a / 2 ^ b) else if a < 2 ^ 63 then 0 else 2 ^ 64 - 1),
   (.sMinI64, fun a b => if signed 64 a < signed 64 b then a else b), (.sMaxI64, fun a b => if signed 64 a < signed 64 b then b else a),
   (.sMinN64, fun a b => min a b), (.sMaxN64, fun a b => max a b), (.sMov, fun _ b => b)]
/-- i issues and writes one uniform register. -/
def uniDone (i : Instr) (d : Nat) (val : Nat) (s : State) (v : Wave) (r : Run) : Host.Outcome State Fault Refusal :=
  done i s v r { s := s, writes := [{ loc := .s d, val := BitVec.ofNat 64 val }] }
/-- i issues and writes one mask. -/
def maskDone (i : Instr) (k : Nat) (val : W64) (s : State) (v : Wave) (r : Run) : Host.Outcome State Fault Refusal :=
  done i s v r { s := s, writes := [{ loc := .k k, val := val }] }
/-- The 64-bit operands A and B of a uniform instruction. -/
def uA (f : GR) (c : Ctx) : Nat := (readA c f).toNat
def uB (f : GR) (c : Ctx) : Nat := (readB c f).toNat
/-- R48: the target of a branch of w offset bits. -/
def target (pc : BitVec 48) {w : Nat} (off : BitVec w) : BitVec 48 := pc + 4 * off.signExtend 48
end Sys2Proof.Spec

/-- R125, R127, R128: the uniform operations write D with the value of the tables. -/
def Obligations.UniformArithmetic : Prop :=
  ∀ (f : GR) (s : State) (v : Wave) (r : Run),
    (∀ p ∈ Spec.uni2, Issues (p.1 f) s v r →
      exec (p.1 f) s = Spec.uniDone (p.1 f) f.d.toNat (p.2 (Spec.uA f (s.ctx v r (p.1 f))) (Spec.uB f (s.ctx v r (p.1 f)))) s v r)

/-- R51, R129, R130: s.cmp, at OP 0x0E and 0x0F, writes 1 to sD where a C b holds, else 0, with the condition C in bits [2:0] of the opcode word; s.sel, at OP 0x10,
writes a where sC is not 0, else b, with C in bits [5:0] of the opcode word. All sources are read at issue. -/
def Obligations.UniformSelect : Prop :=
  ∀ (f : GR) (s : State) (v : Wave) (r : Run),
    (Spec.opcode (.sCmpI64 f) = 0x0E ∧ Spec.opcode (.sCmpN64 f) = 0x0F ∧ Spec.opcode (.sSel f) = 0x10) ∧
    (Spec.xWord (.sCmpI64 f) = f.x ∧ Spec.xWord (.sCmpN64 f) = f.x ∧ Spec.xWord (.sSel f) = f.x) ∧
    (Issues (.sCmpI64 f) s v r → exec (.sCmpI64 f) s = Spec.uniDone (.sCmpI64 f) f.d.toNat
      (if Spec.intCond (f.x.toNat % 8) (Spec.signed 64 (Spec.uA f (s.ctx v r (.sCmpI64 f)))) (Spec.signed 64 (Spec.uB f (s.ctx v r (.sCmpI64 f)))) then 1 else 0) s v r) ∧
    (Issues (.sCmpN64 f) s v r → exec (.sCmpN64 f) s = Spec.uniDone (.sCmpN64 f) f.d.toNat
      (if Spec.intCond (f.x.toNat % 8) (Spec.uA f (s.ctx v r (.sCmpN64 f))) (Spec.uB f (s.ctx v r (.sCmpN64 f))) then 1 else 0) s v r) ∧
    (Issues (.sSel f) s v r → exec (.sSel f) s = Spec.uniDone (.sSel f) f.d.toNat
      (if v.sreg (f.x.toNat % 64) = 0#64 then Spec.uB f (s.ctx v r (.sSel f)) else Spec.uA f (s.ctx v r (.sSel f))) s v r)

/-- R48, R131, R132, R133: the control transfers send the whole batch to one PC; call writes s59 with the address after its word; jmp needs a legal
address and traps with OPERAND 0x07 otherwise (its TVAL 5 is the model's reading, log 23); a conditional branch whose test fails goes on at the next instruction; no other register changes. -/
def Obligations.Branches : Prop :=
  ∀ (j : GJ) (g : GC) (f : GR) (s : State) (v : Wave) (r : Run),
    (Issues (.br j) s v r → exec (.br j) s = Spec.done (.br j) s v r { s := s, goto := some (Spec.target r.pc j.off) }) ∧
    (Issues (.call j) s v r → exec (.call j) s = Spec.done (.call j) s v r
      { s := s, writes := [{ loc := .s 59, val := (r.pc + 4#48).setWidth 64 }], goto := some (Spec.target r.pc j.off) }) ∧
    (Issues (.jmp f) s v r → (v.sreg f.a.toNat).toNat % 4 = 0 → (v.sreg f.a.toNat).toNat < 2 ^ 48 →
      exec (.jmp f) s = Spec.done (.jmp f) s v r { s := s, goto := some ((v.sreg f.a.toNat).setWidth 48) }) ∧
    (Issues (.jmp f) s v r → ((v.sreg f.a.toNat).toNat % 4 ≠ 0 ∨ 2 ^ 48 ≤ (v.sreg f.a.toNat).toNat) →
      ∃ t, exec (.jmp f) s = .next (s.issueTrap s.turn v r t (s.ctx v r (.jmp f)).site) ∧ t.cause = 4 ∧ t.sub = 7 ∧ t.tval = 5#64 ∧
        t.lanes = maskOf (s.ctx v r (.jmp f)).lanes) ∧
    (Issues (.bz g) s v r → exec (.bz g) s = Spec.done (.bz g) s v r
      { s := s, goto := if v.sreg g.a.toNat = 0#64 then some (Spec.target r.pc g.off) else none }) ∧
    (Issues (.bnz g) s v r → exec (.bnz g) s = Spec.done (.bnz g) s v r
      { s := s, goto := if v.sreg g.a.toNat = 0#64 then none else some (Spec.target r.pc g.off) }) ∧
    (Issues (.bneg g) s v r → exec (.bneg g) s = Spec.done (.bneg g) s v r
      { s := s, goto := if (v.sreg g.a.toNat).toInt < 0 then some (Spec.target r.pc g.off) else none })

/-- R22, R40, R134, R135: fib.spawn places a fibre in the lowest free lane below W with the target as PC, window base 0, clear predicates, zero registers and
a zero bit in every mask, takes the crew's spawn number, and writes lane and number; with no free lane it writes all ones and does nothing else.
fib.end ends the batch's fibres when its run has ended; where they are the wave's last the release of a wave's end (R202) begins. -/
def Sys2Proof.Spec.Fibres : Prop :=
  ∀ (g : GC) (f : GR) (s : State) (v : Wave) (r : Run),
    (Issues (.fibSpawn g) s v r → (∀ l < v.width, (v.fibre? l).isSome = true) →
      exec (.fibSpawn g) s = Spec.uniDone (.fibSpawn g) g.a.toNat (2 ^ 64 - 1) s v r) ∧
    (∀ l k, Issues (.fibSpawn g) s v r → l < v.width → v.fibre? l = none → (∀ m < l, (v.fibre? m).isSome = true) → s.crew? v.crew = some k →
      ∃ v', exec (.fibSpawn g) s = Spec.done (.fibSpawn g) s v r
          { s := (s.setCrew v.crew { k with spawn := k.spawn + 1 }).setWave s.turn v'
            writes := [{ loc := .s g.a.toNat, val := BitVec.ofNat 64 (l + k.spawn.toNat * 2 ^ 16) }], onEnd := .spawn l } ∧
        v'.fibre? l = some { pc := Spec.target r.pc g.off, preds := 0, winBase := 0, thread := k.spawn } ∧
        (∀ row, v'.row l row = 0) ∧ (∀ m, v'.mask m = v.mask m &&& ~~~(1#64 <<< l)) ∧
        (∀ m, m ≠ l → v'.fibre? m = v.fibre? m ∧ ∀ row, v'.row m row = v.row m row) ∧ v'.sregs = v.sregs) ∧
    (Issues (.fibEnd f) s v r → exec (.fibEnd f) s = Spec.done (.fibEnd f) s v r
      { s := if v.live &&& ~~~(maskOf (s.ctx v r (.fibEnd f)).lanes) = 0#64 then s.endRelease s.turn else s, onEnd := .fibEnd })

/-- R136, R137, R139: mk.join and mk.leave set and clear the lanes of the batch in kN, mk.mov copies between a mask and a uniform register, and mk.wait holds the batch on kN when its run has ended. -/
def Sys2Proof.Spec.Masks : Prop :=
  ∀ (f : GR) (s : State) (v : Wave) (r : Run),
    (Issues (.mkJoin f) s v r → exec (.mkJoin f) s =
      Spec.maskDone (.mkJoin f) f.d.toNat (v.mask f.d.toNat ||| maskOf (s.ctx v r (.mkJoin f)).lanes) s v r) ∧
    (Issues (.mkLeave f) s v r → exec (.mkLeave f) s =
      Spec.maskDone (.mkLeave f) f.d.toNat (v.mask f.d.toNat &&& ~~~(maskOf (s.ctx v r (.mkLeave f)).lanes)) s v r) ∧
    (Issues (.mkMovToMask f) s v r → exec (.mkMovToMask f) s = Spec.maskDone (.mkMovToMask f) f.d.toNat (v.sreg f.a.toNat) s v r) ∧
    (Issues (.mkMovFromMask f) s v r → exec (.mkMovFromMask f) s = Spec.uniDone (.mkMovFromMask f) f.d.toNat (v.mask f.a.toNat).toNat s v r) ∧
    (Issues (.mkWait f) s v r → exec (.mkWait f) s = Spec.done (.mkWait f) s v r { s := s, onEnd := .maskWait f.d.toNat })

/-- R23, R35, R135, R139, R231, R277: at the end of a run that ended in mk.wait, nb.wait, nb.sync or tok.wait the batch is held, in the order in which holds begin, unless the barrier's
phase has ended already; nothing else changes. A mask whose live lanes are all held on it releases them and no other hold, and no mask releases any before. Fibres that end leave their
lanes and the masks, and touch no register and no other fibre. -/
def Sys2Proof.Spec.Holds : Prop :=
  ∀ (s : State) (w : Nat) (v : Wave), s.wave? w = some v →
    (∀ (m : W64) (run : Run) (go : State → Nat → OnEnd → State), m ≠ 0#64 →
      let held := s.setWave w { v with held := v.held ++ [{ lanes := m, site := run.site, on := run.onEnd, mode := if v.dbg.isSome then 2 else if v.inTrap then 1 else 0 }] }
      (∀ k, run.onEnd = .maskWait k → s.applyEnd w m run go = held) ∧
      (∀ nb ph, run.onEnd = .barrier nb ph → (Tab.getD v.pend nb 0 ≠ 0 ∨ ∃ a ∈ v.arriving, a.nb = nb) → s.applyEnd w m run go = held) ∧
      (∀ nb ph, run.onEnd = .barrier nb ph → Tab.getD v.pend nb 0 = 0 → (∀ a ∈ v.arriving, a.nb ≠ nb) →
        (∀ h ∈ v.held, h.on ≠ run.onEnd) → (s.applyEnd w m run go).wave? w = some v ∧ ∀ x, x ≠ w → (s.applyEnd w m run go).wave? x = s.wave? x) ∧
      (∀ t, run.onEnd = .tokens t → (∃ i < 8, t.testBit i = true ∧ (v.token i).count ≠ 0) → s.applyEnd w m run go = held)) ∧
    (∀ k, let all := ∀ l < 64, (v.mask k).getLsbD l = true → v.live.getLsbD l = true → ∃ h ∈ v.held, h.on = .maskWait k ∧ h.lanes.getLsbD l = true
      ((∃ h ∈ v.held, h.on = .maskWait k ∧ h.lanes ≠ 0#64) → all → v.settleMask k = { v with held := v.held.filter (fun h => h.on != .maskWait k) }) ∧
      (¬ all → v.settleMask k = v)) ∧
    (∀ lanes : W64, v.held = [] → v.instances = [] → v.inTrap = false → v.dbg = none → (∀ k, s.crew? v.crew = some k → k.regions = []) →
      (∃ e ∈ v.fibres, lanes.getLsbD e.1 = false) →
      ∃ v', (s.endFibres w lanes).wave? w = some v' ∧ v'.fibres = v.fibres.filter (fun e => !lanes.getLsbD e.1) ∧ (∀ k, v'.mask k = v.mask k &&& ~~~lanes) ∧
        v'.sregs = v.sregs ∧ v'.vregs = v.vregs ∧ v'.dead = v.dead ∧ (s.endFibres w lanes).mem = s.mem ∧ ∀ x, x ≠ w → (s.endFibres w lanes).wave? x = s.wave? x)

/-- R140, R141, R144, R145, R395: sr.rd writes the special register that B names to D; sr.wr writes it at issue. What each register reads as, and what a write leaves
in it: FPFLAGS keeps 5 bits, SRSEED 32, PWINFLAGS 8; TEPC [47:2] and TSAVE0-3 take writes in trap mode only; the others ignore writes. -/
def Sys2Proof.Spec.SpecialRegisters : Prop :=
  ∀ (f : GR) (s : State) (v : Wave) (r : Run),
    (Issues (.srRd f) s v r → exec (.srRd f) s = Spec.uniDone (.srRd f) f.d.toNat (readSr s v (f.b.toNat % 128)).toNat s v r) ∧
    (Issues (.srWr f) s v r → exec (.srWr f) s =
      Spec.done (.srWr f) s v r { s := s.modWave s.turn (fun x => writeSr x (f.b.toNat % 128) (v.sreg f.a.toNat)) }) ∧
    (readSr s v 0 = v.fpflags.setWidth 64 ∧ readSr s v 1 = v.srseed.setWidth 64 ∧ readSr s v 2 = v.pwinflags.setWidth 64 ∧
      readSr s v 4 = v.block ++ v.launch ∧ readSr s v 5 = BitVec.ofNat 64 (s.tickOf (s.dieOf v)) ∧ readSr s v 6 = BitVec.ofNat 64 (s.cycleOf (s.coreOf v)) ∧
      readSr s v 7 = BitVec.ofNat 64 v.ackcnt ∧ readSr s v 8 = v.tbase.setWidth 64) ∧
    ((readSr s v 0x10).toNat = v.frame.cause.toNat + 256 * v.frame.sub.toNat + (if v.inTrap then 65536 else 0) ∧
      readSr s v 0x11 = v.frame.tepc.setWidth 64 ∧ readSr s v 0x12 = v.frame.tfpc.setWidth 64 ∧ readSr s v 0x13 = v.frame.tval ∧
      readSr s v 0x14 = v.frame.tword ∧ readSr s v 0x15 = v.frame.txword ∧ readSr s v 0x16 = v.frame.tmask ∧ readSr s v 0x17 = v.frame.tlanes ∧
      readSr s v 0x18 = v.frame.tsave0 ∧ readSr s v 0x19 = v.frame.tsave1 ∧ readSr s v 0x1A = v.frame.tsave2 ∧ readSr s v 0x1B = v.frame.tsave3 ∧
      readSr s v 0x1C = v.frame.trun) ∧
    (∀ x : W64, (writeSr v 0 x).fpflags = x.setWidth 5 ∧ (writeSr v 1 x).srseed = x.setWidth 32 ∧ (writeSr v 2 x).pwinflags = x.setWidth 8 ∧
      (v.inTrap = true → (writeSr v 0x11 x).frame.tepc = (x.setWidth 48) &&& 0xFFFFFFFFFFFC#48 ∧ (writeSr v 0x18 x).frame.tsave0 = x ∧
        (writeSr v 0x19 x).frame.tsave1 = x ∧ (writeSr v 0x1A x).frame.tsave2 = x ∧ (writeSr v 0x1B x).frame.tsave3 = x) ∧
      (v.inTrap = false → ∀ n, 3 ≤ n → writeSr v n x = v) ∧
      (∀ n ∈ [0x03, 0x04, 0x05, 0x06, 0x07, 0x08, 0x10, 0x12, 0x13, 0x14, 0x15, 0x16, 0x17, 0x1C], writeSr v n x = v))

/-- R87, R88: a write of SRSEED gives the generator of every lane below W the seed xor a multiple of the lane, 1 in place of 0; a step shifts the state left, folds the
bit that leaves into bits 22, 2, 1 and 0, and never makes it zero; an instruction that draws n times moves the generators of its active lanes, and no others, by n draws. -/
def Sys2Proof.Spec.LaneGenerators : Prop :=
  (∀ (v : Wave) (x : W32) (l : Nat), l < v.width →
    (v.seed x).srseed = x ∧
    (v.seed x).gen l = (if x ^^^ BitVec.ofNat 32 (l * 0x9E3779B9) = 0#32 then 1#32 else x ^^^ BitVec.ofNat 32 (l * 0x9E3779B9))) ∧
  (∀ g : W32, (srStep g).1 = g.getLsbD 31 ∧ (g ≠ 0#32 → (srStep g).2 ≠ 0#32) ∧
    ∀ i < 32, (srStep g).2.getLsbD i = ((decide (0 < i) && g.getLsbD (i - 1)) != (g.getLsbD 31 && (i == 22 || i == 2 || i == 1 || i == 0)))) ∧
  (∀ (c : Ctx) (s : State) (n l : Nat), drewAll c false n s = s ∧
    ∀ v', s.wave? c.w = some c.v → (drewAll c true n s).wave? c.w = some v' → v'.gen l = if l ∈ c.act then (Spec.draws n (c.v.gen l)).2 else c.v.gen l)

/-- R28, R138, R146: nop issues, counts towards the commitment of the results before it, and does nothing else; its word is 0xCEC00000 as a run of one and 0x8EC00000
inside a run. mk.cur, at OP 0x24 with A = B = 0 and latency 1, writes the mask of the issuing batch to sD. -/
def Obligations.NopAndCurrentMask : Prop :=
  (encode (.nop { s := true, v1 := false, d := 0, a := 0, b := 0, x := 0, ow := 0 }) = [0xCEC00000] ∧
   encode (.nop { s := false, v1 := false, d := 0, a := 0, b := 0, x := 0, ow := 0 }) = [0x8EC00000]) ∧
  ∀ (f : GR) (s : State) (v : Wave) (r : Run),
    (Spec.opcode (.nop f) = 0x76 ∧ (WellFormed (.nop f) → f.d = 0 ∧ f.a = 0 ∧ f.b = 0)) ∧
    (Issues (.nop f) s v r → exec (.nop f) s = Spec.done (.nop f) s v r { s := s }) ∧
    (∀ x n, Issues (.nop f) s v r → s.wave? s.turn = some v → r.pending = [x] → x.left = some (n + 2) →
      ∃ t v1 r1, exec (.nop f) s = .next t ∧ t.wave? s.turn = some v1 ∧ v1.run = some r1 ∧ r1.pending = [{ x with left := some (n + 1) }] ∧ r1.issued = r.issued + 1 ∧
        v1.sregs = v.sregs ∧ v1.vregs = v.vregs ∧ v1.masks = v.masks) ∧
    (Spec.opcode (.mkCur f) = 0x24 ∧ (WellFormed (.mkCur f) → f.a = 0 ∧ f.b = 0) ∧ resultClass (Instr.mkCur f).raw = .fix 1) ∧
    (Issues (.mkCur f) s v r → exec (.mkCur f) s = Spec.uniDone (.mkCur f) f.d.toNat (maskOf (s.ctx v r (.mkCur f)).lanes).toNat s v r)

/-- R147, R148, R149, R365, R417: trap n enters the handler when its run has ended; brk needs debug enabled on its core, no debug mode in its own wave, and none
in another wave of the core (then it waits); rfe needs trap or debug mode. Where brk or rfe is not allowed it traps with MODE and the SUB of R417. -/
def Sys2Proof.Spec.SystemInstructions : Prop :=
  ∀ (f : GR) (s : State) (v : Wave) (r : Run),
    (Issues (.trap f) s v r → exec (.trap f) s = Spec.done (.trap f) s v r { s := s, onEnd := .swTrap (f.b.toNat % 128) }) ∧
    (Issues (.brk f) s v r → v.dbg = none → (Tab.getD (s.core (s.coreOf v)).dreg 1 0).getLsbD 0 = true → otherInDebug s s.turn (s.coreOf v) = false →
      exec (.brk f) s = Spec.done (.brk f) s v r { s := s, onEnd := .brk (f.b.toNat % 128) }) ∧
    (Issues (.brk f) s v r → v.dbg = none → (Tab.getD (s.core (s.coreOf v)).dreg 1 0).getLsbD 0 = true → otherInDebug s s.turn (s.coreOf v) = true →
      exec (.brk f) s = .next s) ∧
    (Issues (.rfe f) s v r → (v.inTrap = true ∨ v.dbg.isSome = true) → exec (.rfe f) s = Spec.done (.rfe f) s v r { s := s, onEnd := .rfe }) ∧
    (∀ i n, ((i = Instr.brk f ∧ v.dbg.isSome = true ∧ n = 3) ∨
        (i = Instr.brk f ∧ v.dbg = none ∧ (Tab.getD (s.core (s.coreOf v)).dreg 1 0).getLsbD 0 = false ∧ n = 4) ∨
        (i = Instr.rfe f ∧ v.inTrap = false ∧ v.dbg = none ∧ n = 2)) → Issues i s v r →
      ∃ t, exec i s = .next (s.issueTrap s.turn v r t (s.ctx v r i).site) ∧ t.cause = 6 ∧ t.sub = n ∧
        t.tval = (if n = 4 then BitVec.ofNat 64 (f.b.toNat % 128) else 0#64) ∧ t.lanes = maskOf (s.ctx v r i).lanes)

/-- R147, R392, R395: a trap taken at the end of a run (trap n, or a completion fault): the frame names the instruction; TEPC is the word after a trap word, and the given
next PC of the batch for a completion fault; there is no frozen run and OPEN is 0. -/
def Sys2Proof.Spec.EndTraps : Prop :=
  ∀ (s : State) (w : Nat) (v : Wave) (m : W64) (p : Proc),
    v.inTrap = false → v.dbg = none → s.proc? v.proc = some p → p.trapbase ≠ 0#48 →
    (∀ (n : Nat) (site : Site), ∃ v', s.softTrap w v m n site = s.setWave w v' ∧ v'.inTrap = true ∧ v'.trapMask = m ∧ v'.frozen = none ∧
      v'.frame.cause = 8#8 ∧ v'.frame.sub = BitVec.ofNat 8 n ∧ v'.frame.tepc = site.pc + 4#48 ∧ v'.frame.tfpc = site.pc ∧ v'.frame.tmask = m ∧
      v'.frame.tlanes = m ∧ v'.frame.trun = 0#64 ∧ v'.frame.tsave0 = v.sreg 60 ∧ v'.sregs = v.sregs ∧ v'.vregs = v.vregs) ∧
    (∀ (lf : LateFault) (pc : BitVec 48), lf.trap.cause ≠ cHBMUE → lf.trap.cause ≠ cACKLOST →
      ∃ v', s.lateTrap w v m lf pc = s.setWave w v' ∧ v'.inTrap = true ∧ v'.trapMask = m ∧ v'.frozen = none ∧
        v'.frame.cause = BitVec.ofNat 8 lf.trap.cause ∧ v'.frame.sub = BitVec.ofNat 8 lf.trap.sub ∧ v'.frame.tepc = pc ∧ v'.frame.tfpc = lf.pc ∧
        v'.frame.tval = lf.trap.tval ∧ v'.frame.tmask = m ∧ v'.frame.tlanes = lf.trap.lanes ∧ v'.frame.trun = 0#64 ∧ v'.sregs = v.sregs ∧ v'.vregs = v.vregs)

/-- R366: debug entry saves s60 to s63 and the frozen run, puts the fibres of the entering batch at DBG_BASE, leaves registers alone, and writes the report: cause,
held bit, index and matched comparators, the return PC, and the name of the entering batch. -/
def Sys2Proof.Spec.DebugEntry : Prop :=
  ∀ (s : State) (w : Nat) (v : Wave) (m : W64) (pc : BitVec 48) (fr : Option Run) (held : Bool) (rep : Report) (cl : Bool),
    s.wave? w = some v →
    ∃ v', (s.enterDebug w v m pc fr held rep cl).wave? w = some v' ∧
      (∃ d, v'.dbg = some d ∧ d.mask = m ∧ d.retPc = pc ∧ d.frozen = fr ∧ d.held = held ∧ d.s60 = v.sreg 60 ∧ d.s61 = v.sreg 61 ∧ d.s62 = v.sreg 62 ∧ d.s63 = v.sreg 63) ∧
      v'.run = none ∧ v'.sregs = v.sregs ∧ v'.vregs = v.vregs ∧ v'.masks = v.masks ∧
      (∀ l f, v.fibre? l = some f → v'.fibre? l = some { f with pc := if l < v.width ∧ m.getLsbD l = true then va (bits (s.dreg (s.coreOf v) 1).toNat 47 2 * 4) else f.pc }) ∧
      (s.enterDebug w v m pc fr held rep cl).dreg (s.coreOf v) 0x31 = pc.setWidth 64 ∧
      ((s.enterDebug w v m pc fr held rep cl).dreg (s.coreOf v) 0x30).toNat =
        rep.cause % 16 + (if held then 16 else 0) + rep.index % 256 * 256 + rep.matched % 256 * 65536 ∧
      (s.enterDebug w v m pc fr held rep cl).dreg (s.coreOf v) 0x32 = v.block ++ v.launch ∧
      (s.enterDebug w v m pc fr held rep cl).mem = s.mem

/-! ## Memory -/

namespace Sys2Proof.Spec
/-- The trap of an access that fails a check (R431): cause, kind, detail, descriptor bit, address. -/
def accessTrap (cause kind detail : Nat) (desc : Bool) (a : Nat) : Trap :=
  { cause := cause, sub := kind + (if desc then 4 else 0) + 8 * detail, tval := BitVec.ofNat 64 a }
def SPACE := 0x20
def MISALIGN := 0x21
def NOMAP := 0x22
def PERM := 0x23
def GRANTED := 0x24
end Sys2Proof.Spec

/-- R175, R178, R429, R430, R436: checks 1 to 3 of an access that is not global. The reserved ranges, an address with base bits above 47, an address past the
private size, past the crew's allocation, or in a window of no resident crew of the process raise SPACE; then comes the alignment; what passes goes to the
byte that the address names. Nothing is changed. -/
def Sys2Proof.Spec.AddressSpaces : Prop :=
  ∀ (s : State) (v : Wave) (lane : Nat) (a : Acc0) (addr : Nat) (c : Crew),
    s.crew? v.crew = some c → a.globalOnly = false → a.noCluster = false → a.noPriv = false →
    (s.resolve v lane a true addr = (.error (Spec.accessTrap Spec.SPACE a.kind 4 a.desc addr), s)) ∧
    (0xFC0000000000 ≤ addr → addr < 0xFD0000000000 → s.resolve v lane a false addr = (.error (Spec.accessTrap Spec.SPACE a.kind 0 a.desc addr), s)) ∧
    (0xFE1000400000 ≤ addr → s.resolve v lane a false addr = (.error (Spec.accessTrap Spec.SPACE a.kind 0 a.desc addr), s)) ∧
    (∀ o, addr = 0xFD0000000000 + o → o < 0x10000000000 →
      s.resolve v lane a false addr = (if v.priv < o + a.size then .error (Spec.accessTrap Spec.SPACE a.kind 1 a.desc addr)
        else if 1 < a.align ∧ addr % a.align ≠ 0 then .error (Spec.accessTrap Spec.MISALIGN a.kind 0 a.desc addr) else .ok (.priv lane o), s)) ∧
    (∀ o, addr = 0xFE0000000000 + o → o < 0x1000000000 → c.grans * 4096 < o + a.size →
      s.resolve v lane a false addr = (.error (Spec.accessTrap Spec.SPACE a.kind 1 a.desc addr), s)) ∧
    (∀ o, addr = 0xFE0000000000 + o → o < 0x1000000000 → o + a.size ≤ c.grans * 4096 → 1 < a.align → addr % a.align ≠ 0 →
      s.resolve v lane a false addr = (.error (Spec.accessTrap Spec.MISALIGN a.kind 0 a.desc addr), s)) ∧
    (∀ o, addr = 0xFE0000000000 + o → o < 0x1000000000 → o + a.size ≤ c.grans * 4096 → addr % a.align = 0 → a.align ≠ 0 → a.kind ≠ 0 →
      128 ≤ c.grans * 4096 → c.grans * 4096 - 128 < o + a.size → ∃ t, s.resolve v lane a false addr = (.error t, s) ∧ t.cause = 0x26 ∧
        t.sub = (if a.kind = 2 then 2 else 1) ∧ t.tval = BitVec.ofNat 64 addr) ∧
    (∀ o, addr = 0xFE0000000000 + o → o < 0x1000000000 → o + a.size ≤ c.grans * 4096 → addr % a.align = 0 → a.align ≠ 0 → c.regions = [] →
      (a.kind = 0 ∨ o + a.size ≤ c.grans * 4096 - 128) → s.resolve v lane a false addr = (.ok (.scratch v.crew o false), s)) ∧
    (∀ o, addr = 0xFE1000000000 + o → o < 0x400000 → addr % a.align = 0 → a.align ≠ 0 →
      let core := s.coreOf v / 16 * 16 + o / 0x40000
      (∀ e ∈ s.crews, ¬ (e.2.core = core ∧ e.2.proc = v.proc ∧ e.2.place = .resident ∧ e.2.base * 4096 ≤ o % 0x40000 ∧ o % 0x40000 < (e.2.base + e.2.grans) * 4096)) →
      s.resolve v lane a false addr = (.error (Spec.accessTrap Spec.SPACE a.kind 2 a.desc addr), s)) ∧
    (addr < 0xFC0000000000 → 1 < a.align → addr % a.align ≠ 0 →
      s.resolve v lane a false addr = (.error (Spec.accessTrap Spec.MISALIGN a.kind 0 a.desc addr), s))

namespace Sys2Proof.Spec
/-- The page-table entry at an address, as the points of coherence hold it (R195), and its fields (R192, R193). -/
def pte (s : State) (k : Nat) : Nat := s.cohN k 8
def isLeaf (e : Nat) : Prop := e / 2 % 8 ≠ 0
def frameOf (e : Nat) : Nat := e / 4096 % 2 ^ 36
/-- No TLB that serves a core has an entry for an address, and its die's walk cache is empty (R197). -/
def untranslated (s : State) (c asn a : Nat) : Prop :=
  tlbHit (s.core c).tlb asn a = none ∧ tlbHit (Tab.getD (s.die (c / 256)).clTlb (c / 16) []) asn a = none ∧
  tlbHit (s.die (c / 256)).llTlb asn a = none ∧ (s.die (c / 256)).walkc = []
/-- The entry of an address in a table: the nine bits that the level takes, eight bytes each (R192). -/
def entryAt (table lv a : Nat) : Nat := table + 8 * (a / 2 ^ (39 - 9 * lv) % 512)
end Sys2Proof.Spec

/-- R192, R431: the walk. An entry with V = 0 ends it with the level; a table entry leads to the next level; a leaf at level 1, 2 or 3 maps 1 GiB, 2 MiB or 4 KiB; a leaf
at level 0, a leaf whose frame is not aligned to its size, and a table entry at level 3 are illegal. -/
def Sys2Proof.Spec.PageWalk : Prop :=
  ∀ (s : State) (root a : Nat),
    let k0 := Spec.entryAt (root * 4096) 0 a
    let k1 := Spec.entryAt (Spec.frameOf (Spec.pte s k0) * 4096) 1 a
    let k2 := Spec.entryAt (Spec.frameOf (Spec.pte s k1) * 4096) 2 a
    let k3 := Spec.entryAt (Spec.frameOf (Spec.pte s k2) * 4096) 3 a
    let on := fun k => Spec.pte s k % 2 = 1
    let goes := fun k => on k ∧ ¬ Spec.isLeaf (Spec.pte s k)
    (¬ on k0 → s.walk root a = .bad 0) ∧
    (on k0 → Spec.isLeaf (Spec.pte s k0) → s.walk root a = .bad 4) ∧
    (goes k0 → ¬ on k1 → s.walk root a = .bad 1) ∧
    (goes k0 → on k1 → Spec.isLeaf (Spec.pte s k1) →
      s.walk root a = if Spec.frameOf (Spec.pte s k1) % 2 ^ 18 = 0 then .leaf (BitVec.ofNat 64 (Spec.pte s k1)) k1 30 else .bad 5) ∧
    (goes k0 → goes k1 → ¬ on k2 → s.walk root a = .bad 2) ∧
    (goes k0 → goes k1 → on k2 → Spec.isLeaf (Spec.pte s k2) →
      s.walk root a = if Spec.frameOf (Spec.pte s k2) % 2 ^ 9 = 0 then .leaf (BitVec.ofNat 64 (Spec.pte s k2)) k2 21 else .bad 5) ∧
    (goes k0 → goes k1 → goes k2 → ¬ on k3 → s.walk root a = .bad 3) ∧
    (goes k0 → goes k1 → goes k2 → on k3 → Spec.isLeaf (Spec.pte s k3) → s.walk root a = .leaf (BitVec.ofNat 64 (Spec.pte s k3)) k3 12) ∧
    (goes k0 → goes k1 → goes k2 → goes k3 → s.walk root a = .bad 6)

/-- R186, R193, R194, R195, R197, R429, R431: where no TLB that serves the core has an entry for an address and the walk cache is empty, a walked 4 KiB leaf of this package whose A is set
is installed in the core's TLB, and memory is unchanged; then the permissions are checked, then the grant state; the access goes to the frame's byte. A write needs W, a read R, an atomic
both, a fetch X. A TLB entry that covers the address serves it without a walk: of the core TLB, of the cluster TLB, or of the last-level TLB, in this order. -/
def Sys2Proof.Spec.Translation : Prop :=
  ∀ (s : State) (c proc a kind : Nat) (desc : Bool) (p : Proc) (e : W64) (key : Nat),
    s.proc? proc = some p → Spec.untranslated s c p.asn.toNat a → s.walkPoison p.ptroot.toNat a = none →
    s.walk p.ptroot.toNat a = .leaf e key 12 → e.getLsbD 11 = false → e.toNat / 256 % 4 = 0 → e.getLsbD 4 = true →
    let allowed := (kind = 0 ∧ e.getLsbD 1 = true) ∨ (kind = 1 ∧ e.getLsbD 2 = true) ∨
      (kind = 2 ∧ e.getLsbD 1 = true ∧ e.getLsbD 2 = true) ∨ (kind = 3 ∧ e.getLsbD 3 = true)
    let gives := fun (t : Except Trap Phys) (s2 s' : State) => s2.translate c proc a kind desc false = (t, s') ∧ s'.mem = s2.mem ∧ s'.waves = s2.waves ∧ s'.crews = s2.crews
    let filled := fun (s' : State) => tlbHit (s'.core c).tlb p.asn.toNat a = some { asn := p.asn.toNat, base := a / 4096 * 4096, size := 4096, leaf := e }
    (allowed → e.toNat / 64 % 4 ≠ 1 → (kind = 0 ∨ kind = 3 ∨ e.getLsbD 5 = true) → s.homeAway c (Spec.frameOf e.toNat * 4096 + a % 4096) = false →
      ∃ s', gives (.ok { key := Spec.frameOf e.toNat * 4096 + a % 4096, ca := 0, gs := e.toNat / 64 % 4, leaf := e }) s s' ∧ filled s') ∧
    (allowed → e.toNat / 64 % 4 = 1 → ∃ s', gives (.error (Spec.accessTrap Spec.GRANTED kind 0 desc a)) s s' ∧ filled s') ∧
    (kind < 4 → ¬ allowed → ∃ s', gives (.error (Spec.accessTrap Spec.PERM kind
      (if kind = 3 then 2 else if kind = 1 then 1 else if kind = 2 ∧ e.getLsbD 1 = true then 1 else 0) desc a)) s s' ∧ filled s') ∧
    (∀ n, ∀ s2 : State, s2.proc? proc = some p → Spec.untranslated s2 c p.asn.toNat a → s2.walkPoison p.ptroot.toNat a = none →
      s2.walk p.ptroot.toNat a = .bad n → n < 8 → ∃ s', gives (.error (Spec.accessTrap Spec.NOMAP kind n desc a)) s2 s') ∧
    (∀ (s2 : State) (t : TlbEntry), s2.proc? proc = some p →
      (tlbHit (s2.core c).tlb p.asn.toNat a = some t ∨
       (tlbHit (s2.core c).tlb p.asn.toNat a = none ∧ tlbHit (Tab.getD (s2.die (c / 256)).clTlb (c / 16) []) p.asn.toNat a = some t) ∨
       (tlbHit (s2.core c).tlb p.asn.toNat a = none ∧ tlbHit (Tab.getD (s2.die (c / 256)).clTlb (c / 16) []) p.asn.toNat a = none ∧
        tlbHit (s2.die (c / 256)).llTlb p.asn.toNat a = some t)) →
      t.leaf.getLsbD 1 = true → t.leaf.toNat / 256 % 4 = 0 → t.leaf.toNat / 64 % 4 ≠ 1 →
      s2.homeAway c ((Spec.frameOf t.leaf.toNat * 4096 + (a - t.base)) % 2 ^ 52) = false →
      ∃ s', s2.translate c proc a 0 desc false =
        (.ok { key := (Spec.frameOf t.leaf.toNat * 4096 + (a - t.base)) % 2 ^ 52, ca := 0, gs := t.leaf.toNat / 64 % 4, leaf := t.leaf }, s') ∧ s'.mem = s2.mem)

namespace Sys2Proof.Spec
/-- The bytes of a number, least significant first (R45). -/
def byteOf (v i : Nat) : Byte := BitVec.ofNat 8 (v / 256 ^ i)
/-- A byte of a core's L1. -/
def l1 (s : State) (c k : Nat) : Option Byte := (Tab.get? (s.core c).l1 k).map (·.val)
end Sys2Proof.Spec

/-- R154, R155, R177, R180, R184: what one checked access does. A store to global memory stands in the core's L1, dirty, in exactly the bytes stored, and memory is untouched
until it is written back; a load after it gives the value stored; one to host memory without coherence goes to memory itself (no earlier write of the wave is on its way to a locked line, and the L1 has room: what it would have to give up
first, R184 leaves open). A private store changes the bytes of its own lane's window; a scratchpad store changes
only the words it touches and makes them valid. No store changes another byte. -/
def Obligations.Accesses : Prop :=
  ∀ (s : State) (c : Ctx) (lane addr n val : Nat), 0 < n → n ≤ 16 → Spec.noneFlying s c.w →
    (∀ p : Phys, p.ca = 0 → p.pin = false → s.writeRefusal p.key n = none → (∀ i < 16, s.lockOf (p.key + i) = none) → s.poisoned p.key n = false →
      (∀ i < n, s.zeroBlk (p.key + i) = false) → Spec.roomy s (s.coreOf c.v) 16 → ∃ s', s.storeT c lane addr n val false (.glob p) = (.ok, s') ∧ s'.mem = s.mem ∧
        (∀ i < n, Spec.l1 s' (s.coreOf c.v) (p.key + i) = some (Spec.byteOf val i)) ∧
        (∀ k, (k < p.key ∨ p.key + n ≤ k) → ∀ d, Spec.l1 s' d k = Spec.l1 s d k) ∧
        (s'.loadT c lane addr n (.glob p)).1 = .ok (val % 256 ^ n)) ∧
    (∀ p : Phys, p.ca = 2 → p.pin = false → Memory.wf s.mem = true → s.writeRefusal p.key n = none → (∀ i < 16, tracked (p.key + i) = false) →
      (∀ e ∈ s.rdc, tracked (e.1 % 2 ^ 64 * 128) = true) → ∃ s', s.storeT c lane addr n val false (.glob p) = (.ok, s') ∧ (∀ i < n, s'.rd8 (p.key + i) = Spec.byteOf val i) ∧
        ∀ k, (k < p.key ∨ p.key + n ≤ k) → s'.rd8 k = s.rd8 k) ∧
    (∀ p : Phys, s.poisoned p.key n = false → (∀ i < n, s.lockOf (p.key + i) = none) → p.ca ≠ 2 → p.pin = false →
      (∀ i < n, s.zeroBlk (p.key + i) = false) → (∀ i < n, (Spec.l1 s (s.coreOf c.v) (p.key + i)).isSome = true) →
      ∃ m, s.loadT c lane addr n (.glob p) = (.ok m, s) ∧ ∀ i < n, some (Spec.byteOf m i) = Spec.l1 s (s.coreOf c.v) (p.key + i)) ∧
    (∀ l off v, c.w = s.turn → s.wave? s.turn = some v → l < v.width →
      ∃ v', s.storeT c lane addr n val false (.priv l off) = (.ok, s.setWave s.turn v') ∧ v'.privRead l off n = val % 256 ^ n ∧
        ({ v' with privMem := [] } : Wave) = { v with privMem := [] } ∧
        ∀ m o, m < v.width → (m ≠ l ∨ o < off ∨ off + n ≤ o) → v'.privRead m o 1 = v.privRead m o 1) ∧
    (∀ k off cr, s.crew? k = some cr → cr.regionAt off = none → cr.spoison = [] → off + n ≤ cr.grans * 4096 - 128 → (∀ e ∈ s.waves, e.2.held = []) →
      ∃ cr', s.storeT c lane addr n val false (.scratch k off false) = (.ok, s.setCrew k cr') ∧ cr'.read off n = val % 256 ^ n ∧
        ({ cr' with scratch := [] } : Crew) = { cr with scratch := [] } ∧ (∀ i, off < 4 * i + 4 → 4 * i < off + n → (cr'.word i).2 = true) ∧
        (∀ i, (4 * i + 4 ≤ off ∨ off + n ≤ 4 * i) → cr'.word i = cr.word i) ∧ ∀ o, (o < off ∨ off + n ≤ o) → cr'.read o 1 = cr.read o 1)

/-- R167, R184, R203: a release at .die scope or wider writes every dirty byte of the core's L1 back: the bytes whose home is this die are then in memory, and no
other byte of memory has changed; an acquire also empties the L1. -/
def Sys2Proof.Spec.WriteBack : Prop :=
  ∀ (s : State) (c scope : Nat), 2 ≤ scope → Memory.wf s.mem = true → (Tab.keys (s.core c).l1).Nodup →
    (∀ e ∈ (s.core c).l1, tracked e.1 = true ∧ keyDie e.1 = c / 256 ∧ Spec.plainAt s e.1) →
    (∀ k, (s.fenceRel c scope).rd8 k = match Tab.get? (s.core c).l1 k with
      | some b => if b.dirty then b.val else s.rd8 k
      | none => s.rd8 k) ∧
    (∀ k, (s.fenceAcq c scope).rd8 k = (s.fenceRel c scope).rd8 k) ∧ ((s.fenceAcq c scope).core c).l1 = [] ∧
    (∀ k, Tab.get? ((s.fenceRel c scope).core c).l1 k = (Tab.get? (s.core c).l1 k).map (fun b => { b with dirty := false }))

/-- R159: the atomic operations on n bytes. -/
def Sys2Proof.Spec.AtomicOperations : Prop :=
  ∀ (n m b x : Nat), n ∈ [4, 8, 16] → m < 2 ^ (8 * n) → b < 2 ^ (8 * n) →
    atomNew 0 n m b x = (m + b) % 2 ^ (8 * n) ∧
    atomNew 1 n m b x = (if Spec.signed (8 * n) m ≤ Spec.signed (8 * n) b then m else b) ∧ atomNew 2 n m b x = min m b ∧
    atomNew 3 n m b x = (if Spec.signed (8 * n) m ≤ Spec.signed (8 * n) b then b else m) ∧ atomNew 4 n m b x = max m b ∧
    atomNew 5 n m b x = m &&& b ∧ atomNew 6 n m b x = m ||| b ∧ atomNew 7 n m b x = m ^^^ b ∧ atomNew 8 n m b x = b ∧
    (n = 4 → atomNew 9 n m b x = (Fmt.f32.addOp m b).1) ∧ atomNew 10 n m b x = (if m = x then b else m)

namespace Sys2Proof.Spec
/-- Loads of n bytes one after another, ascending by lane, and atomics likewise: the outcomes and the state after them. -/
def loads (c : Ctx) (n : Nat) : List (Nat × Nat × Target) → State → List (Nat × Except Trap Nat) × State
  | [], s => ([], s)
  | e :: t, s =>
    ((e.1, (s.loadT c e.1 e.2.1 n e.2.2).1) :: (loads c n t (s.loadT c e.1 e.2.1 n e.2.2).2).1, (loads c n t (s.loadT c e.1 e.2.1 n e.2.2).2).2)
/-- The value of a narrow load in its register (R152). -/
def extend (sz : Nat) (sx : Bool) (w v : Nat) : Nat :=
  if sx ∧ sz = 0 then wrap w (signed 8 v) else if sx ∧ sz = 1 then wrap w (signed 16 v) else v
def bytes (sz : Nat) : Nat := [1, 2, 4, 8, 16].getD sz (2 ^ sz)
/-- None of the accesses touches a future that an operation of the wave is on its way to (R155). -/
def clearOf (s : State) (f : LR) (ok : List (Nat × Nat × Target)) : Prop := s.futFlying s.turn (bytes (xSize f.x)) (ok.map (·.2.2)) = false
/-- Every active lane's access passes its checks (R429): where it goes, and the state after the translations. -/
def passes (c : Ctx) (f : LR) (kind : Nat) (s : State) (ok : List (Nat × Nat × Target)) (s1 : State) : Prop :=
  s.resolveAll c.v { kind := kind, size := bytes (xSize f.x), align := bytes (xSize f.x) } (c.act.map (fun l => (l, laneAddr c f l))) = ([], ok, s1)
end Sys2Proof.Spec

namespace Sys2Proof.Spec
/-- An aligned access of n bytes that lies in the private window of a wave (R177, R429). -/
def inPrivate (v : Wave) (n : Nat) (a : Bool × Nat) : Prop :=
  a.1 = false ∧ 0xFD0000000000 ≤ a.2 ∧ a.2 + n ≤ 0xFD0000000000 + v.priv ∧ v.priv ≤ 2 ^ 40 ∧ a.2 % n = 0
/-- A lane's offset in its private memory. -/
def privAt (c : Ctx) (f : LR) (l : Nat) : Nat := (laneAddr c f l).2 - 0xFD0000000000
/-- Private memory after the active lanes have each written n bytes: the new value there, every other byte as before. -/
def privAfter (c : Ctx) (f : LR) (v v' : Wave) (n : Nat) (x : Nat → Nat) : Prop :=
  (∀ l ∈ c.act, v'.privRead l (privAt c f l) n = x l) ∧
  ∀ m o, m < v.width → (m ∈ c.act → o < privAt c f m ∨ privAt c f m + n ≤ o) → v'.privRead m o 1 = v.privRead m o 1
end Sys2Proof.Spec

/-- R150, R152, R154, R157, R158, R160, R161, R215: the lane memory instructions whose accesses pass their checks issue. ld and ldp write the values read, extended; st stores the data of each
active lane at its address, ascending, so that the highest lane's value remains; the atomics write the old values, in ascending order; ld.poll writes the lanes whose first read differs and
keeps the others waiting; a store that would make more than 65,535 counted writes waits, and so does an access to a future while an operation of the wave on that future is on its way (R155). -/
def Sys2Proof.Spec.LaneMemory : Prop :=
  ∀ (f : LR) (s : State) (v : Wave) (r : Run) (ok : List (Nat × Nat × Target)) (s1 s2 : State),
    (∀ vals : List (Nat × Nat), Issues (.ld f) s v r → Spec.passes (s.ctx v r (.ld f)) f 0 s ok s1 → Spec.clearOf s1 f ok →
      Spec.loads (s.ctx v r (.ld f)) (Spec.bytes (xSize f.x)) ok s1 = (vals.map (fun e => (e.1, Except.ok e.2)), s2) →
      exec (.ld f) s = Spec.done (.ld f) s v r
        (let c := s.ctx v r (.ld f)
         let n := s2.noted c (notesOf ok (Spec.bytes (xSize f.x)) 1)
         { s := n.1, watch := n.2, writes := vals.flatMap (fun e => laneWrites c f.v1 e.1 f.d.toNat (laneGroup (xSize f.x)) (Spec.extend (xSize f.x) (xSx f.x) 32 e.2)) })) ∧
    (Issues (.st f) s v r → Spec.passes (s.ctx v r (.st f)) f 1 s ok s1 → Spec.clearOf s1 f ok →
      storeAll (s.ctx v r (.st f)) (Spec.bytes (xSize f.x)) (fun l => readGroup (s.ctx v r (.st f)) f.ow l f.b.toNat (laneGroup (xSize f.x)))
        (fun l => dataPoisoned (s.ctx v r (.st f)) l f.b.toNat (laneGroup (xSize f.x))) ok s1 = ([], [], s2) →
      (v.ackcnt + (counted false ok).length ≤ 65535 → exec (.st f) s = Spec.done (.st f) s v r
        (let c := s.ctx v r (.st f)
         let n := (s2.countWrites c (counted false ok) false).noted c (notesOf ok (Spec.bytes (xSize f.x)) 2)
         { s := n.1, watch := n.2 })) ∧
      (65535 < v.ackcnt + (counted false ok).length → exec (.st f) s = .next s1)) ∧
    (∀ vals : List (Nat × Nat), Issues (.ldPoll f) s v r → Spec.passes (s.ctx v r (.ldPoll f)) f 0 s ok s1 → Spec.clearOf s1 f ok →
      ok.map (·.1) = vals.map (·.1) →
      (ok.foldl (fun acc e => let (x, s') := acc.2.pollRead (s.ctx v r (.ldPoll f)) e.1 e.2.1 (Spec.bytes (xSize f.x)) (xScope f.x) e.2.2; (acc.1 ++ [(e.1, x)], s')) ([], s1))
        = (vals.map (fun e => (e.1, Except.ok e.2)), s2) →
      let c := s.ctx v r (.ldPoll f)
      let g := laneGroup (xSize f.x)
      let same := fun (e : Nat × Nat) => e.2 == readGroup c f.ow e.1 f.b.toNat g % 2 ^ (8 * Spec.bytes (xSize f.x))
      (∀ e ∈ vals, same e = false) →
      exec (.ldPoll f) s = Spec.done (.ldPoll f) s v r
        (let n := (s2.modWave s.turn (fun v => { v with polls := v.polls ++ [] })).noted c (notesOf ok (Spec.bytes (xSize f.x)) 1)
         { s := n.1.send [], watch := n.2, writes := vals.flatMap (fun e => laneWrites c f.v1 e.1 f.d.toNat g e.2) })) ∧
    (∀ p ∈ [((fun f => Instr.atom f : LR → Instr), xOp f.x, (fun (c : Ctx) l => (readGroup c f.ow l f.b.toNat (laneGroup (xSize f.x)), 0))),
            ((fun f => Instr.cas128 f : LR → Instr), 10, (fun (c : Ctx) l =>
              let grp := fun code => (List.range (laneGroup (xSize f.x))).foldl (fun a i => a + (readLane c f.ow l (code + i)).toNat * 2 ^ (32 * i)) 0
              (grp (f.b.toNat + laneGroup (xSize f.x)), grp f.b.toNat)))],
      ∀ vals : List (Nat × Nat), Issues (p.1 f) s v r → Spec.passes (s.ctx v r (p.1 f)) f 2 s ok s1 → Spec.clearOf s1 f ok →
        let c := s.ctx v r (p.1 f)
        let g := laneGroup (xSize f.x)
        atomAll c (Spec.bytes (xSize f.x)) p.2.1 (xScope f.x) (fun l => (p.2.2 c l).1) (fun l => (p.2.2 c l).2)
          (fun l => some ((laneWrites c f.v1 l f.d.toNat g 0).map (·.loc))) ok s1 = (vals.map (fun e => (e.1, AtomOut.old e.2)), s2) →
        exec (p.1 f) s = Spec.done (p.1 f) s v r
          (let n := s2.noted c (notesOf ok (Spec.bytes (xSize f.x)) 4)
           { s := n.1, watch := n.2, writes := vals.flatMap (fun e => laneWrites c f.v1 e.1 f.d.toNat g e.2) })) ∧
    (∀ vals : List (Nat × Nat), Issues (.atomNr f) s v r → Spec.passes (s.ctx v r (.atomNr f)) f 2 s ok s1 → Spec.clearOf s1 f ok →
        let c := s.ctx v r (.atomNr f)
        atomAll c (Spec.bytes (xSize f.x)) (xOp f.x) (xScope f.x) (fun l => readGroup c f.ow l f.b.toNat (laneGroup (xSize f.x))) (fun _ => 0) (fun _ => none) ok s1
          = (vals.map (fun e => (e.1, AtomOut.old e.2)), s2) →
        v.ackcnt + (counted true ok).length ≤ 65535 →
        exec (.atomNr f) s = Spec.done (.atomNr f) s v r
          (let n := (s2.countWrites c (counted true ok) true).noted c (notesOf ok (Spec.bytes (xSize f.x)) 4)
           { s := n.1, watch := n.2 })) ∧
    (∀ p ∈ [((fun f => Instr.ld f : LR → Instr), 0), ((fun f => Instr.st f), 1), ((fun f => Instr.ldPoll f), 0), ((fun f => Instr.atom f), 2), ((fun f => Instr.atomNr f), 2), ((fun f => Instr.cas128 f), 2)],
      Issues (p.1 f) s v r → Spec.passes (s.ctx v r (p.1 f)) f p.2 s ok s1 → ¬ Spec.clearOf s1 f ok → exec (p.1 f) s = .next s1) ∧
    (∀ p ∈ [((fun f => Instr.ld f : LR → Instr), 0), ((fun f => Instr.st f), 1), ((fun f => Instr.ldPoll f), 0), ((fun f => Instr.atom f), 2), ((fun f => Instr.atomNr f), 2), ((fun f => Instr.cas128 f), 2)],
      ∀ bad, bad ≠ [] → Issues (p.1 f) s v r →
        s.resolveAll v { kind := p.2, size := Spec.bytes (xSize f.x), align := Spec.bytes (xSize f.x) } ((s.ctx v r (p.1 f)).act.map (fun l => (l, laneAddr (s.ctx v r (p.1 f)) f l))) = (bad, ok, s1) →
        ∃ t, exec (p.1 f) s = .next (s1.issueTrap s.turn v r t (s.ctx v r (p.1 f)).site) ∧ t.lanes = maskOf (bad.map (·.1)) ∧
          (∃ e ∈ bad, t.cause = e.2.cause ∧ t.tval = e.2.tval) ∧ ∀ e ∈ bad, t.cause ≤ e.2.cause)

/-- R150, R152, R154, R158, R160, R161, R177: a lane memory instruction completes: at aligned addresses in the lanes' private memory nothing can stop it. ld and ld.poll (where no lane
still sees its b) write the values read, a store leaves its data in each active lane's private memory, an atomic leaves the new value and writes the old; no other private byte changes. -/
def Sys2Proof.Spec.PrivateAccesses : Prop :=
  ∀ (f : LR) (s : State) (v : Wave) (r : Run),
    let n := Spec.bytes (xSize f.x)
    let g := laneGroup (xSize f.x)
    (Issues (.ld f) s v r → (∀ l ∈ (s.ctx v r (.ld f)).act, Spec.inPrivate v n (laneAddr (s.ctx v r (.ld f)) f l)) →
      let c := s.ctx v r (.ld f)
      ∃ s' hits, exec (.ld f) s = Spec.done (.ld f) s v r { s := s', watch := hits, writes := c.act.flatMap (fun l =>
          laneWrites c f.v1 l f.d.toNat g (Spec.extend (xSize f.x) (xSx f.x) 32 (v.privRead l (Spec.privAt c f l) n))) } ∧
        s'.waves = s.waves ∧ s'.mem = s.mem ∧ s'.crews = s.crews) ∧
    (Issues (.ldPoll f) s v r → (∀ l ∈ (s.ctx v r (.ldPoll f)).act, Spec.inPrivate v n (laneAddr (s.ctx v r (.ldPoll f)) f l)) →
      let c := s.ctx v r (.ldPoll f)
      (∀ l ∈ c.act, v.privRead l (Spec.privAt c f l) n ≠ readGroup c f.ow l f.b.toNat g % 2 ^ (8 * n)) →
      ∃ s' hits, exec (.ldPoll f) s = Spec.done (.ldPoll f) s v r { s := s', watch := hits, writes := c.act.flatMap (fun l =>
          laneWrites c f.v1 l f.d.toNat g (v.privRead l (Spec.privAt c f l) n)) } ∧
        s'.mem = s.mem ∧ s'.crews = s.crews) ∧
    (Issues (.st f) s v r → v.ackcnt ≤ 65535 → (∀ l ∈ (s.ctx v r (.st f)).act, Spec.inPrivate v n (laneAddr (s.ctx v r (.st f)) f l)) →
      let c := s.ctx v r (.st f)
      ∃ s' hits v', exec (.st f) s = Spec.done (.st f) s v r { s := s', watch := hits } ∧ s'.mem = s.mem ∧ s'.crews = s.crews ∧
        s'.wave? s.turn = some v' ∧ ({ v' with privMem := [] } : Wave) = { v with privMem := [] } ∧
        Spec.privAfter c f v v' n (fun l => readGroup c f.ow l f.b.toNat g % 256 ^ n)) ∧
    (∀ p ∈ [((fun f => Instr.atom f : LR → Instr), xOp f.x, true, (fun (c : Ctx) l => (readGroup c f.ow l f.b.toNat g, 0))),
            ((fun f => Instr.atomNr f), xOp f.x, false, (fun (c : Ctx) l => (readGroup c f.ow l f.b.toNat g, 0))),
            ((fun f => Instr.cas128 f), 10, true, (fun (c : Ctx) l =>
              let grp := fun code => (List.range g).foldl (fun a i => a + (readLane c f.ow l (code + i)).toNat * 2 ^ (32 * i)) 0
              (grp (f.b.toNat + g), grp f.b.toNat)))],
      Issues (p.1 f) s v r → v.ackcnt ≤ 65535 → (∀ l ∈ (s.ctx v r (p.1 f)).act, Spec.inPrivate v n (laneAddr (s.ctx v r (p.1 f)) f l)) →
      let c := s.ctx v r (p.1 f)
      ∃ s' hits v', exec (p.1 f) s = Spec.done (p.1 f) s v r { s := s', watch := hits, writes := if p.2.2.1 then c.act.flatMap (fun l =>
            laneWrites c f.v1 l f.d.toNat g (v.privRead l (Spec.privAt c f l) n)) else [] } ∧
        s'.mem = s.mem ∧ s'.crews = s.crews ∧ s'.wave? s.turn = some v' ∧ ({ v' with privMem := [] } : Wave) = { v with privMem := [] } ∧
        Spec.privAfter c f v v' n (fun l => atomNew p.2.1 n (v.privRead l (Spec.privAt c f l) n) (p.2.2.2 c l).1 (p.2.2.2 c l).2 % 256 ^ n))

/-- R154: the bytes that a lane store may change: none but those at the addresses its lanes store to; every other byte of memory, and every other byte that a core's L1
holds, reads after the store as it read when the addresses were translated. Nothing else moves at the same time: no earlier write of the wave is on its way, no die keeps a line of another
home, the pages are not pinned elsewhere, and the core's L1 has room, so that it gives up no line (R184). -/
def Sys2Proof.Spec.StoreFrame : Prop :=
  ∀ (f : LR) (s : State) (v : Wave) (r : Run) (ok : List (Nat × Nat × Target)) (s1 t : State),
    Issues (.st f) s v r → Spec.passes (s.ctx v r (.st f)) f 1 s ok s1 → Memory.wf s1.mem = true → (∀ e ∈ ok, ∃ p, e.2.2 = Target.glob p ∧ p.pin = false) →
    Spec.noneFlying s1 s.turn → (∀ e ∈ s1.rdc, tracked (e.1 % 2 ^ 64 * 128) = true) → Spec.roomy s1 (s.coreOf v) 128 → exec (.st f) s = .next t →
    ∀ k, (∀ e ∈ ok, ∀ p, e.2.2 = Target.glob p → k < p.key ∨ p.key + Spec.bytes (xSize f.x) ≤ k) → t.rd8 k = s1.rd8 k ∧ ∀ d, Spec.l1 t d k = Spec.l1 s1 d k

/-- R156, R157: a prefetch does nothing to a register, a wave or a crew, and is not checked; ldp of a window with size 0 traps with PWIN, and a window offset whose bytes all lie outside the
window gives zero and sets the window's sticky flag, without an access. -/
def Sys2Proof.Spec.LaneMemoryRest : Prop :=
  ∀ (f : LR) (s : State) (v : Wave) (r : Run),
    (Issues (.pf f) s v r →
      (∀ l ∈ (s.ctx v r (.pf f)).act, (laneAddr (s.ctx v r (.pf f)) f l).1 = true ∨ 0xFC0000000000 ≤ (laneAddr (s.ctx v r (.pf f)) f l).2) →
      exec (.pf f) s = Spec.done (.pf f) s v r { s := s }) ∧
    (∀ p, Issues (.pf f) s v r → s.proc? v.proc = some p →
      (∀ l ∈ (s.ctx v r (.pf f)).act, (tlbHit (s.core (s.coreOf v)).tlb p.asn.toNat (laneAddr (s.ctx v r (.pf f)) f l).2).isSome = true) →
      Spec.roomy s (s.coreOf v) 256 → ∃ s', exec (.pf f) s = Spec.done (.pf f) s v r { s := s' } ∧ s'.waves = s.waves ∧ s'.crews = s.crews ∧ s'.procs = s.procs ∧ s'.locks = s.locks) ∧
    (Issues (.ldp f) s v r → (Tab.getD v.pwin (xWin f.x) { base := 0, size := 0 }).size = 0 → (s.ctx v r (.ldp f)).act ≠ [] →
      ∃ t, exec (.ldp f) s = .next (s.issueTrap s.turn v r t (s.ctx v r (.ldp f)).site) ∧ t.cause = 0x05 ∧ t.sub = xWin f.x ∧ t.lanes = maskOf (s.ctx v r (.ldp f)).act) ∧
    (∀ w, Issues (.ldp f) s v r → Tab.get? v.pwin (xWin f.x) = some w → w.size ≠ 0 → (s.ctx v r (.ldp f)).act ≠ [] →
      (∀ l ∈ (s.ctx v r (.ldp f)).act,
        let o := ((Spec.opA f (s.ctx v r (.ldp f)) l : Int)) + Spec.signed 16 (f.x.toNat % 2 ^ 16)
        o % (Spec.bytes (xSize f.x) : Int) = 0 ∧ (o + (Spec.bytes (xSize f.x) : Int) ≤ 0 ∨ (w.size : Int) ≤ o)) →
      exec (.ldp f) s = Spec.done (.ldp f) s v r
        { s := s
          writes := (s.ctx v r (.ldp f)).act.flatMap (fun l => laneWrites (s.ctx v r (.ldp f)) f.v1 l f.d.toNat (laneGroup (xSize f.x)) 0)
          oob := 1#8 <<< (f.x.toNat / 2 ^ 27 % 8) }) ∧
    (∀ (w : PWin) (vals : Nat → Nat → Nat) (s2 : State), Issues (.ldp f) s v r → Tab.get? v.pwin (xWin f.x) = some w → w.size ≠ 0 → xSize f.x = 2 →
      (∀ l ∈ (s.ctx v r (.ldp f)).act,
        let o := ((Spec.opA f (s.ctx v r (.ldp f)) l : Int)) + Spec.signed 16 (f.x.toNat % 2 ^ 16)
        o % 4 = 0 ∧ 0 ≤ o ∧ o + 4 ≤ (w.size : Int) ∧ w.base + o.toNat + 4 ≤ 2 ^ 48) →
      ∀ ok s3, s.resolveAll v { kind := 0, size := 1, align := 1, globalOnly := true }
        ((s.ctx v r (.ldp f)).act.flatMap (fun l => (List.range 4).map (fun k =>
          (l, false, w.base + (((Spec.opA f (s.ctx v r (.ldp f)) l : Int)) + Spec.signed 16 (f.x.toNat % 2 ^ 16)).toNat + k)))) = ([], ok, s3) →
      s3.futFlying s.turn 1 (ok.map (·.2.2)) = false →
      Spec.loads (s.ctx v r (.ldp f)) 1 ok s3 = ((s.ctx v r (.ldp f)).act.flatMap (fun l => (List.range 4).map (fun k => (l, Except.ok (vals l k)))), s2) →
      exec (.ldp f) s = Spec.done (.ldp f) s v r
        { s := s2
          writes := (s.ctx v r (.ldp f)).act.flatMap (fun l => laneWrites (s.ctx v r (.ldp f)) f.v1 l f.d.toNat 1
            (vals l 0 + 256 * vals l 1 + 65536 * vals l 2 + 16777216 * vals l 3)) })

namespace Sys2Proof.Spec
/-- The writes of a value of a size to sD, or to sD and the next (R152). -/
def uniVal (d sz v : Nat) : List Write :=
  { loc := .s d, val := BitVec.ofNat 64 v } :: (if sz = 4 then [{ loc := .s (d + 1), val := BitVec.ofNat 64 (v / 2 ^ 64) }] else [])
/-- The checked address of a uniform memory instruction (R151). -/
def uniTarget (c : Ctx) (f : GR) (kind : Nat) (s : State) : Except Trap Target × State :=
  s.resolve c.v (lowLane (maskOf c.lanes)) { kind := kind, size := bytes (xSize f.x), align := bytes (xSize f.x) } (uniAddr c f).1 (uniAddr c f).2
/-- The data of a uniform store: the low bytes of b, or a register pair (R154). -/
def uniStored (c : Ctx) (f : GR) : Nat :=
  if xSize f.x = 4 then (c.v.sreg (f.b.toNat % 64)).toNat + (c.v.sreg (f.b.toNat % 64 + 1)).toNat * 2 ^ 64
  else (readB c f).toNat % 2 ^ (8 * bytes (xSize f.x))
/-- The operand and the compare value of a satom (R162). -/
def satomOps (c : Ctx) (f : GR) : Nat × Nat :=
  let w := 8 * bytes (xSize f.x)
  let b := f.b.toNat % 64
  if xOp f.x ≠ 10 then ((readB c f).toNat % 2 ^ w, 0)
  else if xSize f.x = 4 then ((c.v.sreg (b + 2)).toNat + (c.v.sreg (b + 3)).toNat * 2 ^ 64, (c.v.sreg b).toNat + (c.v.sreg (b + 1)).toNat * 2 ^ 64)
  else ((c.v.sreg (b + 1)).toNat % 2 ^ w, (c.v.sreg b).toNat % 2 ^ w)
/-- The access touches no future that an operation of the wave is on its way to (R155). -/
def clearOne (s : State) (f : GR) (t : Target) : Prop := s.futFlying s.turn (bytes (xSize f.x)) [t] = false
def uniNote (c : Ctx) (f : GR) (kind : Nat) (t : Target) : List Note :=
  [{ lane := lowLane (maskOf c.lanes), addr := (uniAddr c f).2, size := bytes (xSize f.x), kind := kind, tgt := t }]
end Sys2Proof.Spec

/-- R151, R152, R154, R162, R429: sld, sst and satom act once for the batch. Where the address passes its checks sld writes the value read, extended to 64 bits, sst stores its data and satom writes
status 0 and the old value; a satom at a host mapping whose completer has no such AtomicOp writes status 6, performs nothing and leaves s(D+1) alone; where a check fails the instruction traps; an access to a future that an operation of the wave is on its way to waits (R155). -/
def Obligations.UniformMemory : Prop :=
  ∀ (f : GR) (s : State) (v : Wave) (r : Run) (tgt : Target) (s1 s2 : State) (m : Nat),
    (Issues (.sld f) s v r → Spec.uniTarget (s.ctx v r (.sld f)) f 0 s = (.ok tgt, s1) → Spec.clearOne s1 f tgt →
      s1.loadT (s.ctx v r (.sld f)) (lowLane (maskOf (s.ctx v r (.sld f)).lanes)) (uniAddr (s.ctx v r (.sld f)) f).2 (Spec.bytes (xSize f.x)) tgt = (.ok m, s2) →
      exec (.sld f) s = Spec.done (.sld f) s v r
        (let n := s2.noted (s.ctx v r (.sld f)) (Spec.uniNote (s.ctx v r (.sld f)) f 1 tgt)
         { s := n.1, watch := n.2, writes := Spec.uniVal f.d.toNat (xSize f.x) (Spec.extend (xSize f.x) (xSx f.x) 64 m) })) ∧
    (Issues (.sst f) s v r → Spec.uniTarget (s.ctx v r (.sst f)) f 1 s = (.ok tgt, s1) → Spec.clearOne s1 f tgt →
      let c := s.ctx v r (.sst f)
      let one := [(lowLane (maskOf c.lanes), (uniAddr c f).2, tgt)]
      storeAll c (Spec.bytes (xSize f.x)) (fun _ => Spec.uniStored c f) (fun _ => false) one s1 = ([], [], s2) →
      (v.ackcnt + (counted false one).length ≤ 65535 → exec (.sst f) s = Spec.done (.sst f) s v r
        (let n := (s2.countWrites c (counted false one) false).noted c (Spec.uniNote c f 2 tgt)
         { s := n.1, watch := n.2 })) ∧
      (65535 < v.ackcnt + (counted false one).length → exec (.sst f) s = .next s1)) ∧
    (Issues (.satom f) s v r → Spec.uniTarget (s.ctx v r (.satom f)) f 2 s = (.ok tgt, s1) → Spec.clearOne s1 f tgt →
      let c := s.ctx v r (.satom f)
      let ops := Spec.satomOps c f
      ((∀ p, tgt = .glob p → p.ca ≠ 2) → s1.atomT c (lowLane (maskOf c.lanes)) (uniAddr c f).2 (Spec.bytes (xSize f.x)) (xOp f.x) ops.1 ops.2 (xScope f.x)
          (some ((Spec.uniVal (f.d.toNat + 1) (xSize f.x) 0).map (·.loc))) tgt = (.old m, s2) →
        exec (.satom f) s = Spec.done (.satom f) s v r
          (let n := s2.noted c (Spec.uniNote c f 4 tgt)
           { s := n.1, watch := n.2, writes := { loc := .s f.d.toNat, val := 0#64 } :: Spec.uniVal (f.d.toNat + 1) (xSize f.x) m })) ∧
      (∀ p, tgt = .glob p → p.ca = 2 → s1.lockOf p.key = none → completerHas p (xOp f.x) (Spec.bytes (xSize f.x)) = false →
        exec (.satom f) s = Spec.done (.satom f) s v r
          (let n := s1.noted c (Spec.uniNote c f 4 tgt)
           { s := n.1, watch := n.2, writes := [{ loc := .s f.d.toNat, val := 6#64 }] }))) ∧
    (Issues (.sld f) s v r → Spec.inPrivate v (Spec.bytes (xSize f.x)) (uniAddr (s.ctx v r (.sld f)) f) →
      ∃ s' hits, exec (.sld f) s = Spec.done (.sld f) s v r { s := s', watch := hits, writes := Spec.uniVal f.d.toNat (xSize f.x) (Spec.extend (xSize f.x) (xSx f.x) 64
        (v.privRead (lowLane (maskOf (s.ctx v r (.sld f)).lanes)) ((uniAddr (s.ctx v r (.sld f)) f).2 - 0xFD0000000000) (Spec.bytes (xSize f.x)))) } ∧
        s'.waves = s.waves ∧ s'.mem = s.mem ∧ s'.crews = s.crews) ∧
    (∀ p ∈ [((fun f => Instr.sst f : GR → Instr), false), ((fun f => Instr.satom f), true)],
      Issues (p.1 f) s v r → v.ackcnt ≤ 65535 → 0 < v.width → Spec.inPrivate v (Spec.bytes (xSize f.x)) (uniAddr (s.ctx v r (p.1 f)) f) → (s.ctx v r (p.1 f)).lanes ≠ [] →
      let c := s.ctx v r (p.1 f)
      let n := Spec.bytes (xSize f.x)
      let l := lowLane (maskOf c.lanes)
      let o := (uniAddr c f).2 - 0xFD0000000000
      ∃ s' hits v', exec (p.1 f) s = Spec.done (p.1 f) s v r { s := s', watch := hits, writes := if p.2 then
            { loc := .s f.d.toNat, val := 0#64 } :: Spec.uniVal (f.d.toNat + 1) (xSize f.x) (v.privRead l o n) else [] } ∧
        s'.mem = s.mem ∧ s'.crews = s.crews ∧ s'.wave? s.turn = some v' ∧ ({ v' with privMem := [] } : Wave) = { v with privMem := [] } ∧
        v'.privRead l o n = (if p.2 then atomNew (xOp f.x) n (v.privRead l o n) (Spec.satomOps c f).1 (Spec.satomOps c f).2 else Spec.uniStored c f) % 256 ^ n ∧
        ∀ m q, m < v.width → (m ≠ l ∨ q < o ∨ o + n ≤ q) → v'.privRead m q 1 = v.privRead m q 1) ∧
    (∀ p ∈ [((fun f => Instr.sld f : GR → Instr), 0), ((fun f => Instr.sst f), 1), ((fun f => Instr.satom f), 2)],
      Issues (p.1 f) s v r → Spec.uniTarget (s.ctx v r (p.1 f)) f p.2 s = (.ok tgt, s1) → ¬ Spec.clearOne s1 f tgt → exec (p.1 f) s = .next s1) ∧
    (∀ p ∈ [((fun f => Instr.sld f : GR → Instr), 0), ((fun f => Instr.sst f), 1), ((fun f => Instr.satom f), 2)], ∀ t,
      Issues (p.1 f) s v r → Spec.uniTarget (s.ctx v r (p.1 f)) f p.2 s = (.error t, s1) →
      ∃ t', exec (p.1 f) s = .next (s1.issueTrap s.turn v r t' (s.ctx v r (p.1 f)).site) ∧ t'.cause = t.cause ∧ t'.sub = t.sub ∧ t'.tval = t.tval)

/-- R167, R203, R204, R215: a release writes the L1 back at .die scope or wider, and its run waits for the acknowledgements from .pkg on, at .sys also for a zero-length read of every host port that
took posted writes, and for the wave's writes at locked lines; an acquire writes back and empties the L1 when its run has ended; fence.ar does both. While the limit of ACKCNT keeps a dirty byte in the
L1 a release does not issue. -/
def Sys2Proof.Spec.FenceInstructions : Prop :=
  ∀ (f : GR) (s : State) (v : Wave) (r : Run),
    let sc := f.b.toNat % 256
    let rel := fun s1 : State => if 4 ≤ sc then
        (s1.modWave s.turn (fun x => { x with posted := [] })).send (((s1.wave? s.turn).map (·.posted)).getD [] |>.map (fun p => .zeroLengthReadCompletion s.turn p)) else s1
    let zlr := fun s1 : State => if 4 ≤ sc then ((s1.wave? s.turn).map (·.posted)).getD [] else []
    let s1 := if sc < 2 then s else s.flushL1 (s.coreOf v) (fun _ => true) false
    let stays := 2 ≤ sc ∧ ∃ e ∈ (s1.core (s.coreOf v)).l1, e.2.dirty = true
    (Issues (.fenceRel f) s v r → ¬ stays → exec (.fenceRel f) s = Spec.done (.fenceRel f) s v r
      { s := rel s1, waitAck := decide (3 ≤ sc), waitZlr := zlr s1, waitHeld := true }) ∧
    (Issues (.fenceAcq f) s v r → exec (.fenceAcq f) s = Spec.done (.fenceAcq f) s v r { s := s, onEnd := .fence sc }) ∧
    (Issues (.fenceAr f) s v r → ¬ stays → exec (.fenceAr f) s = Spec.done (.fenceAr f) s v r
      { s := rel s1, onEnd := .fence sc, waitAck := decide (3 ≤ sc), waitZlr := zlr s1, waitHeld := true }) ∧
    (∀ i ∈ [Instr.fenceRel f, .fenceAr f], Issues i s v r → stays → exec i s = .next s1) ∧
    (∀ (lanes : W64) (run : Run), s.wave? s.turn = some v → run.onEnd = .fence sc →
      s.applyEnd s.turn lanes run moveCrew = if sc < 2 then s else s.flushL1 (s.coreOf v) (fun _ => true) true)

namespace Sys2Proof.Spec
/-- The result of a uniform instruction that returns a status in sD. -/
def statusDone (i : Instr) (d st : Nat) (s1 s : State) (v : Wave) (r : Run) : Host.Outcome State Fault Refusal :=
  done i s v r { s := s1, writes := [{ loc := .s d, val := BitVec.ofNat 64 st }] }
/-- A region word of ec.bind that names a region (R168, R170). -/
def okRegion (a : Nat) : Prop := 7 ≤ a % 64 ∧ a % 64 ≤ 47 ∧ a / 64 % 2 = 0 ∧ a < 2 ^ 48 ∧ a / 128 * 128 % 2 ^ (a % 64) = 0
/-- The bits of an object word that its kind uses (R169): low bit and high bit. -/
def objectBits : List (Nat × Nat) := [(7, 47), (0, 3), (0, 1), (0, 2), (0, 11), (4, 47), (0, 11), (2, 47)]
def okObject (b : Nat) : Prop := ∃ p, objectBits[b / 2 ^ 60]? = some p ∧ b % 2 ^ 60 % 2 ^ p.1 = 0 ∧ b % 2 ^ 60 < 2 ^ (p.2 + 1)
end Sys2Proof.Spec

/-- R168, R169, R170: ec.bind adds the region and the object at the lowest free index of the process and returns status 0 with the index; with 64 entries in use it returns 4, with a word that names
no region or no object 0x25, and changes nothing; ec.drop frees an entry with status 0, and returns 3 where there is none. -/
def Sys2Proof.Spec.Bindings : Prop :=
  ∀ (f : GR) (s : State) (v : Wave) (r : Run) (p : Proc), s.proc? v.proc = some p →
    (∀ n, Issues (.ecBind f) s v r → Spec.okRegion (Spec.uA f (s.ctx v r (.ecBind f))) → Spec.okObject (Spec.uB f (s.ctx v r (.ecBind f))) →
      n < 64 → Tab.get? p.bindings n = none → (∀ m < n, Tab.get? p.bindings m ≠ none) →
      let a := Spec.uA f (s.ctx v r (.ecBind f))
      let b := Spec.uB f (s.ctx v r (.ecBind f))
      exec (.ecBind f) s = Spec.statusDone (.ecBind f) f.d.toNat (n * 256)
        (s.modProc v.proc (fun p => { p with bindings := Tab.set p.bindings n { base := a / 128 * 128, size := 2 ^ (a % 64), kind := b / 2 ^ 60, ident := b % 2 ^ 60 } })) s v r) ∧
    (Issues (.ecBind f) s v r → Spec.okRegion (Spec.uA f (s.ctx v r (.ecBind f))) → Spec.okObject (Spec.uB f (s.ctx v r (.ecBind f))) → (∀ m < 64, Tab.get? p.bindings m ≠ none) →
      exec (.ecBind f) s = Spec.statusDone (.ecBind f) f.d.toNat 4 s s v r) ∧
    (Issues (.ecBind f) s v r → ¬ (Spec.okRegion (Spec.uA f (s.ctx v r (.ecBind f))) ∧ Spec.okObject (Spec.uB f (s.ctx v r (.ecBind f)))) →
      exec (.ecBind f) s = Spec.statusDone (.ecBind f) f.d.toNat 0x25 s s v r) ∧
    (∀ e, Issues (.ecDrop f) s v r → Tab.get? p.bindings ((v.sreg f.a.toNat).toNat % 64) = some e →
      exec (.ecDrop f) s = Spec.statusDone (.ecDrop f) f.d.toNat 0 (s.modProc v.proc (fun p => { p with bindings := Tab.del p.bindings ((v.sreg f.a.toNat).toNat % 64) })) s v r) ∧
    (Issues (.ecDrop f) s v r → Tab.get? p.bindings ((v.sreg f.a.toNat).toNat % 64) = none →
      exec (.ecDrop f) s = Spec.statusDone (.ecDrop f) f.d.toNat 3 s s v r)

namespace Sys2Proof.Spec
/-- The wave's writes on their way have arrived, and those that wait at locked lines are what the operation on a future waits for (R155, R174, R203). -/
def writesBefore (s : State) (w : Nat) (v : Wave) : State := (s.landWrites w (fun _ => true)).tagWrites w (2 ^ 65 + v.issues)
end Sys2Proof.Spec

/-- R171, R172, R173, R174, R430: wait.addr of a word of the crew's own allocation below its barrier block holds the batch on the word when its run has ended; the future instructions send their
operation to the home of a global, 16-byte aligned granule with CA = 0; fut.wr is a release at its scope. An address of another space traps. An operation on a future that an earlier one of the wave is on its way to waits. -/
def Sys2Proof.Spec.WaitsAndFutures : Prop :=
  ∀ (f : GR) (s : State) (v : Wave) (r : Run) (k : Crew) (p : Phys) (s1 : State),
    (∀ o, Issues (.waitAddr f) s v r → s.crew? v.crew = some k → k.regions = [] → (uniAddr (s.ctx v r (.waitAddr f)) f) = (false, 0xFE0000000000 + o) → (xSize f.x = 2 ∨ xSize f.x = 3) →
      o % Spec.bytes (xSize f.x) = 0 → o + Spec.bytes (xSize f.x) ≤ k.grans * 4096 - 128 → k.grans ≤ 64 →
      ∃ hits, exec (.waitAddr f) s = Spec.done (.waitAddr f) s v r
        { s := s, watch := hits
          onEnd := .addr o (Spec.bytes (xSize f.x)) (BitVec.ofNat 64 (Spec.uB f (s.ctx v r (.waitAddr f)) % 2 ^ (8 * Spec.bytes (xSize f.x)))) (xScope f.x) }) ∧
    (∀ a, Issues (.waitAddr f) s v r → uniAddr (s.ctx v r (.waitAddr f)) f = (false, a) → a < 0xFC0000000000 →
      ∃ t, exec (.waitAddr f) s = .next (s.issueTrap s.turn v r t (s.ctx v r (.waitAddr f)).site) ∧ t.cause = 0x20 ∧ t.sub = 24 ∧ t.tval = BitVec.ofNat 64 a) ∧
    (∀ q ∈ [((fun f => Instr.futInit f : GR → Instr), (fun (_ : Ctx) => FutOp.init), true), ((fun f => Instr.futRd f), (fun _ => FutOp.rd), false)],
      Issues (q.1 f) s v r →
      s.resolve v (lowLane (maskOf (s.ctx v r (q.1 f)).lanes)) { kind := 2, size := 16, align := 16, globalOnly := true, dev := true } (uniAddr (s.ctx v r (q.1 f)) f).1 (uniAddr (s.ctx v r (q.1 f)) f).2
        = (.ok (.glob p), s1) → p.ca = 0 → s1.futFlying s.turn 16 [.glob p] = false →
      exec (q.1 f) s = Spec.done (q.1 f) s v r
        { s := (Spec.writesBefore s1 s.turn v).send [.futureOpAtHome s.turn v.issues f.d.toNat (q.2.1 (s.ctx v r (q.1 f))) p.key (xScope f.x) (uniAddr (s.ctx v r (q.1 f)) f).2 r.pc
            ((encode (q.1 f)).getD 0 0) ((encode (q.1 f)).getD 1 0) ((encode (q.1 f)).getD 2 0)]
          waitVar := q.2.2, ready := false }) ∧
    (Issues (.futWr f) s v r →
      s.resolve v (lowLane (maskOf (s.ctx v r (.futWr f)).lanes)) { kind := 2, size := 16, align := 16, globalOnly := true, dev := true } (uniAddr (s.ctx v r (.futWr f)) f).1 (uniAddr (s.ctx v r (.futWr f)) f).2
        = (.ok (.glob p), s1) → p.ca = 0 → s1.futFlying s.turn 16 [.glob p] = false → xScope f.x < 2 →
      exec (.futWr f) s = Spec.done (.futWr f) s v r
        { s := (Spec.writesBefore s1 s.turn v).send [.futureOpAtHome s.turn v.issues f.d.toNat (.wr (readB (s.ctx v r (.futWr f)) f)) p.key (xScope f.x) (uniAddr (s.ctx v r (.futWr f)) f).2 r.pc
            ((encode (.futWr f)).getD 0 0) ((encode (.futWr f)).getD 1 0) ((encode (.futWr f)).getD 2 0)]
          ready := false }) ∧
    (∀ sc, Issues (.futWr f) s v r → xScope f.x = sc → 2 ≤ sc → sc ≤ 4 →
      s.resolve v (lowLane (maskOf (s.ctx v r (.futWr f)).lanes)) { kind := 2, size := 16, align := 16, globalOnly := true, dev := true } (uniAddr (s.ctx v r (.futWr f)) f).1 (uniAddr (s.ctx v r (.futWr f)) f).2
        = (.ok (.glob p), s1) → p.ca = 0 → s1.futFlying s.turn 16 [.glob p] = false → ∃ (s2 : State) (zl : List Nat), exec (.futWr f) s = Spec.done (.futWr f) s v r
          { s := (Spec.writesBefore s2 s.turn v).send [.futureOpAtHome s.turn v.issues f.d.toNat (.wr (readB (s.ctx v r (.futWr f)) f)) p.key sc (uniAddr (s.ctx v r (.futWr f)) f).2 r.pc
              ((encode (.futWr f)).getD 0 0) ((encode (.futWr f)).getD 1 0) ((encode (.futWr f)).getD 2 0)]
            ready := false, waitAck := decide (3 ≤ sc), waitZlr := zl }) ∧
    (∀ i ∈ [Instr.futInit f, .futRd f, .futWr f], Issues i s v r →
      s.resolve v (lowLane (maskOf (s.ctx v r i).lanes)) { kind := 2, size := 16, align := 16, globalOnly := true, dev := true } (uniAddr (s.ctx v r i) f).1 (uniAddr (s.ctx v r i) f).2
        = (.ok (.glob p), s1) → p.ca = 0 → s1.futFlying s.turn 16 [.glob p] = true → exec i s = .next s1) ∧
    (Spec.noneFlying s s.turn → (∀ e ∈ s.locks, ∀ x ∈ e.2.writes, x.wave ≠ s.turn) → Spec.writesBefore s s.turn v = s)

/-! ## Crews and locks -/

namespace Sys2Proof.Spec
/-- An instruction that traps with OPERAND for an operand's value (R406, R442): SUB, the whole batch, and TVAL 5, the operand value; that TVAL is the model's
reading (log 23). -/
def operandTrap (i : Instr) (sub : Nat) (s : State) (v : Wave) (r : Run) : Prop :=
  ∃ t, exec i s = .next (s.issueTrap s.turn v r t (s.ctx v r i).site) ∧ t.cause = 4 ∧ t.sub = sub ∧ t.tval = 5#64 ∧ t.lanes = maskOf (s.ctx v r i).lanes
/-- Everything but the locks. -/
def unlocked (s : State) : State := { s with locks := [] }
end Sys2Proof.Spec

/-- R231, R442: an arrival with an expected count e of 1 to 65,535 at a barrier that has none or the same count under way is counted; the e-th flips the phase, clears the count, and ends the pending phase of every wave that has arrived; while an earlier write of the wave waits at a locked line the arrival waits for it (R203); nb.wait and nb.sync
hold the batch on the barrier when its run has ended. A count outside the range traps with OPERAND 0x07; one that differs from the count under way raises OPERAND 0x06 at completion and counts nothing. -/
def Obligations.Barriers : Prop :=
  ∀ (f : GR) (s : State) (v : Wave) (r : Run) (k : Crew),
    (Issues (.nbWait f) s v r → exec (.nbWait f) s = Spec.done (.nbWait f) s v r { s := s, onEnd := .barrier (f.d.toNat % 16) 0 }) ∧
    ∀ p ∈ [((fun f => Instr.nbArrive f : GR → Instr), OnEnd.go), ((fun f => Instr.nbSync f), OnEnd.barrier (f.d.toNat % 16) 0)],
      Issues (p.1 f) s v r → s.crew? v.crew = some k →
      let e := Spec.uB f (s.ctx v r (p.1 f))
      let nb := f.d.toNat % 16
      let b := Tab.getD k.barriers nb {}
      let now := s.writesDone s.turn = true ∧ v.arriving = []
      ((e = 0 ∨ 65535 < e) → Spec.operandTrap (p.1 f) 7 s v r) ∧
      (now → 0 < e → e ≤ 65535 → (b.arrived = 0 ∨ b.expected = e) → b.arrived + 1 ≠ e →
        exec (p.1 f) s = Spec.done (p.1 f) s v r
          { s := (s.modWave s.turn (fun v => { v with pend := Tab.set v.pend nb 1 })).setCrew v.crew
              { k with barriers := Tab.set k.barriers nb { b with expected := e, arrived := b.arrived + 1, arrset := insertSet b.arrset s.turn } }
            onEnd := p.2 }) ∧
      (now → 0 < e → e ≤ 65535 → (b.arrived = 0 ∨ b.expected = e) → b.arrived + 1 = e →
        ∃ s' k', exec (p.1 f) s = Spec.done (p.1 f) s v r { s := s', onEnd := p.2 } ∧ s'.crew? v.crew = some k' ∧
          Tab.get? k'.barriers nb = some { expected := e, arrived := 0, phase := (b.phase + 1) % 2 } ∧
          ∀ w x, s.wave? w = some x → (w ∈ b.arrset ∨ w = s.turn) → ((Tab.keys s.waves).Nodup) → ∃ x', s'.wave? w = some x' ∧ Tab.getD x'.pend nb 0 = 0) ∧
      (now → 0 < e → e ≤ 65535 → 0 < b.arrived → b.expected ≠ e →
        ∃ t, exec (p.1 f) s = Spec.done (p.1 f) s v r { s := s, onEnd := p.2, late := [t] } ∧ t.cause = 4 ∧ t.sub = 6) ∧
      (Spec.noneFlying s s.turn → ¬ now → 0 < e → e ≤ 65535 →
        ∃ s' x, exec (p.1 f) s = Spec.done (p.1 f) s v r { s := s', onEnd := p.2 } ∧ s'.crew? v.crew = some k ∧
          (s.wave? s.turn = some v → s'.wave? s.turn = some { v with arriving := v.arriving ++ [x] } ∧ x.nb = nb ∧ x.count = e))

/-- R233, R234, R236, R441, R442: pl.cfg configures, replaces or releases a step region and returns a status; pl.join and pl.join.drop put the wave in the region's step group and take it out; step holds the batch
until the step commits. A region that is not configured, or a step by a wave outside the group, traps with OPERAND 0x06. -/
def Sys2Proof.Spec.StepRegions : Prop :=
  ∀ (f : GR) (s : State) (v : Wave) (r : Run) (k : Crew), s.crew? v.crew = some k →
    let w := (v.sreg f.a.toNat).toNat
    let g := f.b.toNat % 4
    (∀ st s', Issues (.plCfg f) s v r →
      (st, s') = (if ((Tab.get? k.regions (w % 4)).map (fun x => decide (x.group ≠ []))).getD false = true then (7, s)
        else if plBad s v.crew k w = true then (0x25, s)
        else if w / 2 ^ 20 % 1024 = 0 then
          (match Tab.get? k.regions (w % 4) with
           | none => (3, s)
           | some _ => (0, s.setCrew v.crew (k.releaseRegion (w % 4))))
        else (0, s.setCrew v.crew { k.releaseRegion (w % 4) with
          regions := Tab.set (k.releaseRegion (w % 4)).regions (w % 4) { rule := w / 4 % 4, off := w / 2 ^ 8 % 2 ^ 11 * 128, n := w / 2 ^ 20 % 1024 * 128 } })) →
      exec (.plCfg f) s = Spec.statusDone (.plCfg f) f.d.toNat st s' s v r) ∧
    (∀ x, Issues (.plJoin f) s v r → Tab.get? k.regions g = some x →
      exec (.plJoin f) s = Spec.done (.plJoin f) s v r
        { s := s.setCrew v.crew { k with regions := Tab.set k.regions g { x with group := if x.group.contains s.turn then x.group else x.group ++ [s.turn] } } }) ∧
    (Issues (.plJoin f) s v r → Tab.get? k.regions g = none → Spec.operandTrap (.plJoin f) 6 s v r) ∧
    (∀ x, Issues (.plJoinDrop f) s v r → Tab.get? k.regions g = some x → (∀ m ∈ x.group, m = s.turn) → (∀ e ∈ s.waves, ∀ h ∈ e.2.held, h.on ≠ .step g) →
      exec (.plJoinDrop f) s = Spec.done (.plJoinDrop f) s v r { s := s.setCrew v.crew { k with regions := Tab.set k.regions g { x with group := [] } } }) ∧
    (∀ x, Issues (.step f) s v r → Tab.get? k.regions g = some x → s.turn ∈ x.group → exec (.step f) s = Spec.done (.step f) s v r { s := s, onEnd := .step g }) ∧
    (Issues (.step f) s v r → (∀ x, Tab.get? k.regions g = some x → s.turn ∉ x.group) → Spec.operandTrap (.step f) 6 s v r)

/-- R236: the commit makes the next plane present: every word that was written in the step is the present, valid word of its slot; the words not written keep the present value, and the next plane is empty. -/
def Sys2Proof.Spec.StepCommit : Prop :=
  ∀ (c : Crew) (k : Nat) (g : Region), (Tab.keys g.next).Nodup →
    (∀ i x, Tab.get? g.next i = some x → Tab.get? (c.commitRegion k g).scratch (g.off / 4 + i) = some x) ∧
    (∀ j, (∀ i, Tab.get? g.next i ≠ none → j ≠ g.off / 4 + i) → Tab.get? (c.commitRegion k g).scratch j = Tab.get? c.scratch j) ∧
    Tab.get? (c.commitRegion k g).regions k = some { g with next := [], tags := [] } ∧ (c.commitRegion k g).barriers = c.barriers ∧
    (∀ (r : Region) (i : Nat) (x : W32) (idx : Nat), Tab.get? r.next i = none → r.store i x idx = some { r with next := Tab.set r.next i x, tags := Tab.set r.tags i idx }) ∧
    (∀ (r : Region) (i : Nat) (x n : W32) (idx : Nat), Tab.get? r.next i = some n →
      (r.rule = 0 → ∀ r', r.store i x idx = some r' → Tab.get? r'.next i = some (if idx ≤ Tab.getD r.tags i 0 then x else n)) ∧
      (r.rule = 1 → r.store i x idx = some { r with next := Tab.set r.next i (n + x) }) ∧
      (r.rule = 2 → r.store i x idx = some { r with next := Tab.set r.next i (BitVec.ofNat 32 (Fmt.f32.addOp n.toNat x.toNat).1) }) ∧
      (r.rule = 3 → r.store i x idx = none))

/-- R227, R228, R229: crew.join with bit 7 of b reports the wave's crew; with slot 0 it asks for a new crew of the stated size when its run has ended, with a slot that holds a crew handle with CTRL for a place in that crew; a slot that fails its
checks gives the status of R426. crew.leave leaves when its run has ended. A join of the wave's own crew answers OK and moves nothing, of a crew of 32 FULL. -/
def Sys2Proof.Spec.CrewMoves : Prop :=
  ∀ (f : GR) (s : State) (v : Wave) (r : Run) (k : Crew), s.wave? s.turn = some v → s.crew? v.crew = some k →
    let c := s.ctx v r (.crewJoin f)
    let b := Spec.uB f c
    let slot := Spec.uA f c % 4096
    let word := fun st (x : Crew) => BitVec.ofNat 64 (st + v.member % 32 * 256 + x.base % 64 * 2 ^ 16 + x.grans % 128 * 2 ^ 23)
    (Issues (.crewJoin f) s v r → b.testBit 7 = true →
      exec (.crewJoin f) s = Spec.done (.crewJoin f) s v r { s := s, writes := [{ loc := .s f.d.toNat, val := word 0 k }] }) ∧
    (Issues (.crewJoin f) s v r → b.testBit 7 = false → slot = 0 →
      exec (.crewJoin f) s = Spec.done (.crewJoin f) s v r { s := s, onEnd := .crewJoin none (b % 64 + 1) (b.testBit 6) f.d.toNat }) ∧
    (∀ h, Issues (.crewJoin f) s v r → b.testBit 7 = false → slot ≠ 0 → s.checkSlot v.proc slot [3] 5 = .ok h → (s.crew? (hId h)).isSome = true →
      exec (.crewJoin f) s = Spec.done (.crewJoin f) s v r { s := s, onEnd := .crewJoin (some (hId h, slot)) 1 false f.d.toNat }) ∧
    (∀ e, Issues (.crewJoin f) s v r → b.testBit 7 = false → slot ≠ 0 → s.checkSlot v.proc slot [3] 5 = .error e →
      exec (.crewJoin f) s = Spec.done (.crewJoin f) s v r { s := s, writes := [{ loc := .s f.d.toNat, val := word e k }] }) ∧
    (Issues (.crewLeave f) s v r → exec (.crewLeave f) s = Spec.done (.crewLeave f) s v r { s := s, onEnd := .crewLeave }) ∧
    (∀ slot vt n d, moveCrew s s.turn (.crewJoin (some (v.crew, slot)) n vt d) = s.modWave s.turn (fun x => x.setSreg d (word 0 k + BitVec.ofNat 64 (slot % 4096 * 2 ^ 32)))) ∧
    (∀ t x slot vt n d, s.crew? t = some x → t ≠ v.crew → 32 ≤ x.members.length →
      moveCrew s s.turn (.crewJoin (some (t, slot)) n vt d) = s.modWave s.turn (fun x => x.setSreg d (word 4 k))) ∧
    (∀ n vt d, s.emptySlot v.proc = none → moveCrew s s.turn (.crewJoin none n vt d) = s.modWave s.turn (fun x => x.setSreg d (word 4 k)))

/-- R15, R289, R426: the checks of a handle slot and their order: 3 for slot 0 or an empty slot, 0x25 for another kind, for a handle of another package where none is accepted, or for one of node 0xFFFF, which names no package (R10; that it gives 0x25 is the model's reading, log 85), 0x21 for a missing right, 0x20 for a stale handle. -/
def Sys2Proof.Spec.SlotChecks : Prop :=
  ∀ (s : State) (p n : Nat) (kinds : List Nat) (right : Nat) (foreign : Bool),
    (n = 0 ∨ s.slot? p n = none → s.checkSlot p n kinds right foreign = .error 3) ∧
    (∀ h, n ≠ 0 → s.slot? p n = some h →
      let kind := h.handle.toNat / 2 ^ 36 % 32
      let gen := h.handle.toNat / 2 ^ 24 % 4096
      let id := h.handle.toNat / 2 ^ 41 % 8 * 2 ^ 24 + h.handle.toNat % 2 ^ 24
      let there := decide (h.handle.toNat / 2 ^ 44 % 2 ^ 16 ≠ (Tab.getD (s.die 0).regs 0x20 0).toNat % 2 ^ 16)
      let stale := !there && (decide ((s.obj id).kind ≠ kind) || decide ((s.obj id).gen ≠ gen))
      s.checkSlot p n kinds right foreign =
        if kind ∉ kinds ∨ (there = true ∧ (foreign = false ∨ h.handle.toNat / 2 ^ 44 % 2 ^ 16 = 0xFFFF)) then .error 0x25
        else if h.rights.getLsbD right = false then .error 0x21
        else if stale = true then .error 0x20 else .ok h.handle)

/-- R238, R239, R240, R443: a lock instruction whose address names a line of the package's memory issues: a request is counted against the wave and travels to the line's home; a try of a free line takes it, of a locked one answers BUSY; a release of a line the wave holds gives it up and travels there. With four locks held or asked for a request traps with
LKLIMIT, a release of a line not held with LKNOTHELD, an address with bits above 47 with LKSPACE 1, one that is not global with LKSPACE 0. -/
def Sys2Proof.Spec.LockInstructions : Prop :=
  ∀ (f : GR) (s : State) (v : Wave) (r : Run),
    (∀ q ∈ [((fun f => Instr.lkAcq f : GR → Instr), false), ((fun f => Instr.lkTry f), true)], Issues (q.1 f) s v r →
      (∀ line s1, q.2 = false → lockLine (s.ctx v r (q.1 f)) f s = (.ok line, s1) → v.heldLocks.length + v.lockReqs < 4 →
        exec (q.1 f) s = Spec.done (q.1 f) s v r
          { s := (s1.modWave s.turn (fun v => { v with lockReqs := v.lockReqs + 1, lkPending := v.lkPending ++ [(line, v.issues, f.d.toNat)] })).send
              [.lockRequestAtHome s.turn v.issues f.d.toNat line false (Spec.uB f (s.ctx v r (q.1 f)))]
            ready := false }) ∧
      (∀ line s1, q.2 = true → lockLine (s.ctx v r (q.1 f)) f s = (.ok line, s1) → v.heldLocks.length + v.lockReqs < 4 →
        (∀ l, Tab.get? s1.locks line = some l → (l.holder.isSome = true ∨ l.releasing = true) → exec (q.1 f) s = Spec.statusDone (q.1 f) f.d.toNat 7 s1 s v r) ∧
        (Tab.get? s1.locks line = none → 4096 ≤ s1.lockLines (lineDie line) → exec (q.1 f) s = Spec.statusDone (q.1 f) f.d.toNat 7 s1 s v r) ∧
        (Tab.get? s1.locks line = none → s1.lockLines (lineDie line) < 4096 → s1.wave? s.turn = some v →
          ∃ s' x, exec (q.1 f) s = Spec.statusDone (q.1 f) f.d.toNat 0 s' s v r ∧ Tab.get? s'.locks line = some { holder := some s.turn } ∧
            s'.wave? s.turn = some x ∧ line ∈ x.heldLocks) ∧
        (∀ l, Tab.get? s1.locks line = some l → l.holder = none → l.releasing = false → s1.wave? s.turn = some v →
          ∃ s' x, exec (q.1 f) s = Spec.statusDone (q.1 f) f.d.toNat (if l.broken then 1 else 0) s' s v r ∧
            Tab.get? s'.locks line = some { l with holder := some s.turn, broken := false, releasing := false, copy := [] } ∧
            s'.wave? s.turn = some x ∧ line ∈ x.heldLocks)) ∧
      (∀ line s1, lockLine (s.ctx v r (q.1 f)) f s = (.ok line, s1) → 4 ≤ v.heldLocks.length + v.lockReqs →
        ∃ t, exec (q.1 f) s = .next (s1.issueTrap s.turn v r t (s.ctx v r (q.1 f)).site) ∧ t.cause = 0x31 ∧ t.tval = v.sreg f.a.toNat)) ∧
    (∀ line s1, Issues (.lkRel f) s v r → lockLine (s.ctx v r (.lkRel f)) f s = (.ok line, s1) → line ∈ v.heldLocks →
      let s2 := (s1.landWrites s.turn (fun _ => true)).tagWrites s.turn (2 ^ 64 + line)
      s2.lockIdents v.proc line = [] → exec (.lkRel f) s = Spec.done (.lkRel f) s v r
        { s := ((s2.modWave s.turn (fun v => { v with heldLocks := v.heldLocks.filter (· != line) })).modLock line (fun l => { l with holder := none, releasing := true })).send
            [.lockReleaseAtHome s.turn line] }) ∧
    (∀ line s1, Issues (.lkRel f) s v r → lockLine (s.ctx v r (.lkRel f)) f s = (.ok line, s1) → line ∉ v.heldLocks →
      ∃ t, exec (.lkRel f) s = .next (s1.issueTrap s.turn v r t (s.ctx v r (.lkRel f)).site) ∧ t.cause = 0x30 ∧ t.tval = v.sreg f.a.toNat) ∧
    (∀ c : Ctx, 2 ^ 48 ≤ (c.v.sreg f.a.toNat).toNat → lockLine c f s = (.error { cause := 0x32, sub := 1, tval := BitVec.ofNat 64 (c.v.sreg f.a.toNat).toNat }, s)) ∧
    (∀ c : Ctx, 0xFC0000000000 ≤ (c.v.sreg f.a.toNat).toNat → (c.v.sreg f.a.toNat).toNat < 2 ^ 48 →
      lockLine c f s = (.error { cause := 0x32, sub := 0, tval := BitVec.ofNat 64 (c.v.sreg f.a.toNat).toNat }, s)) ∧
    (∀ (c : Ctx) (p : Phys) (s1 : State), (c.v.sreg f.a.toNat).toNat < 0xFC0000000000 → s.translate (s.coreOf c.v) c.v.proc (c.v.sreg f.a.toNat).toNat 2 false true = (.ok p, s1) →
      p.ca = 0 → p.gs ≠ 3 → lockLine c f s = (.ok (p.key / 128), s1))

namespace Sys2Proof.Spec
/-- No L1 holds a byte of a line. -/
def noCopy (s : State) (line : Nat) : Prop := ∀ c ∈ s.cores, ∀ e ∈ c.2.l1, e.1 / 128 ≠ line
/-- No barrier arrival and no step of a wave's crew waits for its writes (R203, R232, R236). -/
def waitsForNothing (s : State) (v : Wave) : Prop := v.arriving = [] ∧ ∀ k, s.crew? v.crew = some k → k.regions = []
/-- The next holder of a released line (R239, R445): the first waiter whose wave is awake, else the first. -/
def nextHolder (s : State) (l : Lock) : Option LockWaiter :=
  match l.queue.find? (fun q => s.awake q.wave) with
  | some q => some q
  | none => l.queue.head?
end Sys2Proof.Spec

/-- R239, R240, R241, R444: at a line's home. A request for a free line is granted, one for a broken line too, with status 1; a try of a held line gets BUSY; a request that closes a cycle of waits gets DEADLOCK; any other waits in the queue. A release hands the line, with the holder's bytes
performed first, to the next waiter, or ends its entry. The grant reaches the wave with its status. A waiter whose deadline has passed gets TIMEOUT. A write of a wave that does not hold the line waits there. -/
def Sys2Proof.Spec.LocksAtHome : Prop :=
  ∀ (s : State) (w seq d line : Nat) (v : Wave), s.wave? w = some v → v.dead = false →
    (∀ try_ timeout, Tab.get? s.locks line = none → s.lockLines (lineDie line) < 4096 →
      ∃ t pre, exec (.lockRequestAtHome w seq d line try_ timeout) s = .next t ∧ Tab.get? t.locks line = some { holder := some w } ∧
        t.inflight = pre ++ [.lockGrantArrival w line 0] ∧ (Spec.noCopy s line → pre = s.inflight) ∧ ∀ n, n ≠ line → Tab.get? t.locks n = Tab.get? s.locks n) ∧
    (∀ try_ timeout l, Tab.get? s.locks line = some l → l.holder = none → l.releasing = false →
      ∃ t pre, exec (.lockRequestAtHome w seq d line try_ timeout) s = .next t ∧
        Tab.get? t.locks line = some { l with holder := some w, broken := false, releasing := false, copy := [] } ∧
        t.inflight = pre ++ [.lockGrantArrival w line (if l.broken then 1 else 0)] ∧ (Spec.noCopy s line → pre = s.inflight)) ∧
    (∀ timeout l, Tab.get? s.locks line = some l → (l.holder.isSome = true ∨ l.releasing = true) →
      exec (.lockRequestAtHome w seq d line true timeout) s = .next (s.lockStatus w line seq d 7)) ∧
    (∀ timeout l h, Tab.get? s.locks line = some l → l.holder = some h → s.lockWaiters (lineDie line) < 16384 → s.cycleFrom w h (s.locks.length + 1) = true →
      exec (.lockRequestAtHome w seq d line false timeout) s = .next (s.lockStatus w line seq d 0x23)) ∧
    (∀ timeout l h, Tab.get? s.locks line = some l → l.holder = some h → s.lockWaiters (lineDie line) < 16384 → s.cycleFrom w h (s.locks.length + 1) = false →
      exec (.lockRequestAtHome w seq d line false timeout) s = .next
        { s with
          locks := Tab.set s.locks line { l with queue := l.queue ++ [{ wave := w, deadline := if timeout = 0 then none else some (s.tickOf (lineDie line) + (timeout + 7) / 8) }] }
          waves := Tab.mod s.waves w (fun v => { v with wait := some (.lock line seq d), blockedAt := s.cycles }) }) ∧
    (∀ l, Tab.get? s.locks line = some l → l.releasing = true → s.acked w = true → s.tagged w (2 ^ 64 + line) = false → l.copy = [] → l.writes = [] → l.queue = [] → l.broken = false → (Tab.keys s.locks).Nodup →
      ∃ t, exec (.lockReleaseAtHome w line) s = .next t ∧ Tab.get? t.locks line = none ∧ Spec.unlocked t = Spec.unlocked s ∧ ∀ n, n ≠ line → Tab.get? t.locks n = Tab.get? s.locks n) ∧
    (∀ l y, Tab.get? s.locks line = some l → l.releasing = true → s.acked w = true → s.tagged w (2 ^ 64 + line) = false → l.copy = [] → l.writes = [] → Spec.nextHolder s l = some y →
      ∃ t, exec (.lockReleaseAtHome w line) s = .next t ∧ t.inflight = s.inflight ++ [.lockGrantArrival y.wave line (if l.broken then 1 else 0)] ∧ t.mem = s.mem ∧
        Tab.get? t.locks line = some { holder := some y.wave, queue := l.queue.filter (fun q => q.wave != y.wave) }) ∧
    (∀ l, Tab.get? s.locks line = some l → l.releasing = true → (s.acked w = false ∨ s.tagged w (2 ^ 64 + line) = true) →
      exec (.lockReleaseAtHome w line) s = .next { s with inflight := s.inflight ++ [.lockReleaseAtHome w line] }) ∧
    (∀ status, s.lockIdents v.proc line = [] → v.lkPending.find? (fun x => x.1 == line) = some (line, seq, d) → v.wait = none →
      exec (.lockGrantArrival w line status) s = .next ((s.modWave w (fun v =>
        { v with heldLocks := (if v.heldLocks.contains line then v.heldLocks else v.heldLocks ++ [line]), lockReqs := v.lockReqs - 1
                 lkPending := v.lkPending.filter (fun x => x.1 != line), boost := v.boost || !(s.isResident v) })).modWave w (fun v => v.modRes seq (fun x =>
          { x with ready := true, writes := x.writes ++ [{ loc := .s d, val := BitVec.ofNat 64 status }] })))) ∧
    (∀ key bytes l, Spec.waitsForNothing s v → s.lockOf key = some l → l.holder ≠ some w → exec (.nonholderWriteAtHome w key bytes) s =
      .next { s with locks := Tab.mod s.locks (key / 128) (fun l => { l with writes := l.writes ++ [{ wave := w, key := key, bytes := bytes }] }) }) ∧
    (∀ key b l, Spec.waitsForNothing s v → s.lockOf key = some l → l.holder = some w → exec (.nonholderWriteAtHome w key [b]) s =
      .next { s with locks := Tab.mod s.locks (key / 128) (fun l => { l with copy := Tab.set l.copy key b }) }) ∧
    (∀ key b, Spec.waitsForNothing s v → (∀ e ∈ (s.core (s.coreOf v)).l1, e.1 / 128 ≠ key / 128) → s.lockOf key = none → Spec.plainAt s key → tracked key = true → Memory.wf s.mem = true →
      ∃ t, exec (.nonholderWriteAtHome w key [b]) s = .next t ∧ t.rd8 key = b ∧ ∀ k, k ≠ key → t.rd8 k = s.rd8 k) ∧
    (∀ l q x, Tab.get? s.locks line = some l → l.queue.find? (fun q => q.wave == w) = some q → v.wait = some (.lock line seq d) → q.deadline = some x → x ≤ s.tickOf (lineDie line) →
      exec (.lockTimeout w line) s = .next ((State.lockStatus { s with locks := Tab.set s.locks line { l with queue := l.queue.filter (fun q => q.wave != w) } } w line seq d 2).wake w seq [])) ∧
    (∀ l q x, Tab.get? s.locks line = some l → l.queue.find? (fun q => q.wave == w) = some q → v.wait = some (.lock line seq d) → q.deadline = some x → s.tickOf (lineDie line) < x →
      exec (.lockTimeout w line) s = .next s)

/-! ## The Muhan unit -/

namespace Sys2Proof.Spec
/-- Status OK with a slot or key above it. -/
def okWord (n : Nat) : Nat := n * 256
/-- A field of a number. -/
def fld (n lo w : Nat) : Nat := n / 2 ^ lo % 2 ^ w
/-- A descriptor that R428 accepts. -/
def okDescriptor (n : Nat) : Prop :=
  fld n 0 2 = 0 ∧ (fld n 48 8 = 16 ∨ fld n 48 8 = 32 ∨ fld n 48 8 = 64) ∧ fld n 56 8 % 8 = 0 ∧ 0 < fld n 56 8 ∧ fld n 56 8 ≤ 192 ∧ fld n 208 16 ≤ 4096 ∧
  fld n 112 16 = 0 ∧ fld n 152 8 = 0 ∧ fld n 288 224 = 0
/-- The slot number of a register (R16). -/
def slotOf (v : Wave) (f : GR) : Nat := (v.sreg f.a.toNat).toNat % 4096
/-- The state in which a process has a new object of a kind, with a handle and rights in a slot (R290, R296). -/
def made (s : State) (p d kind id slot : Nat) (rights : BitVec 8) : State :=
  (s.makeObj id kind p).putSlot p slot (mkHandle (s.nodeId d) id kind (s.obj id).gen) rights
end Sys2Proof.Spec

/-- R295, R297, R426, R428, R454: wv.new with an accepted descriptor, no named crew and no window table makes a wave of its own crew: its width, registers, entry, argument and name fields are the descriptor's, every fibre stands at the entry; the result is OK with the
slot of its handle. A descriptor that is refused gives BADDESC, a full handle table FULL, and nothing is made. wv.exit and wv.yield act when the run has ended; wv.join answers at once for a dead wave and blocks otherwise; wv.prio sets the priority under the tenant's cap. -/
def Obligations.WaveInstructions : Prop :=
  ∀ (f : GR) (s : State) (v : Wave) (r : Run),
    (∀ n s1 slot id cid, Issues (.wvNew f) s v r → s.relReady s.turn = true → s.readBlock (s.ctx v r (.wvNew f)) (v.sreg f.a.toNat) 64 64 false = (.ok n, s1) →
      Spec.okDescriptor n → Spec.fld n 128 12 = 0 → Spec.fld n 160 48 = 0 → s1.emptySlot v.proc = some slot → s1.quota (s1.dieOf v) v.proc true = false →
      s1.freeEntry (s1.dieOf v) = some id → (Spec.made s1 v.proc (s1.dieOf v) 2 id slot 0xF3).freeEntry (s1.dieOf v) = some cid →
      (s1.wave? id) = none →
      ∃ s' x, exec (.wvNew f) s = Spec.done (.wvNew f) s v r { s := s', writes := [{ loc := .s f.d.toNat, val := BitVec.ofNat 64 (slot * 256) }], waitAck := true } ∧
        s'.wave? id = some x ∧ x.proc = v.proc ∧ x.crew = cid ∧ x.width = Spec.fld n 48 8 ∧ x.nvregs = Spec.fld n 56 8 ∧ x.priv = Spec.fld n 208 16 * 16 ∧
        x.suspended = n.testBit 143 ∧ x.sregs = [(0, BitVec.ofNat 64 (Spec.fld n 64 48))] ∧ x.launch = BitVec.ofNat 32 (Spec.fld n 224 32) ∧ x.block = BitVec.ofNat 32 (Spec.fld n 256 32) ∧
        x.fibres = (List.range (Spec.fld n 48 8)).map (fun l => (l, { pc := BitVec.ofNat 48 (Spec.fld n 0 48), thread := BitVec.ofNat 16 l })) ∧ x.dead = false) ∧
    (Issues (.wvNew f) s v r → s.relReady s.turn = false → exec (.wvNew f) s = .next s) ∧
    (∀ n s1, Issues (.wvNew f) s v r → s.relReady s.turn = true → s.readBlock (s.ctx v r (.wvNew f)) (v.sreg f.a.toNat) 64 64 false = (.ok n, s1) → ¬ Spec.okDescriptor n →
      exec (.wvNew f) s = Spec.statusDone (.wvNew f) f.d.toNat 0x25 s1 s v r) ∧
    (∀ n s1, Issues (.wvNew f) s v r → s.relReady s.turn = true → s.readBlock (s.ctx v r (.wvNew f)) (v.sreg f.a.toNat) 64 64 false = (.ok n, s1) → Spec.okDescriptor n →
      Spec.fld n 128 12 = 0 → Spec.fld n 160 48 = 0 → s1.emptySlot v.proc = none → exec (.wvNew f) s = Spec.statusDone (.wvNew f) f.d.toNat 4 s1 s v r) ∧
    (Issues (.wvExit f) s v r → exec (.wvExit f) s = Spec.done (.wvExit f) s v r { s := s.endRelease s.turn, onEnd := .waveExit }) ∧
    (Issues (.wvYield f) s v r → exec (.wvYield f) s = Spec.done (.wvYield f) s v r { s := s, onEnd := .yield }) ∧
    (∀ h x, Issues (.wvJoin f) s v r → s.checkSlot v.proc (Spec.slotOf v f) [2] 1 = .ok h → s.wave? (hId h) = some x →
      (x.dead = true → exec (.wvJoin f) s = Spec.statusDone (.wvJoin f) f.d.toNat 0 (s.acqObj v 3 { kind := 6, ident := Spec.slotOf v f }) s v r) ∧
      (x.dead = false → exec (.wvJoin f) s = Spec.done (.wvJoin f) s v r
        { s := s.modWave s.turn (fun y => { y with wait := some (.join (hId h) (Spec.slotOf v f) v.issues f.d.toNat), blockedAt := s.cycles }), ready := false })) ∧
    (∀ e, Issues (.wvJoin f) s v r → s.checkSlot v.proc (Spec.slotOf v f) [2] 1 = .error e → exec (.wvJoin f) s = Spec.statusDone (.wvJoin f) f.d.toNat e s s v r) ∧
    (s.wave? s.turn = some v → Issues (.wvPrio f) s v r → Spec.slotOf v f = 0 →
      let p := Spec.uB f (s.ctx v r (.wvPrio f)) % 8
      let q := match s.limit (s.dieOf v) (s.tenantOf v.proc) with | some (cap, _, _) => min p cap | none => p
      exec (.wvPrio f) s = Spec.statusDone (.wvPrio f) f.d.toNat (q * 256) (s.modWave s.turn (fun x => { x with prio := q })) s v r)

/-- R290, R301, R302, R426, R453: h.dup puts the handle with the rights that the slot and b share into the lowest empty slot; h.close empties its slot and drops the object's reference, with status 0, or 0x20 where the handle was stale; h.info reports kind, state, rights and the detail of the kind. -/
def Sys2Proof.Spec.HandleInstructions : Prop :=
  ∀ (f : GR) (s : State) (v : Wave) (r : Run) (h : Handle), s.slot? v.proc (Spec.slotOf v f) = some h → Spec.slotOf v f ≠ 0 →
    (∀ k, Issues (.hDup f) s v r → s.checkSlot v.proc (Spec.slotOf v f) (List.range 32) 6 true = .ok h.handle → s.emptySlot v.proc = some k →
      exec (.hDup f) s = Spec.statusDone (.hDup f) f.d.toNat (k * 256)
        (s.putSlot v.proc k h.handle (h.rights &&& BitVec.ofNat 8 (Spec.uB f (s.ctx v r (.hDup f))))) s v r) ∧
    (Issues (.hDup f) s v r → s.checkSlot v.proc (Spec.slotOf v f) (List.range 32) 6 true = .ok h.handle → s.emptySlot v.proc = none →
      exec (.hDup f) s = Spec.statusDone (.hDup f) f.d.toNat 4 s s v r) ∧
    (Issues (.hClose f) s v r → s.foreign h.handle = false → s.stale h.handle = false → (∀ e ∈ s.waves, e.2.wait = none) → 2 ≤ (s.obj (hId h.handle)).refs →
      exec (.hClose f) s = Spec.statusDone (.hClose f) f.d.toNat 0
        ((s.modProc v.proc (fun x => { x with handles := Tab.del x.handles (Spec.slotOf v f) })).modObj (hId h.handle) (fun o => { o with refs := o.refs - 1 })) s v r) ∧
    (Issues (.hClose f) s v r → s.foreign h.handle = false → s.stale h.handle = true → (∀ e ∈ s.waves, e.2.wait = none) →
      exec (.hClose f) s = Spec.statusDone (.hClose f) f.d.toNat 0x20 (s.modProc v.proc (fun x => { x with handles := Tab.del x.handles (Spec.slotOf v f) })) s v r) ∧
    (Issues (.hInfo f) s v r → s.checkSlot v.proc (Spec.slotOf v f) (List.range 32) 0 true = .ok h.handle → s.foreign h.handle = false →
      let id := hId h.handle
      let o := s.obj id
      exec (.hInfo f) s = Spec.statusDone (.hInfo f) f.d.toNat (o.kind % 32 * 2 ^ 8 + s.objState id * 2 ^ 13 + h.rights.toNat * 2 ^ 17 + s.infoDetail id) s s v r ∧
      (∀ x, o.kind = 2 → s.wave? id = some x →
        s.objState id = (if x.dead then 4 else if x.suspended ∨ x.stopped then 3 else if x.wait.isSome then 2 else if s.isResident x then 1 else 0) ∧
        s.infoDetail id = x.prio % 8 * 2 ^ 32 + (match x.wait with
            | some y => if s.objState id = 2 then (match y with | .port .. => 1 | .waitSet .. => 2 | .future .. => 3 | .lock .. => 4 | .join .. => 5 | .service .. => 6) else 0
            | none => 0) * 2 ^ 35 + s.coreOf x % 2 ^ 11 * 2 ^ 39) ∧
      (∀ x, o.kind = 4 → Tab.get? s.ports id = some x → s.infoDetail id = x.queue.length % 2 ^ 11 * 2 ^ 32) ∧
      (∀ x, o.kind = 6 → Tab.get? s.timers id = some x → s.infoDetail id = (if x.armed then 2 ^ 32 else 0) + x.count % 2 ^ 16 * 2 ^ 33) ∧
      (∀ x, o.kind = 5 → Tab.get? s.wsets id = some x →
        s.infoDetail id = x.members.length % 128 * 2 ^ 32 + (x.members.countP (fun m => s.memberReady m.2)) % 128 * 2 ^ 39))

namespace Sys2Proof.Spec
/-- R304: the key that a selection takes: ready, and no ready key comes before it from the pointer on, modulo 64. -/
def selects (s : State) (x : WaitSet) (k : Nat) : Prop :=
  let ready := fun j => ∃ m, Tab.get? x.members j = some m ∧ s.memberReady m = true
  k < 64 ∧ ready k ∧ ∀ i < 64, (x.ptr + i) % 64 = k → (∀ j < i, ¬ ready ((x.ptr + j) % 64)) ∨ ∃ j < i, (x.ptr + j) % 64 = k
end Sys2Proof.Spec

/-- R303, R304, R305, R306, R454: ws.new and tm.new make an object with a handle in the lowest empty slot; ws.add adds a member under the lowest free key, or answers the key that the member has; ws.del takes one out; ws.poll and ws.wait select a ready member and answer its key, a wait with none
ready blocks with its deadline, a poll answers EMPTY; tm.arm sets deadline and period, tm.stop disarms and clears the count. The deadline of a waiter gives TIMEOUT; a timer that expires counts one and is armed again where it has a period. -/
def Sys2Proof.Spec.WaitSetsAndTimers : Prop :=
  ∀ (f : GR) (s : State) (v : Wave) (r : Run) (h : W64) (x : WaitSet),
    (∀ q ∈ [((fun f => Instr.wsNew f : GR → Instr), 5, (fun (s : State) id => ({ s with wsets := Tab.set s.wsets id {} } : State))),
            ((fun f => Instr.tmNew f : GR → Instr), 6, (fun (s : State) id => ({ s with timers := Tab.set s.timers id {} } : State)))],
      ∀ slot id, Issues (q.1 f) s v r →
      (s.emptySlot v.proc = some slot → s.quota (s.dieOf v) v.proc false = false → s.freeEntry (s.dieOf v) = some id →
        exec (q.1 f) s = Spec.statusDone (q.1 f) f.d.toNat (slot * 256) (q.2.2 (Spec.made s v.proc (s.dieOf v) q.2.1 id slot 0xF3) id) s v r) ∧
      (s.emptySlot v.proc = none → exec (q.1 f) s = Spec.statusDone (q.1 f) f.d.toNat 4 s s v r) ∧
      (s.emptySlot v.proc = some slot → s.quota (s.dieOf v) v.proc false = true → exec (q.1 f) s = Spec.statusDone (q.1 f) f.d.toNat 0x24 s s v r)) ∧
    (∀ q ∈ [((fun f => Instr.wsAdd f : GR → Instr), [5], 5), ((fun f => Instr.wsDel f), [5], 5), ((fun f => Instr.wsWait f), [5], 1), ((fun f => Instr.wsPoll f), [5], 1), ((fun f => Instr.tmArm f), [6], 4), ((fun f => Instr.tmStop f), [6], 4)],
      ∀ e, Issues (q.1 f) s v r → s.checkSlot v.proc (Spec.slotOf v f) q.2.1 q.2.2 = .error e → exec (q.1 f) s = Spec.statusDone (q.1 f) f.d.toNat e s s v r) ∧
    (∀ m s1 k, Issues (.wsAdd f) s v r → s.checkSlot v.proc (Spec.slotOf v f) [5] 5 = .ok h → wsMember (s.ctx v r (.wsAdd f)) (readB (s.ctx v r (.wsAdd f)) f) s = (.ok m, s1) → Tab.get? s.wsets (hId h) = some x →
      ((∀ e ∈ x.members, e.2 ≠ m) → k < 64 → Tab.get? x.members k = none → (∀ j < k, Tab.get? x.members j ≠ none) → s1.memberReady m = false →
        exec (.wsAdd f) s = Spec.statusDone (.wsAdd f) f.d.toNat (k * 256)
          (let s2 : State := { s1 with wsets := Tab.set s1.wsets (hId h) { x with members := Tab.set x.members k m } }
           match m with | .obj o _ => s2.modObj o (fun y => { y with refs := y.refs + 1 }) | .fut _ => s2) s v r) ∧
      ((∀ j < 64, Tab.get? x.members j ≠ none) → (∀ e ∈ x.members, e.2 ≠ m) → exec (.wsAdd f) s = Spec.statusDone (.wsAdd f) f.d.toNat 4 s1 s v r) ∧
      (x.members.find? (fun e => e.2 == m) = some (k, m) → exec (.wsAdd f) s = Spec.statusDone (.wsAdd f) f.d.toNat (k * 256) s1 s v r)) ∧
    (∀ key, Issues (.wsDel f) s v r → s.checkSlot v.proc (Spec.slotOf v f) [5] 5 = .ok h → Tab.get? s.wsets (hId h) = some x →
      let k := Spec.uB f (s.ctx v r (.wsDel f)) % 64
      (Tab.get? x.members k = some (.fut key) →
        exec (.wsDel f) s = Spec.statusDone (.wsDel f) f.d.toNat 0 { s with wsets := Tab.set s.wsets (hId h) { x with members := Tab.del x.members k } } s v r) ∧
      (Tab.get? x.members k = none → exec (.wsDel f) s = Spec.statusDone (.wsDel f) f.d.toNat 3 s s v r)) ∧
    (∀ q ∈ [((fun f => Instr.wsWait f : GR → Instr)), (fun f => Instr.wsPoll f)], ∀ k, Issues (q f) s v r → s.checkSlot v.proc (Spec.slotOf v f) [5] 1 = .ok h → Tab.get? s.wsets (hId h) = some x →
      Spec.selects s x k → (∀ t, Tab.get? x.members k ≠ some (.obj t 6)) →
      exec (q f) s = Spec.statusDone (q f) f.d.toNat (k * 256) { s with wsets := Tab.set s.wsets (hId h) { x with ptr := (k + 1) % 64 } } s v r) ∧
    (Issues (.wsPoll f) s v r → s.checkSlot v.proc (Spec.slotOf v f) [5] 1 = .ok h → Tab.get? s.wsets (hId h) = some x → (∀ k, ¬ Spec.selects s x k) →
      exec (.wsPoll f) s = Spec.statusDone (.wsPoll f) f.d.toNat 3 s s v r) ∧
    (Issues (.wsWait f) s v r → s.checkSlot v.proc (Spec.slotOf v f) [5] 1 = .ok h → Tab.get? s.wsets (hId h) = some x → x.members ≠ [] → (∀ k, ¬ Spec.selects s x k) →
      let t := Spec.uB f (s.ctx v r (.wsWait f))
      exec (.wsWait f) s = Spec.done (.wsWait f) s v r
        { s := ({ s with wsets := Tab.set s.wsets (hId h) { x with waiters := x.waiters ++ [s.turn] } } : State).modWave s.turn (fun y =>
            { y with wait := some (.waitSet (hId h) (Spec.slotOf v f) v.issues f.d.toNat (if t = 0 then none else some (s.tickOf (objDie (hId h)) + (t + 7) / 8))), blockedAt := s.cycles })
          ready := false }) ∧
    (Issues (.tmArm f) s v r → s.checkSlot v.proc (Spec.slotOf v f) [6] 4 = .ok h →
      exec (.tmArm f) s = Spec.statusDone (.tmArm f) f.d.toNat 0
        { s with timers := Tab.set s.timers (hId h) { armed := true, deadline := s.tickOf (objDie (hId h)) + (v.sreg (f.b.toNat % 64)).toNat, period := (v.sreg (f.b.toNat % 64 + 1)).toNat } } s v r) ∧
    (∀ y, Issues (.tmStop f) s v r → s.checkSlot v.proc (Spec.slotOf v f) [6] 4 = .ok h → Tab.get? s.timers (hId h) = some y →
      exec (.tmStop f) s = Spec.statusDone (.tmStop f) f.d.toNat 0 { s with timers := Tab.set s.timers (hId h) { y with armed := false, count := 0 } } s v r) ∧
    (∀ w y id slot seq d t, s.wave? w = some y → y.wait = some (.waitSet id slot seq d (some t)) →
      (t ≤ s.tickOf (objDie id) → exec (.wsWaitTimeout w) s = .next { s.wake w seq [{ loc := .s d, val := 2#64 }] with wsets := Tab.mod s.wsets id (fun z => { z with waiters := z.waiters.filter (· != w) }) }) ∧
      (s.tickOf (objDie id) < t → exec (.wsWaitTimeout w) s = .next s)) ∧
    (∀ id y, Tab.get? s.timers id = some y →
      (y.armed = true → y.deadline ≤ s.tickOf (objDie id) → ∃ t, exec (.timerExpiry id) s = .next t ∧ t.mem = s.mem ∧
        ((∀ e ∈ s.wsets, ∀ m ∈ e.2.members, m.2 ≠ Member.obj id 6) →
          t = { s with timers := Tab.set s.timers id { y with count := min 65535 (y.count + 1), deadline := y.deadline + y.period, armed := decide (y.period ≠ 0) } })) ∧
      (y.armed = false ∨ s.tickOf (objDie id) < y.deadline → exec (.timerExpiry id) s = .next s))

/-- R307, R456, R468: a system call whose block is accepted, to a service port with room, sends its 64 bytes to that port and blocks; set bits that must be zero give BADDESC, a pointer at or above the end of the global space BADSPACE, no port STALE, a full one FULL. The reply gives status 0 and a value, and wakes the wave. -/
def Sys2Proof.Spec.SystemCalls : Prop :=
  ∀ (f : GR) (s : State) (v : Wave) (r : Run) (n : Nat) (s0 s1 : State) (zl : List Nat), Issues (.sysCall f) s v r →
    s.readBlock (s.ctx v r (.sysCall f)) (v.sreg f.a.toNat) 64 64 true = (.ok n, s0) → s0.releaseWaits s.turn 4 = (zl, s1) →
    let fails := fun e (st : State) => Spec.done (.sysCall f) s v r { s := st, writes := [{ loc := .s f.d.toNat, val := BitVec.ofNat 64 e }], waitAck := true, waitZlr := zl }
    let badPtr := ∃ i < 6, n.testBit (32 + i) = true ∧ 0xFC0000000000 ≤ Spec.fld n (64 + 64 * i) 64
    ((Spec.fld n 38 26 ≠ 0 ∨ Spec.fld n 448 64 ≠ 0) → exec (.sysCall f) s = fails 0x25 s1) ∧
    (Spec.fld n 38 26 = 0 → Spec.fld n 448 64 = 0 → badPtr → exec (.sysCall f) s = fails 0x22 s1) ∧
    (Spec.fld n 38 26 = 0 → Spec.fld n 448 64 = 0 → ¬ badPtr → s1.servicePort v.proc = none → exec (.sysCall f) s = fails 0x20 s1) ∧
    (∀ port s2 po, Spec.fld n 38 26 = 0 → Spec.fld n 448 64 = 0 → ¬ badPtr → s1.servicePort v.proc = some (port, s2) → Tab.get? s2.ports port = some po →
      (po.depth ≤ po.queue.length + po.reserved → exec (.sysCall f) s = fails 4 s1) ∧
      (po.queue.length + po.reserved < po.depth → ∃ msg, exec (.sysCall f) s = Spec.done (.sysCall f) s v r
        { s := ((s2.modPort port (fun x => { x with reserved := x.reserved + 1 })).send [.portMessageEnqueue port (s2.obj port).gen msg none]).modWave s.turn (fun y =>
            { y with wait := some (.service port v.issues f.d.toNat), blockedAt := s2.cycles })
          ready := false, waitAck := true, waitZlr := zl } ∧ msg.inl = bytesOf n 64 ∧ msg.proc = v.proc ∧ msg.wave = s.turn)) ∧
    (∀ w y port seq d value, s.wave? w = some y → y.wait = some (.service port seq d) →
      exec (.systemCallReply w value) s = .next (s.wake w seq [{ loc := .s d, val := 0#64 }, { loc := .s (d + 1), val := value }]))

/-! ## What the hardware does for a wave by itself -/

/-- R24, R25: the next batch: every ready lane whose PC is the chosen one; the chosen PC is the lowest above the start of the last run, or, with none above it, the lowest. -/
def Sys2Proof.Spec.NextBatch : Prop :=
  ∀ (v : Wave), v.width ≤ 64 →
    let ready := fun l => l < v.width ∧ v.readyLanes.getLsbD l = true
    let pc := fun l => (v.pcOf l).toNat
    ((∀ l, ¬ ready l) → v.nextBatch = none) ∧
    (∀ m p, v.nextBatch = some (m, p) →
      (∃ l, ready l ∧ v.pcOf l = p) ∧ (∀ l < 64, m.getLsbD l = true ↔ ready l ∧ v.pcOf l = p) ∧
      (v.lastStart.toNat < p.toNat → ∀ l, ready l → v.lastStart.toNat < pc l → p.toNat ≤ pc l) ∧
      (p.toNat ≤ v.lastStart.toNat → ∀ l, ready l → p.toNat ≤ pc l ∧ pc l ≤ v.lastStart.toNat)) ∧
    ((∃ l, ready l) → v.nextBatch ≠ none)

/-- R24, R29, R31, R167, R215, R365, R368, R370, R450, R489: run starts, returning results, refusals, acknowledgements, zero-length reads, and debug entries from comparators and remote watchpoints. -/
def Sys2Proof.Spec.WaveEvents : Prop :=
  ∀ (s : State) (w : Nat) (v : Wave), s.wave? w = some v →
    (∀ m pc, v.dead = false → v.stepState ≠ 2 → v.run = none → v.resume = none → v.refusals = [] → s.mayStart v = true → v.nextBatch = some (m, pc) →
      exec (.runStart w) s = .next (s.setWave w { v with run := some { mask := m, start := pc, pc := pc, first := v.issues } })) ∧
    (∀ r, v.dead = false → v.stepState ≠ 2 → v.run = none → v.resume = some r → s.mayStart v = true →
      exec (.runStart w) s = .next (s.setWave w { v with run := some r, resume := none })) ∧
    (v.dead = true → exec (.runStart w) s = .next s) ∧
    (∀ r n x, v.run = some r → r.ended = false → r.pending = [x] → x.seq = n → x.left = none → x.ready = true → v.frozen = none → v.resume = none → v.dbg = none →
      exec (.varResultReturn w n) s = .next (s.setWave w { v with run := some { r with pending := [{ x with back := true }] } })) ∧
    (∀ r n, v.run = some r → v.frozen = none → v.resume = none → v.dbg = none → exec (.writeRefusalArrival w r.first n) s =
      .next (s.setWave w { v with run := some { r with late := r.late ++ [{ seq := n.order, trap := { cause := n.cause, sub := n.sub, tval := n.tval, lanes := n.lanes }, pc := n.pc, word := n.word, x1 := n.x1, x2 := n.x2 }] } })) ∧
    (∀ k n, v.run = none → v.frozen = none → v.resume = none → v.dbg = none → exec (.writeRefusalArrival w k n) s =
      .next (s.setWave w { v with refusals := v.refusals ++ [{ seq := n.order, trap := { cause := n.cause, sub := n.sub, tval := n.tval, lanes := n.lanes }, pc := n.pc, word := n.word, x1 := n.x1, x2 := n.x2 }] })) ∧
    (∀ id a, Tab.get? s.acks id = some a → a.wave = w → exec (.ackArrival id) s =
      .next { s with acks := Tab.del s.acks id, waves := Tab.set s.waves w { v with ackcnt := v.ackcnt - 1 } }) ∧
    (∀ id a, Tab.get? s.acks id = some a → a.resent = false → a.atomic = false → exec (.ackTimeout id) s =
      .next { s with acks := Tab.set s.acks id { a with resent := true }, inflight := s.inflight ++ [.ackArrival id] }) ∧
    (∀ id a p, Tab.get? s.acks id = some a → a.wave = w → (a.resent = true ∨ a.atomic = true) → s.proc? v.proc = some p →
      ∃ t p', exec (.ackTimeout id) s = .next t ∧ Tab.get? t.acks id = none ∧ t.proc? v.proc = some p' ∧ p'.contained = true ∧
        (∀ x y, s.wave? x = some y → y.proc = v.proc → ∃ y', t.wave? x = some y' ∧ y'.suspended = true)) ∧
    (∀ port, s.acked w = false → exec (.zeroLengthReadCompletion w port) s = .next { s with inflight := s.inflight ++ [.zeroLengthReadCompletion w port] }) ∧
    (∀ r port, s.acked w = true → v.run = some r → v.frozen = none → v.resume = none → v.dbg = none →
      exec (.zeroLengthReadCompletion w port) s = .next (s.setWave w { v with run := some { r with waitZlr := r.waitZlr.erase port } })) ∧
    (∀ r i l, v.run = some r → s.bpcHits v r = i :: l →
      (otherInDebug s w (s.coreOf v) = true → exec (.debugEntryBpc w) s = .next ((s.suppress (s.coreOf v)).modWave w (fun x => { x with skipBpc := true }))) ∧
      (otherInDebug s w (s.coreOf v) = false → ∃ rep cl, exec (.debugEntryBpc w) s =
        .next (s.enterDebug w v (r.mask &&& v.live) r.pc (if r.issued = 0 then none else some r) false rep cl) ∧ rep.cause = 1 ∧ rep.index = i ∧
        ∀ j, rep.matched.testBit j = true → j ∈ i :: l)) ∧
    (∀ index src lane addr kind, v.dead = false → v.entrant = none →
      exec (.watchRemoteEntry w index src lane addr kind) s = .next { s with inflight := s.inflight ++ [.watchRemoteEntry w index src lane addr kind] }) ∧
    (∀ index src lane addr kind m pc fr hd, v.dead = false → v.entrant = some (m, pc, fr, hd) → s.dbgEn (s.coreOf v) = true → v.dbg = none → otherInDebug s w (s.coreOf v) = false →
      ∃ rep cl, exec (.watchRemoteEntry w index src lane addr kind) s = .next (s.enterDebug w v m pc fr hd rep cl) ∧
        rep.cause = 3 ∧ rep.index = index ∧ rep.remote = true ∧ rep.addr = addr ∧ rep.kind = kind)

/-- R158, R165, R183, R184, R195, R474: a re-read of ld.poll; an early write-back, which writes a line's dirty bytes to memory; a write through the cluster window; no-return reductions, performed one after another; a completed page walk, which installs the leaf with A set, or reports the error. -/
def Sys2Proof.Spec.MemoryEvents : Prop :=
  ∀ (s : State),
    (∀ w v n p t s1 x s2, s.wave? w = some v → v.polls[n]? = some p → s.resolve v p.lane { kind := 0, size := p.size, align := p.size } false p.addr = (.ok t, s1) →
      s1.pollRead (pollCtx w v p) p.lane p.addr p.size p.scope t = (.ok x, s2) →
      (x ≠ p.old → exec (.ldPollReread w n) s = .next (s2.pollDone w n p x)) ∧
      (x = p.old → p.reads < 15 → (∀ k, s2.crew? v.crew = some k → k.preempt = none) → exec (.ldPollReread w n) s =
        .next ((s2.modWave w (fun v => { v with polls := v.polls.eraseIdx n ++ [{ p with reads := p.reads + 1, last := x }] })).send [.ldPollReread w n])) ∧
      (p.reads = 15 → exec (.ldPollReread w n) s = .next (s2.pollDone w n p x))) ∧
    (∀ c line ev, Memory.wf s.mem = true → (Tab.keys (s.core c).l1).Nodup → (∀ e ∈ (s.core c).l1, e.1 / 128 = line → tracked e.1 = true ∧ keyDie e.1 = c / 256 ∧ Spec.plainAt s e.1) →
      ∃ t, exec (.l1EarlyWriteback c line ev) s = .next t ∧ (∀ k, t.rd8 k = match Tab.get? (s.core c).l1 k with
          | some b => if b.dirty = true ∧ k / 128 = line then b.val else s.rd8 k
          | none => s.rd8 k) ∧
        (ev = true → ∀ k, k / 128 = line → Spec.l1 t c k = none) ∧ ∀ k, k / 128 ≠ line → Spec.l1 t c k = Spec.l1 s c k) ∧
    (∀ src core x bytes v k c, s.wave? src = some v → s.crewAt core v.proc x = some (k, c) → s.crew? k = some c → c.regions = [] → c.spoison = [] → 0 < bytes.length → bytes.length ≤ 16 → c.base * 4096 ≤ x →
      x - c.base * 4096 + bytes.length ≤ c.grans * 4096 - 128 → (∀ e ∈ s.waves, e.2.held = []) →
      ∃ c', exec (.clusterWindowAccess src core x bytes) s = .next (s.setCrew k c') ∧ c'.read (x - c.base * 4096) bytes.length = ofBytes bytes ∧
        ∀ o, (o < x - c.base * 4096 ∨ x - c.base * 4096 + bytes.length ≤ o) → c'.read o 1 = c.read o 1) ∧
    (∀ key n op vals, (8 ≤ op ∨ (n ≠ 4 ∧ n ≠ 8) ∨ key % n ≠ 0) → exec (.routerAtomicArrival key n op vals) s = .next s) ∧
    (∀ key n op vals, n ∈ [4, 8] → op < 8 → key % n = 0 → Memory.wf s.mem = true → (∀ i < n, tracked (key + i) = true ∧ Spec.plainAt s (key + i)) →
      ∃ t, exec (.routerAtomicArrival key n op vals) s = .next t ∧ t.rdN key n = vals.foldl (fun m b => atomNew op n m b 0 % 2 ^ (8 * n)) (s.rdN key n) ∧
        ∀ k, (k < key ∨ key + n ≤ k) → t.rd8 k = s.rd8 k) ∧
    (∀ core proc addr p e key, s.proc? proc = some p → Spec.untranslated s core p.asn.toNat addr → s.walkPoison p.ptroot.toNat addr = none → s.walk p.ptroot.toNat addr = .leaf e key 12 →
      e.getLsbD 11 = false → ∃ t, exec (.pageWalkComplete core proc addr) s = .next t ∧
        tlbHit (t.core core).tlb p.asn.toNat addr = some { asn := p.asn.toNat, base := addr / 4096 * 4096, size := 4096, leaf := e ||| 0x10#64 } ∧
        (e.getLsbD 4 = true → t.mem = s.mem) ∧ (e.getLsbD 4 = false → Memory.wf s.mem = true → (∀ i < 8, tracked (key + i) = true ∧ Spec.plainAt s (key + i)) → t.rdN key 8 = (e ||| 0x10#64).toNat ∧ ∀ k, (k < key ∨ key + 8 ≤ k) → t.rd8 k = s.rd8 k)) ∧
    (∀ core proc addr p key, s.proc? proc = some p → Spec.untranslated s core p.asn.toNat addr → s.walkPoison p.ptroot.toNat addr = some key →
      ∃ s1 : State, exec (.pageWalkComplete core proc addr) s = .next (s1.hbmue (core / 256) proc key) ∧ s1.mem = s.mem ∧ s1.waves = s.waves) ∧
    (∀ core proc addr p n, s.proc? proc = some p → Spec.untranslated s core p.asn.toNat addr → s.walkPoison p.ptroot.toNat addr = none → s.walk p.ptroot.toNat addr = .bad n →
      ∃ t, exec (.pageWalkComplete core proc addr) s = .next t ∧ t.mem = s.mem ∧ t.waves = s.waves ∧ t.cores = s.cores)

namespace Sys2Proof.Spec
/-- The 16 bytes of a future: value and flags FULL and WAITERS (R172). -/
def futWord (v full waits : Nat) : Nat := v + 2 ^ 64 * (full + 2 * waits)
/-- The bytes of a future are plain memory of this package. -/
def futPlain (s : State) (key : Nat) : Prop := Memory.wf s.mem = true ∧ key % 16 = 0 ∧ ∀ i < 16, tracked (key + i) = true ∧ plainAt s (key + i)
end Sys2Proof.Spec

/-- R172, R173, R174, R458: one operation on a future at its home. fut.init makes the granule an empty future, or raises FUTINIT 0 where readers wait; fut.rd of a full one returns the value, of an empty one it blocks in the deferred list; fut.wr of an empty one stores the value, answers 0 and wakes the readers with it, of a full one it
answers FULL, and waits until its release can take effect; an operation on a granule that is no future raises FUTINIT 1. -/
def Sys2Proof.Spec.Futures : Prop :=
  ∀ (s : State) (w seq d key scope addr : Nat) (pc : BitVec 48) (word x1 x2 : W32) (v : Wave), s.wave? w = some v →
    let s0 := s.dropFuture w key
    let go := fun op => exec (.futureOpAtHome w seq d op key scope addr pc word x1 x2) s
    (Spec.futPlain s0 key → (Tab.get? s.futures key = none ∨ Tab.get? s.futures key = some []) →
      ∃ t, go .init = .next t ∧ Tab.get? t.futures key = some [] ∧ t.rdN key 16 = 0 ∧ ∀ k, (k < key ∨ key + 16 ≤ k) → t.rd8 k = s0.rd8 k) ∧
    (∀ a l, Tab.get? s.futures key = some (a :: l) → go .init = .next (s0.futFault w seq 0 addr pc word x1 x2)) ∧
    (∀ op, Tab.get? s.futures key = none → op ≠ .init → go op = .next (s0.futFault w seq 1 addr pc word x1 x2)) ∧
    (∀ l, Tab.get? s.futures key = some l → Spec.futPlain s0 key → s0.futFull key = false →
      ∃ t v', go .rd = .next t ∧ Tab.get? t.futures key = some (l ++ [w]) ∧ t.rdN key 16 = Spec.futWord 0 0 1 ∧ t.wave? w = some v' ∧ v'.wait = some (.future key seq d scope addr)) ∧
    (∀ l, Tab.get? s.futures key = some l → Spec.futPlain s0 key → s0.futFull key = true → scope < 2 →
      go .rd = .next (s0.modWave w (fun v => v.modRes seq (fun r => { r with ready := true, writes := r.writes ++ [{ loc := .s d, val := BitVec.ofNat 64 (s0.rdN key 8) }] })))) ∧
    (∀ x l, Tab.get? s.futures key = some l → s0.futReleased w seq scope = false →
      go (.wr x) = .next { s0 with inflight := s0.inflight ++ [.futureOpAtHome w seq d (.wr x) key scope addr pc word x1 x2] }) ∧
    (s0.futReleased w seq scope = true ↔ s0.tagged w (2 ^ 65 + seq) = false ∧ (3 ≤ scope → s0.acked w = true) ∧
      (4 ≤ scope → ∀ m ∈ s0.inflight, ∀ n, m ≠ .zeroLengthReadCompletion w n)) ∧
    (∀ x, Tab.get? s.futures key = some [] → Spec.futPlain s0 key → s0.futFull key = false → s0.futReleased w seq scope = true → (∀ e ∈ s.wsets, ∀ m ∈ e.2.members, m.2 ≠ Member.fut key) →
      ∃ t, go (.wr x) = .next t ∧ t.rdN key 16 = Spec.futWord x.toNat 1 0 ∧ Tab.get? t.futures key = some [] ∧ ∀ k, (k < key ∨ key + 16 ≤ k) → t.rd8 k = s0.rd8 k) ∧
    (∀ x l, Tab.get? s.futures key = some l → s0.futFull key = true → s0.futReleased w seq scope = true →
      go (.wr x) = .next (s0.modWave w (fun v => v.modRes seq (fun r => { r with ready := true, writes := r.writes ++ [{ loc := .s d, val := 4#64 }] })))) ∧
    (∀ sub v1 r, (s.futFault w seq sub addr pc word x1 x2).wave? w = some v1 → v.run = some r → (∃ x ∈ r.pending, x.seq = seq ∧ x.left = none) →
        ∃ r' lf, v1.run = some r' ∧ r'.late = r.late ++ [lf] ∧ lf.trap.cause = 0x44 ∧ lf.trap.sub = sub ∧ lf.trap.tval = BitVec.ofNat 64 addr ∧ lf.pc = pc)

/-! ## Ports, grants, names -/

namespace Sys2Proof.Spec
/-- A message descriptor that R428 accepts, for its inline, grant and handle counts and its padding. -/
def okSend (n : Nat) : Prop :=
  fld n 0 9 ≤ 256 ∧ fld n 9 3 ≤ 4 ∧ fld n 12 2 ≠ 3 ∧ fld n 14 2 = 0 ∧ fld n 17 15 = 0 ∧ fld n 56 8 = 0 ∧ fld n 112 16 = 0 ∧ fld n 448 64 = 0 ∧
  ∀ g < fld n 9 3, fld n (234 + 64 * g) 22 = 0
/-- A receive descriptor that R428 accepts. -/
def okRecv (n : Nat) : Prop :=
  fld n 0 6 = 0 ∧ fld n 48 16 = 0 ∧ fld n 112 9 ≤ 256 ∧ fld n 121 7 = 0 ∧ fld n 164 28 = 0 ∧ fld n 208 304 = 0
/-- The leaf of a received page (R320, R321): valid, the sender's permissions, grant state 2, or 3 with the sender's node, its frame. -/
def received (far : Bool) (node : Nat) (l : W64) : Nat :=
  1 + fld l.toNat 1 3 * 2 + (if far then 3 * 2 ^ 6 + 3 * 2 ^ 8 + node % 2 ^ 16 * 2 ^ 48 else 2 * 2 ^ 6) + frameOf l.toNat * 2 ^ 12
end Sys2Proof.Spec

/-- R313, R314, R315, R316, R318, R320, R322, R426, R428: pt.new makes a port of the stated depth; pt.send with an accepted descriptor, acceptable handles and grants and room in a port of this package grants the pages away, carries the handles, and sends the message after its release, at .die scope where the port is of the sender's die; without room it answers FULL, with a refused descriptor
BADDESC; while a write of the wave waits at a locked line it does not issue. pt.recv and pt.try take the head message, or block or answer EMPTY; they wait while the head's release has not reached
another die, or while the writes to host memory would pass the limit of ACKCNT; pg.pull of 1 to 64 aligned pages starts. -/
def Sys2Proof.Spec.PortInstructions : Prop :=
  ∀ (f : GR) (s : State) (v : Wave) (r : Run),
    (∀ slot id, Issues (.ptNew f) s v r →
      let b := Spec.uB f (s.ctx v r (.ptNew f))
      (¬ (0 < b % 2048 ∧ b % 2048 ≤ 1024 ∧ b < 4096) → exec (.ptNew f) s = Spec.statusDone (.ptNew f) f.d.toNat 0x25 s s v r) ∧
      (0 < b % 2048 → b % 2048 ≤ 1024 → b < 4096 → s.emptySlot v.proc = some slot → s.quota (s.dieOf v) v.proc false = false → s.freeEntry (s.dieOf v) = some id →
        exec (.ptNew f) s = Spec.statusDone (.ptNew f) f.d.toNat (slot * 256)
          (let s1 := Spec.made s v.proc (s.dieOf v) 4 id slot 0xFF
           { s1 with ports := Tab.set s1.ports id { proc := v.proc, depth := b % 2048, launch := b.testBit 11 } }) s v r) ∧
      (0 < b % 2048 → b % 2048 ≤ 1024 → b < 4096 → s.emptySlot v.proc = none → exec (.ptNew f) s = Spec.statusDone (.ptNew f) f.d.toNat 4 s s v r)) ∧
    (Issues (.ptSend f) s v r → s.writesDone s.turn = false → exec (.ptSend f) s = .next s) ∧
    (∀ n s1, Issues (.ptSend f) s v r → s.writesDone s.turn = true → s.readBlock (s.ctx v r (.ptSend f)) (readB (s.ctx v r (.ptSend f)) f) 64 64 false = (.ok n, s1) →
      (∀ e, s1.checkSlot v.proc (Spec.slotOf v f) [4] 2 true = .error e →
        exec (.ptSend f) s = Spec.done (.ptSend f) s v r { s := s1, writes := [{ loc := .s f.d.toNat, val := BitVec.ofNat 64 e }], waitAck := true }) ∧
      (∀ h, s1.checkSlot v.proc (Spec.slotOf v f) [4] 2 true = .ok h → ¬ Spec.okSend n →
        exec (.ptSend f) s = Spec.done (.ptSend f) s v r { s := s1, writes := [{ loc := .s f.d.toNat, val := 0x25#64 }], waitAck := true }) ∧
      (∀ h pr po zl s2 gs x s3, let near := decide (objDie (hId h) = s3.dieOf v)
        s1.checkSlot v.proc (Spec.slotOf v f) [4] 2 true = .ok h → Spec.okSend n → s1.foreign h = false → Tab.get? s1.ports (hId h) = some po → po.launch = false →
        ((Spec.fld n 0 9 = 0 ∧ x = 0 ∧ s3 = s1) ∨ (Spec.fld n 0 9 ≠ 0 ∧ s1.readSpan (s.ctx v r (.ptSend f)) (BitVec.ofNat 64 (Spec.fld n 64 48)) (Spec.fld n 0 9) = (.ok x, s3))) →
        s3.proc? v.proc = some pr → (s3.relObj v (if near then 2 else 3) { kind := 4, ident := Spec.slotOf v f }).releaseWaits s.turn (if near then 2 else 3) = (zl, s2) →
        s2.slotsRefuse v.proc false (sendSlots n) = none → s2.grantsOf pr.ptroot.toNat n = some gs → (∀ g ∈ gs, ∀ l ∈ g.leaves, s2.pageLocked l = false) →
        s3.foreign h = false → (∃ p2, Tab.get? s2.ports (hId h) = some p2 ∧
          (p2.depth ≤ p2.queue.length + p2.reserved →
            exec (.ptSend f) s = Spec.done (.ptSend f) s v r { s := s3, writes := [{ loc := .s f.d.toNat, val := 4#64 }], waitAck := !near }) ∧
          (p2.queue.length + p2.reserved < p2.depth → ∀ hs s4, (s2.grantAway pr none gs).carry v.proc s.turn (n.testBit 16) false (sendSlots n) = (hs, s4) →
            ∃ msg, exec (.ptSend f) s = Spec.done (.ptSend f) s v r
              { s := (s4.modPort (hId h) (fun y => { y with reserved := y.reserved + 1 })).send [.portMessageEnqueue (hId h) (hGen h) msg (some (s.turn, v.issues, f.d.toNat))]
                ready := false, waitAck := !near, waitZlr := zl } ∧
              msg.inl = bytesOf x (Spec.fld n 0 9) ∧ msg.tag = BitVec.ofNat 64 (Spec.fld n 128 64) ∧ msg.grants = gs ∧ msg.handles = hs ∧ msg.tenant = pr.tenant.toNat ∧ msg.proc = v.proc)) ∨
          Tab.get? s2.ports (hId h) = none)) ∧
    (∀ q ∈ [((fun f => Instr.ptRecv f : GR → Instr), true), ((fun f => Instr.ptTry f), false)], ∀ n s1 h po,
      Issues (q.1 f) s v r → s.readBlock (s.ctx v r (q.1 f)) (readB (s.ctx v r (q.1 f)) f) 64 64 false = (.ok n, s1) →
      s1.checkSlot v.proc (Spec.slotOf v f) [4] 3 = .ok h → Tab.get? s1.ports (hId h) = some po →
      ((¬ Spec.okRecv n ∨ po.launch = true) → exec (q.1 f) s = Spec.statusDone (q.1 f) f.d.toNat 0x25 s1 s v r) ∧
      (∀ hd inl s2, Spec.okRecv n → po.launch = false → s1.checkRecv v n = (.ok (hd, inl), s2) →
        (s2.headReady v po = false ∨ 65535 < v.ackcnt + (counted false (hd ++ inl)).length) → exec (q.1 f) s = .next s2) ∧
      (∀ hd inl s2, Spec.okRecv n → po.launch = false → s1.checkRecv v n = (.ok (hd, inl), s2) →
        s2.headReady v po = true → v.ackcnt + (counted false (hd ++ inl)).length ≤ 65535 →
        (po.queue = [] → q.2 = false → exec (q.1 f) s = Spec.statusDone (q.1 f) f.d.toNat 3 s2 s v r) ∧
        (po.queue = [] → q.2 = true → exec (q.1 f) s = Spec.done (q.1 f) s v r
          { s := (s2.modPort (hId h) (fun x => { x with waiters := x.waiters ++ [s.turn] })).modWave s.turn (fun y =>
              { y with wait := some (.port (hId h) (Spec.slotOf v f) v.issues f.d.toNat (BitVec.ofNat 512 n)), blockedAt := s2.cycles })
            ready := false }) ∧
        (∀ x s3, po.queue ≠ [] → s2.takeMsg (s.ctx v r (q.1 f)) (hId h) (Spec.slotOf v f) n hd inl = .inr (x, none, s3) →
          exec (q.1 f) s = Spec.statusDone (q.1 f) f.d.toNat x s3 s v r) ∧
        (∀ e, po.queue ≠ [] → s2.takeMsg (s.ctx v r (q.1 f)) (hId h) (Spec.slotOf v f) n hd inl = .inl e →
          exec (q.1 f) s = Spec.statusDone (q.1 f) f.d.toNat e s2 s v r))) ∧
    (Issues (.pgPull f) s v r →
      let a := (v.sreg f.a.toNat).toNat
      let n := Spec.uB f (s.ctx v r (.pgPull f)) % 128
      ((n = 0 ∨ 64 < n ∨ a % 4096 ≠ 0) → exec (.pgPull f) s = Spec.statusDone (.pgPull f) f.d.toNat 0x25 s s v r) ∧
      (0 < n → n ≤ 64 → a % 4096 = 0 → exec (.pgPull f) s = Spec.done (.pgPull f) s v r
        { s := (s.modWave s.turn (fun v => { v with pull := some (v.issues, f.d.toNat, a / 4096 % 2 ^ 36, n, 0) })).send [.pgPullPageDone s.turn], ready := false }))

/-- R193, R315, R316, R318, R319, R320, R321: what a grant makes of pages and what a receiver gets. A granted page's leaf keeps all but its grant state; the received leaf is valid, has the sender's permissions and the frame, and is marked granted-in, or remote-frame with the sender's node; the head of the queue is taken
first, the result is OK with the number of messages left, and the header gives the counts, the sender's tenant, node and die, the tag and the message's number. A message with more handles than empty slots, or more pages than the window holds, stays queued. -/
def Sys2Proof.Spec.Messages : Prop :=
  (∀ (s : State) (root a gs : Nat) (e : W64) (key sz : Nat), Memory.wf s.mem = true → gs < 4 → s.walk root a = .leaf e key sz → (∀ i < 8, tracked (key + i) = true ∧ Spec.plainAt s (key + i)) →
    (s.setGS root a gs).rdN key 8 = (e.toNat - Spec.fld e.toNat 6 2 * 64) + gs * 64 ∧ ∀ k, (k < key ∨ key + 8 ≤ k) → (s.setGS root a gs).rd8 k = s.rd8 k) ∧
  (∀ far node l, recvLeaf far node l = Spec.received far node l) ∧
  (∀ (s : State) (c : Ctx) (id slot n : Nat) (hd inl : List (Nat × Nat × Target)) (po : Port) (pr : Proc) (m : PortMsg) (seq : Nat) (rest : List (PortMsg × Nat)),
    Tab.get? s.ports id = some po → s.proc? c.v.proc = some pr → po.queue = (m, seq) :: rest →
    (s.takeMsg c id slot n hd inl = .inl 4 ↔ (s.emptySlots c.v.proc m.handles.length).length < m.handles.length) ∧
    (m.handles.length ≤ (s.emptySlots c.v.proc m.handles.length).length → Spec.fld n 192 16 < (m.grants.map (fun g => g.leaves.length)).sum →
      s.takeMsg c id slot n hd inl = .inl 0x25) ∧
    (m.handles = [] → m.grants = [] → ∃ t s', s.takeMsg c id slot n hd inl = .inr (rest.length * 256, t, s') ∧
      (t, s') = (let s1 := (s.modPort id (fun x => { x with queue := rest })).acqObj c.v (if m.die = s.dieOf c.v ∧ m.node = s.nodeId 0 then 2 else 3) { kind := 4, ident := slot }
        let x := s1.putSpan c hd (bytesOf (recvHeader m (Spec.fld n 128 36) [] seq) 64)
        let y := x.2.putSpan c inl (m.inl.take (Spec.fld n 112 9))
        (if x.1.isSome then x.1 else y.1, y.2)))) ∧
  (∀ (m : PortMsg) (gwin seq : Nat), m.handles = [] → m.grants = [] → m.inl.length ≤ 256 →
    recvHeader m gwin [] seq = m.inl.length + m.tenant % 2 ^ 16 * 2 ^ 16 + m.node % 2 ^ 16 * 2 ^ 32 + m.die % 8 * 2 ^ 48 + m.tag.toNat * 2 ^ 64 + seq % 2 ^ 64 * 2 ^ 448)

/-- R310, R311, R312, R322, R323, R324, R325, R326: at a port's home a message joins the queue with the next number, after its sender's release, and its sender gets OK; one whose port is gone is discarded. A page pull copies one page after another. At the authority a free name is bound, a bound one answers BUSY; a lookup finds a binding of the
tenant, or a public one; a drop by another process has no right; the last caching die's invalidation ends a drop. -/
def Sys2Proof.Spec.PortAndNameEvents : Prop :=
  ∀ (s : State),
    (∀ port gen msg ret po, msg.record = false → msg.res = true → msg.node = s.nodeId 0 → s.writesDone msg.wave = true → s.acked msg.wave = true → Tab.get? s.ports port = some po → (s.obj port).gen = gen → 0 < po.reserved →
      po.launch = false → po.waiters = [] → s.boundVectors port = [] → (∀ e ∈ s.wsets, ∀ m ∈ e.2.members, m.2 ≠ Member.obj port 4) →
      exec (.portMessageEnqueue port gen msg ret) s =
        (let s0 : State := match ret with
          | some (w, seq, d) => s.modWave w (fun v => v.modRes seq (fun x => { x with ready := true, writes := x.writes ++ [{ loc := .s d, val := 0#64 }] }))
          | none => s
         .next { s0 with ports := Tab.set s.ports port { po with queue := po.queue ++ [(msg, po.count)], count := po.count + 1, reserved := po.reserved - 1 } })) ∧
    (∀ port gen msg ret, msg.record = false → msg.node = s.nodeId 0 → (s.writesDone msg.wave = false ∨ (s.acked msg.wave = false ∧ msg.near = false)) →
      exec (.portMessageEnqueue port gen msg ret) s = .next { s with inflight := .portMessageEnqueue port gen msg ret :: s.inflight }) ∧
    (∀ port gen msg, msg.record = true → msg.crew = 0 → Tab.get? s.ports port = none → msg.grants = [] → msg.handles = [] → exec (.portMessageEnqueue port gen msg none) s = .next s) ∧
    (∀ w v seq d page left moved p, s.wave? w = some v → v.pull = some (seq, d, page, left, moved) → s.proc? v.proc = some p → 0xFC0000000 ≤ page →
      exec (.pgPullPageDone w) s = .next (s.pullEnd w seq d 0x25 moved)) ∧
    (∀ w v seq d page left moved p, s.wave? w = some v → v.pull = some (seq, d, page, left, moved) → s.proc? v.proc = some p → page < 0xFC0000000 →
      (∀ n, s.walk p.ptroot.toNat (page * 4096) = .bad n → exec (.pgPullPageDone w) s = .next (s.pullEnd w seq d 0x25 moved)) ∧
      (∀ e key, s.walk p.ptroot.toNat (page * 4096) = .leaf e key 12 → e.toNat / 256 % 4 = 3 → e.toNat / 64 % 4 = 3 → (s.die (s.dieOf v)).pool = [] →
        exec (.pgPullPageDone w) s = .next (s.pullEnd w seq d 7 moved)) ∧
      (∀ e key fr rest, s.walk p.ptroot.toNat (page * 4096) = .leaf e key 12 → e.toNat / 256 % 4 = 3 → e.toNat / 64 % 4 = 3 → (s.die (s.dieOf v)).pool = fr :: rest → left ≤ 1 → Memory.wf s.mem = true → fr < 2 ^ 48 →
        ∃ t s1 : State, exec (.pgPullPageDone w) s = .next t ∧ (t.die (s.dieOf v)).pool = rest ∧ t = s1.pullEnd w seq d 0 (moved + 1) ∧
          Spec.fld (t.cohN key 8) 12 36 = fr / 4096 ∧ Spec.fld (t.cohN key 8) 6 4 = 2 ∧ Spec.fld (t.cohN key 8) 0 6 = Spec.fld e.toNat 0 6)) ∧
    (∀ w v seq d name port gen pub, s.wave? w = some v →
      let tn := s.tenantOf v.proc
      ((∃ n ∈ s.names, n.tenant = tn ∧ n.name = name) → exec (.nameOpAtAuthority w seq d name (.pub port gen pub)) s = .next (s.fill w seq [{ loc := .s d, val := 7#64 }])) ∧
      ((∀ n ∈ s.names, ¬ (n.tenant = tn ∧ n.name = name)) → s.names.length < 65536 → (s.obj port).gen = gen → (s.obj port).kind = 4 →
        ∃ (t : State) (b : Name), exec (.nameOpAtAuthority w seq d name (.pub port gen pub)) s = .next (t.fill w seq [{ loc := .s d, val := 0#64 }]) ∧ t.names = s.names ++ [b] ∧
          b.tenant = tn ∧ b.name = name ∧ b.pub = pub ∧ b.port = port ∧ b.gen = gen ∧ b.proc = v.proc ∧ (t.obj port).refs = (s.obj port).refs + 1) ∧
      (s.bound tn name = none → exec (.nameOpAtAuthority w seq d name .drop) s = .next (s.fill w seq [{ loc := .s d, val := 5#64 }])) ∧
      (∀ b, s.bound tn name = some b → b.proc ≠ v.proc → exec (.nameOpAtAuthority w seq d name .drop) s = .next (s.fill w seq [{ loc := .s d, val := 0x21#64 }])) ∧
      (∀ b, s.bound tn name = some b → b.proc = v.proc → b.cachers ≠ [] → ∃ t, exec (.nameOpAtAuthority w seq d name .drop) s = .next t ∧
        t.inflight = s.inflight ++ b.cachers.map (fun k => .nameCacheInvalidate k name tn)) ∧
      (∀ tenant other, s.bound tenant name = none → exec (.nameOpAtAuthority w seq d name (.look tenant other)) s = .next (s.fill w seq [{ loc := .s d, val := 5#64 }])) ∧
      (∀ tenant b, s.bound tenant name = some b → b.pub = false → exec (.nameOpAtAuthority w seq d name (.look tenant true)) s = .next (s.fill w seq [{ loc := .s d, val := 5#64 }])) ∧
      (∀ tenant other b k, s.bound tenant name = some b → (other = false ∨ b.pub = true) → b.handle = none → s.emptySlot v.proc = some k → s.dieOf v = b.die →
        exec (.nameOpAtAuthority w seq d name (.look tenant other)) s =
          .next ((s.putSlot v.proc k (mkHandle (s.nodeId (objDie b.port)) b.port 4 b.gen) 0xC5).fill w seq [{ loc := .s d, val := BitVec.ofNat 64 (k * 256) }]))) ∧
    (∀ die name tenant, ∃ t, exec (.nameCacheInvalidate die name tenant) s = .next t ∧
      ((∀ n ∈ s.names, ¬ (n.tenant = tenant ∧ n.name = name)) → t = { s with nameCache := s.nameCache.filter (fun e => !(e.1 == die && e.2.tenant == tenant && e.2.name == name)) }) ∧
      (∀ n, s.names = [n] → n.tenant = tenant → n.name = name → n.dropping = none → t.names = [{ n with cachers := n.cachers.filter (· != die) }]))

/-- R312, R323, R324, R325, R426: a name instruction whose authority is of this package is sent there; nm.pub of a port handle without SEND and DUP, or with set bits above 12, or over quota, answers at once and sends nothing; nm.look with a name in the die's cache answers from it. -/
def Sys2Proof.Spec.NameInstructions : Prop :=
  ∀ (f : GR) (s : State) (v : Wave) (r : Run),
    let name := v.sreg (f.b.toNat % 64)
    let a := (v.sreg f.a.toNat).toNat
    let tn := s.tenantOf v.proc
    let d := s.dieOf v
    (∀ h, Issues (.nmPub f) s v r → s.pubSlot v.proc (a % 4096) = .ok h → a / 2 ^ 13 = 0 → s.quota d v.proc false = false → (s.authority d tn name).1 = s.nodeId d →
      exec (.nmPub f) s = Spec.done (.nmPub f) s v r { s := s.send [.nameOpAtAuthority s.turn v.issues f.d.toNat name (.pub (hId h) (hGen h) (a.testBit 12))], ready := false }) ∧
    (∀ e, Issues (.nmPub f) s v r → s.pubSlot v.proc (a % 4096) = .error e → exec (.nmPub f) s = Spec.statusDone (.nmPub f) f.d.toNat e s s v r) ∧
    (∀ h, Issues (.nmPub f) s v r → s.pubSlot v.proc (a % 4096) = .ok h → a / 2 ^ 13 ≠ 0 → exec (.nmPub f) s = Spec.statusDone (.nmPub f) f.d.toNat 0x25 s s v r) ∧
    (Issues (.nmDrop f) s v r → (s.authority d tn name).1 = s.nodeId d →
      exec (.nmDrop f) s = Spec.done (.nmDrop f) s v r { s := s.send [.nameOpAtAuthority s.turn v.issues f.d.toNat name .drop], ready := false }) ∧
    (Issues (.nmLook f) s v r → a / 2 ^ 17 ≠ 0 → exec (.nmLook f) s = Spec.statusDone (.nmLook f) f.d.toNat 0x25 s s v r) ∧
    (Issues (.nmLook f) s v r → a / 2 ^ 17 = 0 →
      let t := if a.testBit 16 then a % 2 ^ 16 else tn
      (s.authority d t name).1 = s.nodeId d →
      (s.nameCache.find? (fun e => e.1 == d && e.2.tenant == t && e.2.name == name) = none →
        exec (.nmLook f) s = Spec.done (.nmLook f) s v r { s := s.send [.nameOpAtAuthority s.turn v.issues f.d.toNat name (.look t (a.testBit 16))], ready := false }) ∧
      (∀ n b k, s.nameCache.find? (fun e => e.1 == d && e.2.tenant == t && e.2.name == name) = some (n, b) → (a.testBit 16 = false ∨ b.pub = true) → b.handle = none → s.emptySlot v.proc = some k →
        exec (.nmLook f) s = Spec.statusDone (.nmLook f) f.d.toNat (k * 256) (s.putSlot v.proc k (mkHandle (s.nodeId (objDie b.port)) b.port 4 b.gen) 0xC5) s v r))

/-! ## The command window -/

namespace Sys2Proof.Spec
/-- A register of a die, in the machine after a command. -/
def cmdReady (s : State) (who d : Nat) : Prop := 2 ≤ who ∧ who < 16 ∧ d < 8 ∧ (s.die d).contained = false ∧ (s.reg d 0x3038).testBit 63 = false
end Sys2Proof.Spec

/-- R198, R290, R291, R292, R294, R308, R311, R322, R398: a command of the window by a service core, on a die that is neither contained nor busy. PNEW makes a process from its image and returns its handle; SUSPEND and RESUME set and clear the suspension of the waves named, KILL ends their fibres and, once their release is complete, the waves; SHOOT begins a shootdown and reads PEND until it is complete; POOL adds frames, ORPHAN returns
one; READ writes 64 bytes; an unknown code, a handle of the wrong kind or a misaligned address gives BADDESC, a stale handle STALE. -/
def Obligations.CommandWindow : Prop :=
  ∀ (s : State) (who d : Nat), Spec.cmdReady s who d →
    (∀ code, (code % 256 = 0 ∨ 8 < code % 256) → ∃ t, exec (.unknownCommand who d code) s = .next t ∧ t.reg d 0x3038 = 0x25 ∧ t.reg d 0x3000 = code % 256 ∧ t.mem = s.mem ∧ t.waves = s.waves) ∧
    (∀ a0 : W64, (a0.toNat % 64 ≠ 0 ∨ 2 ^ 40 ≤ a0.toNat) → ∃ t, exec (.pnew who d a0) s = .next t ∧ t.reg d 0x3038 = 0x25 ∧ t.procs = s.procs) ∧
    (∀ (a0 : W64) id, a0.toNat % 64 = 0 → a0.toNat < 2 ^ 40 → (∀ i < 64, Spec.plainAt s (a0.toNat + i)) → s.freeEntry d = some id →
      ∃ t p, exec (.pnew who d a0) s = .next t ∧ t.reg d 0x3038 = 0 ∧ t.proc? id = some p ∧
        (let n := s.rdN a0.toNat 64
         p.ptroot.toNat = Spec.fld n 128 40 ∧ p.asn.toNat = Spec.fld n 168 16 ∧ p.waitspin.toNat = Spec.fld n 184 16 ∧ p.trapbase.toNat = Spec.fld n 256 48 ∧
         p.faultport.toNat = Spec.fld n 320 64 ∧ p.svcport.toNat = Spec.fld n 384 64 ∧ p.tenant.toNat = Spec.fld n 64 16) ∧
        (t.obj id).kind = 1 ∧ t.reg d 0x3030 = (mkHandle (s.nodeId (objDie id)) id 1 (s.obj id).gen).toNat) ∧
    (∀ h : W64, s.foreign h = false → s.stale h = false → hKind h = 2 →
      (∃ t, exec (.suspend who d h) s = .next t ∧ t.reg d 0x3038 = 0 ∧ (∀ w v, s.wave? w = some v → ∃ v', t.wave? w = some v' ∧ (w = hId h → v.dead = false → v' = { v with suspended := true }) ∧ (w ≠ hId h → v' = v))) ∧
      (∀ v, s.wave? (hId h) = some v → v.dead = false → v.suspended = false → ∃ t, exec (.resume who d h) s = .next t ∧ t.reg d 0x3038 = 0 ∧ t.wave? (hId h) = some v) ∧
      (∀ v, s.wave? (hId h) = some v → v.dead = false → v.suspended = true → v.undelivered = false → s.isResident v = true → v.run.isSome = true →
        ∃ t, exec (.resume who d h) s = .next t ∧ t.reg d 0x3038 = 0 ∧ t.wave? (hId h) = some { v with suspended := false }) ∧
      (∀ v, s.wave? (hId h) = some v → v.dead = false → (Tab.keys s.waves).Nodup → ∃ t, exec (.kill who d h) s = .next t ∧ t.reg d 0x3038 = 0 ∧
        ∀ v', t.wave? (hId h) = some v' → v'.dead = true ∨ (v'.killed = true ∧ v'.fibres = [] ∧ v'.run = none ∧ v'.resume = none))) ∧
    (∀ h : W64, (s.foreign h = true ∨ ¬ (hKind h = 1 ∨ hKind h = 2 ∨ hKind h = 3)) →
      (∃ t, exec (.suspend who d h) s = .next t ∧ t.reg d 0x3038 = 0x25 ∧ t.waves = s.waves) ∧ (∃ t, exec (.resume who d h) s = .next t ∧ t.reg d 0x3038 = 0x25 ∧ t.waves = s.waves)) ∧
    (∀ h : W64, s.foreign h = false → (hKind h = 2 ∨ hKind h = 3) → s.stale h = true →
      (∃ t, exec (.suspend who d h) s = .next t ∧ t.reg d 0x3038 = 0x20) ∧ (∃ t, exec (.kill who d h) s = .next t ∧ t.reg d 0x3038 = 0x20 ∧ t.waves = s.waves)) ∧
    (∀ asn a n fl : W64, a.toNat % 4096 = 0 → a.toNat < 2 ^ 48 → 0 < n.toNat → n.toNat ≤ 2 ^ 36 → ∃ t x, exec (.shoot who d asn a n fl) s = .next t ∧ t.reg d 0x3038 = 2 ^ 63 ∧
      Tab.get? t.shoots s.nextShoot = some x ∧ x.asn = asn.toNat % 2 ^ 16 ∧ x.base = a.toNat ∧ x.pages = n.toNat ∧ x.wb = fl.getLsbD 1 ∧ x.dies = (if fl.getLsbD 0 then List.range 8 else [d]) ∧
      t.inflight = s.inflight ++ x.dies.map (fun k => .shootdownRequest s.nextShoot k)) ∧
    (∀ asn a n fl : W64, (a.toNat % 4096 ≠ 0 ∨ 2 ^ 48 ≤ a.toNat ∨ n.toNat = 0 ∨ 2 ^ 36 < n.toNat) → ∃ t, exec (.shoot who d asn a n fl) s = .next t ∧ t.reg d 0x3038 = 0x25 ∧ t.inflight = s.inflight) ∧
    (∀ h a : W64, hKind h = 0 → ∃ t, exec (.readCmd who d h a) s = .next t ∧ t.reg d 0x3038 = 0x25 ∧ t.mem = s.mem) ∧
    (∀ h a : W64, hKind h ≠ 0 → s.foreign h = false → s.stale h = false → a.toNat % 64 = 0 → a.toNat < 2 ^ 40 → Memory.wf s.mem = true → (∀ i < 64, Spec.plainAt s (a.toNat + i)) →
      ∃ t, exec (.readCmd who d h a) s = .next t ∧ t.reg d 0x3038 = 0 ∧ Spec.fld (t.rdN a.toNat 64) 0 5 = hKind h ∧ Spec.fld (t.rdN a.toNat 64) 8 12 = hGen h ∧
        Spec.fld (t.rdN a.toNat 64) 32 32 = (s.obj (hId h)).refs % 2 ^ 32 ∧ ∀ k, (k < a.toNat ∨ a.toNat + 64 ≤ k) → t.rd8 k = s.rd8 k) ∧
    (∀ a n : W64, a.toNat % 4096 = 0 → a.toNat / 2 ^ 37 = d → a.toNat + n.toNat * 4096 ≤ (d + 1) * 2 ^ 37 → ∃ t, exec (.pool who d a n) s = .next t ∧ t.reg d 0x3038 = 0 ∧
      (t.die d).pool = (s.die d).pool ++ (List.range n.toNat).map (fun i => a.toNat + 4096 * i) ∧ t.reg d 0x3030 = ((s.die d).pool.length + n.toNat) % 2 ^ 64) ∧
    ((s.die d).orphans = [] → ∃ t, exec (.orphan who d) s = .next t ∧ t.reg d 0x3038 = 3) ∧
    (∀ fr rest, (s.die d).orphans = fr :: rest → fr < 2 ^ 64 → ∃ t, exec (.orphan who d) s = .next t ∧ t.reg d 0x3038 = 0 ∧ t.reg d 0x3030 = fr ∧ (t.die d).orphans = rest) ∧
    (∀ id die x, Tab.get? s.shoots id = some x → x.dies ≠ [] → (∃ k ∈ x.dies, k ≠ die) →
      ∃ t x', exec (.shootdownRequest id die) s = .next t ∧ Tab.get? t.shoots id = some x' ∧ x'.dies = x.dies.filter (· != die) ∧
        (∀ e ∈ (t.die die).llTlb, ¬ (e.asn = x.asn ∧ e.base < x.base + x.pages * 4096 ∧ x.base < e.base + e.size)) ∧
        ∀ c e, c / 256 = die → (s.cores.any (fun y => y.1 == c)) = true → e ∈ (t.core c).tlb → ¬ (e.asn = x.asn ∧ e.base < x.base + x.pages * 4096 ∧ x.base < e.base + e.size)) ∧
    (∀ id x, Tab.get? s.shoots id = some x → x.dies = [] → x.window = some d → s.shotPending x = false →
      ∃ t, exec (.shootdownComplete id) s = .next t ∧ t.reg d 0x3038 = 0 ∧ Tab.get? t.shoots id = none) ∧
    (∀ id x, Tab.get? s.shoots id = some x → x.dies = [] → s.shotPending x = true → exec (.shootdownComplete id) s = .next { s with inflight := s.inflight ++ [.shootdownComplete id] })

/-! ## Tokens, streams, copy and matrix commands -/

namespace Sys2Proof.Spec
/-- The word of tok.test (R278): BUSY, SPECIAL, RANGE and ERR by token, and whether every masked token reads zero. -/
def tokenWord (v : Wave) (mask : Nat) : Nat :=
  ((List.range 8).map (fun k =>
    (if (v.token k).count = 0 then 0 else 2 ^ k) + (if (v.token k).special then 2 ^ (8 + k) else 0) + (if (v.token k).range then 2 ^ (16 + k) else 0) +
      (if (v.token k).err then 2 ^ (24 + k) else 0))).sum + (if v.tokensZero mask then 2 ^ 32 else 0)
/-- A ring descriptor that q.bind accepts (R280, R442). -/
def okRing (k : Crew) (n : Nat) : Prop :=
  fld n 18 6 = 0 ∧ fld n 29 3 = 0 ∧ fld n 49 15 = 0 ∧ fld n 0 18 % 128 = 0 ∧ fld n 24 5 ≤ 16 ∧
  fld n 32 17 % 128 = 0 ∧ 128 ≤ fld n 32 17 ∧ fld n 32 17 ≤ 65536 ∧ (fld n 24 5 ≠ 0 → fld n 0 18 + fld n 24 5 * fld n 32 17 + 128 ≤ k.bytes)
/-- The token that a copy block, a parameter block and a drain block name (R270, R251, R258): TOKEN and TSCOPE where TOKV is set. -/
def copyTok (b : Nat) : Option (Nat × Nat) := if fld b 2 1 = 1 then some (fld b 3 3, fld b 6 3) else none
def mxTok (b : Nat) : Option (Nat × Nat) := if fld b 5 1 = 1 then some (fld b 6 3, fld b 9 3) else none
def drainTok (b : Nat) : Option (Nat × Nat) := if fld b 4 1 = 1 then some (fld b 5 3, fld b 8 3) else none
/-- The number that a token counts allows no further command (R268). -/
def full (v : Wave) (t : Option (Nat × Nat)) : Prop := ∃ k sc, t = some (k, sc) ∧ 255 ≤ (v.token k).count
/-- The wave's count of a command on a token (R276). -/
def counted (s : State) (w : Nat) (t : Option (Nat × Nat)) : State :=
  match t with
  | none => s
  | some (k, sc) => s.modWave w (fun v => { v with tokens := Tab.set v.tokens k { v.token k with count := (v.token k).count + 1, scope := max (v.token k).scope sc } })
end Sys2Proof.Spec

/-- R202, R277, R278, R279, R280, R282, R283, R284, R442: tok.wait holds the batch on its mask; tok.test reports the tokens at issue, then with b[8] clears the sticky flags of masked tokens that read zero; eq.fence puts one mark into each of two or more named queues; q.bind binds a stream to a
ring that fits, all tiles free, and traps with OPERAND 0x07 on any other descriptor; q.pop holds the batch until tile P is filled, and then gives its address and advances P; q.free waits, as the next instruction, for the wave's earlier writes and frees the oldest popped tile. -/
def Obligations.TokenInstructions : Prop :=
  (∀ (f : GR) (s : State) (v : Wave) (r : Run),
    (Issues (.tokWait f) s v r → exec (.tokWait f) s = Spec.done (.tokWait f) s v r { s := s, onEnd := .tokens (Spec.uB f (s.ctx v r (.tokWait f)) % 256) }) ∧
    (Issues (.tokTest f) s v r →
      let b := Spec.uB f (s.ctx v r (.tokTest f))
      let s1 := if b.testBit 8 then s.modWave s.turn (fun x => x.clearTokens (b % 256)) else s
      exec (.tokTest f) s = Spec.statusDone (.tokTest f) f.d.toNat (Spec.tokenWord v (b % 256)) (if v.tokensZero (b % 256) then s1.acqTokens s.turn v (b % 256) else s1) s v r) ∧
    (Issues (.eqFence f) s v r →
      let m := Spec.uB f (s.ctx v r (.eqFence f)) % 8
      let core := s.coreOf v
      (((List.range 3).filter (fun j => m.testBit j)).length < 2 → exec (.eqFence f) s = Spec.done (.eqFence f) s v r { s := s }) ∧
      (2 ≤ ((List.range 3).filter (fun j => m.testBit j)).length → (∀ j < 3, s.queue core j ≠ [] ∧ s.headMark core j = none) →
        ∃ s' x, exec (.eqFence f) s = Spec.done (.eqFence f) s v r { s := s' } ∧ x.op = .fence s.nextFence m ∧ s'.nextFence = s.nextFence + 1 ∧ s'.waves = s.waves ∧
          ∀ j < 3, s'.queue core j = s.queue core j ++ (if m.testBit j then [{ cmds := [x] }] else []))) ∧
    (∀ k, Issues (.qBind f) s v r → s.crew? v.crew = some k →
      let n := (readA (s.ctx v r (.qBind f)) f).toNat
      (¬ Spec.okRing k n → Spec.operandTrap (.qBind f) 7 s v r) ∧
      (Spec.okRing k n → exec (.qBind f) s = Spec.done (.qBind f) s v r
        { s := s.modWave s.turn (fun x => { x with streams := Tab.set x.streams (f.d.toNat % 8) { base := Spec.fld n 0 18, nt := Spec.fld n 24 5, tsize := Spec.fld n 32 17, gen := (x.stream (f.d.toNat % 8)).gen + 1 } }) })) ∧
    (Issues (.qPop f) s v r → exec (.qPop f) s = Spec.done (.qPop f) s v r { s := s, silent := true, onEnd := .pop (f.b.toNat % 8) f.d.toNat }) ∧
    (Issues (.qFree f) s v r → s.writesDone s.turn = false → exec (.qFree f) s = .next s) ∧
    (Issues (.qFree f) s v r → s.writesDone s.turn = true → exec (.qFree f) s = Spec.done (.qFree f) s v r
      { s := s.modWave s.turn (fun x =>
          let q := x.stream (f.b.toNat % 8)
          { x with streams := Tab.set x.streams (f.b.toNat % 8) (if q.nt ≠ 0 ∧ Tab.getD q.tiles q.freeNext .free = .popped then { q with tiles := Tab.set q.tiles q.freeNext .free, freeNext := (q.freeNext + 1) % q.nt } else q) }) })) ∧
  (∀ (v : Wave) (mask : Nat), ∀ k < 8, (v.clearTokens mask).token k =
    if mask.testBit k ∧ (v.token k).count = 0 then { v.token k with special := false, range := false, err := false } else v.token k) ∧
  (∀ (s : State) (w : Nat) (v : Wave) (h : Held) (q d : Nat), s.wave? w = some v → h.on = .pop q d →
    let x := v.stream q
    ((x.nt = 0 ∨ Tab.getD x.tiles x.popNext .free ≠ .filled) → s.tryRelease w h = none) ∧
    (x.nt ≠ 0 → Tab.getD x.tiles x.popNext .free = .filled → ∃ s' v', s.tryRelease w h = some s' ∧ s'.wave? w = some v' ∧
      v'.sreg d = BitVec.ofNat 64 (0xFE0000000000 + x.base + x.popNext * x.tsize) ∧ v'.held = v.held.filter (· != h) ∧
      v'.stream q = { x with tiles := Tab.set x.tiles x.popNext .popped, popNext := (x.popNext + 1) % x.nt }))

/-- R179, R213, R269, R430: the 64 bytes of a command, a descriptor or a record that an instruction names are read at once when they lie, aligned, in written words
of the issuing crew's own scratchpad: nothing in the state changes, and what is read is what the scratchpad holds. -/
def Sys2Proof.Spec.BlockReads : Prop :=
  ∀ (s : State) (c : Ctx) (k : Crew) (a : W64), s.crew? c.v.crew = some k → 0xFE0000000000 ≤ a.toNat → a.toNat % 64 = 0 →
    let o := a.toNat - 0xFE0000000000
    o + 64 ≤ k.grans * 4096 → k.grans ≤ 64 → k.regions = [] → k.spoison = [] → (∀ i, o ≤ 4 * i → 4 * i < o + 64 → (k.word i).2 = true) →
    s.readBlock c a 64 64 false = (.ok (k.read o 64), s)

/-- R213, R245, R249, R256, R259, R264, R268, R269, R275, R276: a command instruction waits, as the next instruction, while an earlier write of its wave is not performed, while its copy queue holds 32 entries or its token counts 255 commands; else the block is read at issue, the token counts the command, and the command stands at the tail of its queue under the
issuing crew. A slice that is not the last of its collective waits in the crew's staging. -/
def Sys2Proof.Spec.CommandInstructions : Prop :=
  ∀ (f : GR) (s : State) (v : Wave) (r : Run),
    (Issues (.cpIssue f) s v r → 32 ≤ (s.queue (s.coreOf v) (f.b.toNat % 2)).length → exec (.cpIssue f) s = .next s) ∧
    (Issues (.cpIssue f) s v r → s.writesDone s.turn = false → exec (.cpIssue f) s = .next s) ∧
    (∀ n s1, Issues (.cpIssue f) s v r → s.writesDone s.turn = true → (s.queue (s.coreOf v) (f.b.toNat % 2)).length < 32 →
      s.readBlock (s.ctx v r (.cpIssue f)) (readA (s.ctx v r (.cpIssue f)) f) 64 64 false = (.ok n, s1) →
      (Spec.full v (Spec.copyTok n) → exec (.cpIssue f) s = .next s1) ∧
      (¬ Spec.full v (Spec.copyTok n) →
        let s2 := Spec.counted s1 s.turn (Spec.copyTok n)
        (Spec.fld n 15 1 = 0 → ∃ x, exec (.cpIssue f) s = Spec.done (.cpIssue f) s v r { s := s2.enqueueCmd (s2.coreOf v) (f.b.toNat % 2) { cmds := [x] } } ∧
          x.op = .copy (BitVec.ofNat 512 n) ∧ x.crew = v.crew ∧ x.by_.wave = s.turn ∧ x.by_.pc = r.pc) ∧
        (∀ k, Spec.fld n 15 1 = 1 → Spec.fld n 11 1 = 0 → s2.crew? v.crew = some k → Tab.get? k.staging (Spec.fld n 56 8) = none → k.staging.length < 8 →
          Spec.fld n 16 5 ≤ Spec.fld n 21 5 → Spec.fld n 21 5 ≠ 0 →
          ∃ x, exec (.cpIssue f) s = Spec.done (.cpIssue f) s v r
            { s := s2.setCrew v.crew { k with staging := Tab.set k.staging (Spec.fld n 56 8) (f.b.toNat % 2, Spec.fld n 21 5 + 1, [(Spec.fld n 16 5, x)]) } } ∧
            x.op = .copy (BitVec.ofNat 512 n) ∧ x.by_.wave = s.turn))) ∧
    (s.writesDone s.turn = false → (Issues (.mxIssue f) s v r → exec (.mxIssue f) s = .next s) ∧ (Issues (.mxDrain f) s v r → exec (.mxDrain f) s = .next s)) ∧
    (∀ n s1, Issues (.mxIssue f) s v r → s.writesDone s.turn = true → s.readBlock (s.ctx v r (.mxIssue f)) (readA (s.ctx v r (.mxIssue f)) f) 64 64 false = (.ok n, s1) →
      (Spec.full v (Spec.mxTok n) → exec (.mxIssue f) s = .next s1) ∧
      (¬ Spec.full v (Spec.mxTok n) → Spec.fld n 4 1 = 0 →
        let s2 := Spec.counted s1 s.turn (Spec.mxTok n)
        ∃ x, exec (.mxIssue f) s = Spec.done (.mxIssue f) s v r { s := s2.enqueueCmd (s2.coreOfCrew v.crew) 2 { cmds := [x] } } ∧
          x.op = .mx (BitVec.ofNat 512 n) ∧ x.crew = v.crew ∧ x.by_.wave = s.turn ∧ x.part = none)) ∧
    (∀ n s1, Issues (.mxDrain f) s v r → s.writesDone s.turn = true → s.readBlock (s.ctx v r (.mxDrain f)) (readA (s.ctx v r (.mxDrain f)) f) 64 64 false = (.ok n, s1) →
      (Spec.full v (Spec.drainTok n) → exec (.mxDrain f) s = .next s1) ∧
      (¬ Spec.full v (Spec.drainTok n) →
        let s2 := Spec.counted s1 s.turn (Spec.drainTok n)
        ∃ x, exec (.mxDrain f) s = Spec.done (.mxDrain f) s v r { s := s2.enqueueCmd (s2.coreOf v) 2 { cmds := [x] } } ∧
          x.op = .drain (BitVec.ofNat 512 n) ∧ x.crew = v.crew ∧ x.by_.wave = s.turn)) ∧
    (Issues (.mxZero f) s v r → ∃ x, exec (.mxZero f) s = Spec.done (.mxZero f) s v r { s := s.enqueueCmd (s.coreOf v) 2 { cmds := [x] } } ∧
      x.op = .zero (Spec.uB f (s.ctx v r (.mxZero f)) % 16) ∧ x.crew = v.crew ∧
      ∀ k, s.crew? v.crew = some k → ∀ a < 4, (Spec.uB f (s.ctx v r (.mxZero f))).testBit a = true → Tab.get? x.accs a = Tab.get? k.accs a)

/-- R246, R247, R261, R442: om.claim of more than 16 slots or 4 accumulators traps with OPERAND 0x07, of more than the crew could then hold with OPERAND 0x06; a claim of nothing reports what is held; any other claim waits in the order of issue. om.rel takes the named storage from the holder at once. mx.gang joins a free position of a gang and
holds the batch until it is complete, answers BUSY for a join that cannot be, and traps with OPERAND 0x06 for a position outside the size. -/
def Sys2Proof.Spec.StorageInstructions : Prop :=
  ∀ (f : GR) (s : State) (v : Wave) (r : Run) (k : Crew), s.crew? v.crew = some k →
    (Issues (.omClaim f) s v r →
      let b := Spec.uB f (s.ctx v r (.omClaim f))
      let ns := b % 32
      let na := b / 32 % 8
      ((16 < ns ∨ 4 < na) → Spec.operandTrap (.omClaim f) 7 s v r) ∧
      (ns ≤ 16 → na ≤ 4 → (16 < k.slots.length + ns ∨ 4 < k.accs.length + na) → Spec.operandTrap (.omClaim f) 6 s v r) ∧
      (ns = 0 → na = 0 → k.slots.length ≤ 16 → k.accs.length ≤ 4 → exec (.omClaim f) s = Spec.statusDone (.omClaim f) f.d.toNat
        ((((Tab.keys k.slots).map (fun i => 2 ^ i)).sum % 2 ^ 16) * 2 ^ 32 + (((Tab.keys k.accs).map (fun i => 2 ^ i)).sum % 2 ^ 4) * 2 ^ 48) s s v r) ∧
      (k.slots.length + ns ≤ 16 → k.accs.length + na ≤ 4 → ns + na ≠ 0 → exec (.omClaim f) s = Spec.done (.omClaim f) s v r
        { s := { s with claims := s.claims ++ [(s.turn, maskOf (s.ctx v r (.omClaim f)).lanes)] }, silent := true, onEnd := .claim ns na f.d.toNat })) ∧
    (Issues (.omRel f) s v r → k.gang = none →
      let b := Spec.uB f (s.ctx v r (.omRel f))
      ∃ s' k', exec (.omRel f) s = Spec.done (.omRel f) s v r { s := s' } ∧ s'.crew? v.crew = some k' ∧ s'.waves = s.waves ∧
        k'.slots = k.slots.filter (fun e => !b.testBit e.1) ∧ k'.accs = k.accs.filter (fun e => !b.testBit (16 + e.1)) ∧
        s'.inflight = s.inflight ++ ((s.claims.map (·.1)).eraseDups.map (fun w => Instr.omClaimGrant w))) ∧
    (Issues (.mxGang f) s v r →
      let b := Spec.uB f (s.ctx v r (.mxGang f))
      let g := b % 4
      let pos := b / 4 % 8
      let size := b / 32 % 8 + 1
      let key := coreCluster k.core * 4 + g
      (b.testBit 8 = true → (∀ p, k.gang ≠ some (g, p)) → exec (.mxGang f) s = Spec.statusDone (.mxGang f) f.d.toNat 0 s s v r) ∧
      (b.testBit 8 = false → size ≤ pos → Spec.operandTrap (.mxGang f) 6 s v r) ∧
      (b.testBit 8 = false → pos < size → k.gang = none → k.slots = [] → k.accs = [] → Tab.get? s.gangs key = none → 1 < size →
        exec (.mxGang f) s = Spec.done (.mxGang f) s v r
          { s := ({ s with gangs := Tab.set s.gangs key { size := size, crews := [(pos, v.crew)] } } : State).setCrew v.crew { k with gang := some (g, pos) }
            silent := true, onEnd := .gang f.d.toNat }) ∧
      (b.testBit 8 = false → pos < size → k.gang = none → (k.slots ≠ [] ∨ k.accs ≠ [] ∨ ∃ x, Tab.get? s.gangs key = some x ∧ (x.formed = true ∨ x.size ≠ size)) →
        exec (.mxGang f) s = Spec.statusDone (.mxGang f) f.d.toNat 7 s s v r))

namespace Sys2Proof.Spec
/-- The head entry e of a queue, alone in it, whose one command x is of wave w, which still is the wave that issued it. -/
def alone (s : State) (core q : Nat) (e : Entry) (x : Cmd) (v : Wave) : Prop :=
  s.queue core q = [e] ∧ e.cmds = [x] ∧ e.tile = none ∧ (s.obj x.by_.wave).gen = x.by_.wgen ∧ s.wave? x.by_.wave = some v ∧ v.held = [] ∧ x.part = none ∧ (∀ k ∈ s.cores, k.2.freeing = []) ∧ ∀ j < 3, s.headMark core j = none
/-- Token k of v after a command on it has fallen (R276). -/
def fallen (v : Wave) (k : Nat) (err special range : Bool) : Token :=
  { v.token k with count := (v.token k).count - 1, err := (v.token k).err || err, special := (v.token k).special || special, range := (v.token k).range || range }
/-- An event of a queue that changes its head entry's phase and nothing else of the entry's commands. -/
def startsAt (s t : State) (core q : Nat) (e : Entry) : Prop :=
  ∃ err sp rg wr num, t.queue core q = { e with phase := 1, err := err, special := sp, range := rg, wrote := wr, num := num } :: (s.queue core q).drop 1
end Sys2Proof.Spec

/-- R213, R264, R268, R276, R363, R403, R447, R448: the command at the head of a queue starts, in queue order, unless its core is frozen or contained; a command that was refused leaves its queue without its effect, its token falls with ERR set, and the queue goes on; a command that is performed leaves its queue and its token falls. -/
def Obligations.QueueEvents : Prop :=
  ∀ (s : State) (core q : Nat),
    (∀ e x b rest, s.queue core q = e :: rest → e.cmds = [x] → x.op = .copy b → e.phase = 0 → Spec.fld b.toNat 11 1 = 0 → s.engineRuns core = true →
      ∃ t, exec (.copyCommandStart core q) s = .next t ∧ Spec.startsAt s t core q e ∧ t.waves = s.waves ∧ t.mem = s.mem) ∧
    (∀ e rest, s.queue core q = e :: rest → s.engineRuns core = false → exec (.copyCommandStart core q) s = .next s) ∧
    (∀ e x b v, Spec.alone s core q e x v → x.op = .copy b → e.phase = 1 → e.err.isSome = true → x.by_.proc = v.proc → s.proc? v.proc = none →
      ∃ t v', exec (.copyCommandPerformed core q) s = .next t ∧ t.queue core q = [] ∧ t.mem = s.mem ∧ t.wave? x.by_.wave = some v' ∧
        v' = (match Spec.copyTok b.toNat with
          | some (k, _) => { v with tokens := Tab.set v.tokens k (Spec.fallen v k true false false) }
          | none => v)) ∧
    (∀ e x b v, Spec.alone s core q e x v → x.op = .copy b → e.phase = 2 → e.err = none → s.cmdWaits e.num = false →
      (Spec.fld b.toNat 9 1 = 0 → ∃ t v', exec (.copyCommandPerformed core q) s = .next t ∧ t.queue core q = [] ∧ t.wave? x.by_.wave = some v' ∧
        v' = (match Spec.copyTok b.toNat with
          | some (k, _) => { v with tokens := Tab.set v.tokens k (Spec.fallen v k false false false) }
          | none => v)) ∧
      (Spec.fld b.toNat 9 1 = 1 → exec (.copyCommandPerformed core q) s = .next (s.setHead core q { e with phase := 3 }))) ∧
    (∀ e x b v, Spec.alone s core q e x v → x.op = .copy b → e.phase = 4 → e.err = none → s.cmdWaits e.num = false →
      ∃ t v', exec (.copySignalWrite core q) s = .next t ∧ t.queue core q = [] ∧ t.wave? x.by_.wave = some v' ∧
        v' = (match Spec.copyTok b.toNat with
          | some (k, _) => { v with tokens := Tab.set v.tokens k (Spec.fallen v k false false false) }
          | none => v)) ∧
    (∀ e x b rest, s.queue core 2 = e :: rest → e.cmds = [x] → x.op = .mx b → e.phase = 0 → s.engineRuns core = true → Spec.fld b.toNat 32 10 = 0 →
      ∃ t err, exec (.mxOperationStart core) s = .next t ∧ t = s.setHead core 2 { e with phase := 1, err := some err } ∧ err.code = 1) ∧
    (∀ e x b v, Spec.alone s core 2 e x v → x.op = .mx b → x.part = none → e.phase = 1 → e.err = none →
      ∃ t v', exec (.mxOperationPerformed core) s = .next t ∧ t.queue core 2 = [] ∧ t.wave? x.by_.wave = some v' ∧
        v' = (match Spec.mxTok b.toNat with
          | some (k, _) => { v with tokens := Tab.set v.tokens k (Spec.fallen v k false false false) }
          | none => v)) ∧
    (∀ e x m v, Spec.alone s core 2 e x v → x.op = .zero m → s.engineRuns core = true → (∀ k < 4, m.testBit k = true → (Tab.get? x.accs k).isSome = true) → (Tab.keys x.accs).Nodup →
      ∃ t, exec (.mxZeroPerform core) s = .next t ∧ t.queue core 2 = [] ∧ t.waves = s.waves ∧ ∀ a ∈ x.accs, Tab.get? t.accs a.2 = some {}) ∧
    (∀ e x b rest, s.queue core 2 = e :: rest → e.cmds = [x] → x.op = .drain b → e.phase = 0 → s.engineRuns core = true → Spec.fld b.toNat 32 9 = 0 →
      ∃ t err, exec (.drainStart core) s = .next t ∧ t = ({ s with nextFence := s.nextFence + 1 } : State).setHead core 2 { e with phase := 1, err := some err, wrote := false, special := false, range := false, num := s.nextFence } ∧
        err.code = 1) ∧
    (∀ e x b v, Spec.alone s core 2 e x v → x.op = .drain b → e.phase = 1 → e.err = none → s.cmdWaits e.num = false →
      ∃ t v', exec (.drainPerformed core) s = .next t ∧ t.queue core 2 = [] ∧ t.wave? x.by_.wave = some v' ∧
        v' = (match Spec.drainTok b.toNat with
          | some (k, _) => { v with tokens := Tab.set v.tokens k (Spec.fallen v k false e.special e.range) }
          | none => v)) ∧
    (∀ w v, s.wave? w = some v → v.held = [] → exec (.omClaimGrant w) s = .next s) ∧
    (∀ w v k lanes ns na d site, s.wave? w = some v → s.crew? v.crew = some k → k.gang = none → k.place = .resident → v.held = [{ lanes := lanes, site := site, on := .claim ns na d }] → s.claims = [(w, lanes)] →
      k.slots = [] → k.accs = [] → ns ≤ s.freeSlots k.core → na ≤ s.freeAccs k.core → ns ≤ 16 → na ≤ 4 →
      ∃ t v' k', exec (.omClaimGrant w) s = .next t ∧ t.claims = [] ∧ t.wave? w = some v' ∧ v'.held = [] ∧ t.crew? v.crew = some k' ∧ Tab.keys k'.slots = List.range ns ∧ Tab.keys k'.accs = List.range na ∧
        v'.sreg d = BitVec.ofNat 64 ((2 ^ ns - 1) * 2 ^ 8 + (2 ^ na - 1) * 2 ^ 24 + (2 ^ ns - 1) * 2 ^ 32 + (2 ^ na - 1) * 2 ^ 48))

namespace Sys2Proof.Spec
/-- The block of the 1-D copy of n elements of 2^k bytes from one address to another (R270). -/
def lineCopy (k n src dst : Nat) : BitVec 512 :=
  BitVec.ofNat 512 (k * 2 ^ 40 + src * 2 ^ 64 + dst * 2 ^ 128 + n * 2 ^ 192 + 2 ^ 208 + 2 ^ 224)
/-- The word offsets that a range of bytes touches lie in plain written words of an allocation: no barrier block, no step region, no poison. -/
def plainRange (k : Crew) (off n : Nat) : Prop :=
  off + n ≤ k.barOff ∧ k.regions = [] ∧ k.spoison = [] ∧ ∀ i < off + n, off ≤ i → (Tab.get? k.scratch (i / 4)).isSome = true
/-- R250, R252: accumulating the blocks of a row and a column: each block's exact sum of products, scaled by the two shift counts and rounded to binary32, is added in binary32, RNE; OVW replaces the old element by the first. -/
def dot (ovw : Bool) (old : Nat) : List KBlock → List KBlock → Nat
  | a :: as_, b :: bs =>
    let y := match a.scale, b.scale with
      | some x, some z => (match blockSum a b with
        | .fin n m e => (Fmt.f32.round (.fin n m (e + x + z)) .rne false 0).1
        | w => (Fmt.f32.round w .rne false 0).1)
      | _, _ => 0
    dot false (if ovw then y else (Fmt.f32.addOp old y).1) as_ bs
  | _, _ => old
end Sys2Proof.Spec

/-- R91, R248, R252, R254, R255: the matrix product of M by N over accumulators: element (i, j) becomes the accumulation of row i with column j in ascending blocks of K, every other element keeps its value; the rows and columns that met a special value are marked. -/
def Sys2Proof.Spec.MatrixProduct : Prop :=
  ∀ (acc : Nat → Acc) (p : MxPlan) (arow bcol : Nat → List KBlock) (scat : Option (List Nat)) (a : Nat),
    (p.wide = true → p.row0 = 0 ∧ p.col0 = 0 ∧ p.m ≤ 256 ∧ p.n ≤ 256) → (p.wide = false → p.row0 + p.m ≤ 128 ∧ p.col0 + p.n ≤ 128 ∧ a = p.acc) →
    a ∈ accsOf p.wide p.acc p.m p.n →
    ∃ o, Tab.get? (mxAccs acc p arow bcol scat) a = some o ∧
      (∀ i < p.m, ∀ j < p.n, ∀ rr cc, accPlace p.wide p.acc p.row0 p.col0 i j = (a, rr, cc) →
        (Tab.getD o.els (rr * 128 + cc) 0).toNat = Spec.dot p.ovw (Tab.getD (acc a).els (rr * 128 + cc) 0).toNat (arow i) (bcol j) % 2 ^ 32) ∧
      (∀ x < 128 * 128, (∀ i < p.m, ∀ j < p.n, ∀ rr cc, accPlace p.wide p.acc p.row0 p.col0 i j = (a, rr, cc) → rr * 128 + cc ≠ x) → Tab.getD o.els x 0 = Tab.getD (acc a).els x 0) ∧
      (∀ x, x ∈ o.rowMark ↔ x ∈ (acc a).rowMark ∨ ∃ i < p.m, (∃ b ∈ arow i, b.special = true) ∧ ∃ j < p.n, ∃ cc, accPlace p.wide p.acc p.row0 p.col0 i j = (a, x, cc)) ∧
      (scat = none → o.map = (acc a).map)

/-- R259, R260: a drained element of a marked row or column is the format's NaN, or 0 where it has none; any other is its binary32 value converted with the block's rounding mode and SAT. -/
def Sys2Proof.Spec.DrainedElement : Prop :=
  ∀ (o : Acc) (r c : Nat) (f : Fmt) (mode : RMode) (sat : Bool) (g : W32), mode ≠ .sr →
    ((r ∈ o.rowMark ∨ c ∈ o.colMark) → drainElem o r c f mode sat g = (f.nanCode, true, false, g)) ∧
    (r ∉ o.rowMark → c ∉ o.colMark → ∃ rg, drainElem o r c f mode sat g =
      ((match f with | .int sg w => (toInt (Fmt.f32.decode (Tab.getD o.els (r * 128 + c) 0).toNat) mode sg w 0).1 | _ => (f.round (Fmt.f32.decode (Tab.getD o.els (r * 128 + c) 0).toNat) mode sat 0).1), false, rg, g))

/-- R271: the payload of a 1-D copy inside a crew's own scratchpad: afterwards the destination bytes are the source's bytes, and every other byte of the allocation reads as before. -/
def Sys2Proof.Spec.CopyPayload : Prop :=
  ∀ (s : State) (core q : Nat) (e : Entry) (x : Cmd) (c : Crew) (k n src dst : Nat),
    k ≤ 4 → 0 < n → n < 2 ^ 16 → c.bytes ≤ 2 ^ 18 → src % 2 ^ k = 0 → dst % 2 ^ k = 0 → (src + n * 2 ^ k ≤ dst ∨ dst + n * 2 ^ k ≤ src) →
    Spec.plainRange c src (n * 2 ^ k) → Spec.plainRange c dst (n * 2 ^ k) →
    s.queue core q = [e] → e.cmds = [x] → e.phase = 1 → e.err = none → e.tile = none → x.op = .copy (Spec.lineCopy k n (0xFE0000000000 + src) (0xFE0000000000 + dst)) →
    (s.obj x.by_.crew).gen = x.by_.cgen → s.crew? x.by_.crew = some c → s.locks = [] → (∀ w ∈ s.waves, w.2.held = []) → (s.core core).freeing = [] →
    ∃ t c', exec (.copyCommandPerformed core q) s = .next t ∧ t.queue core q = [] ∧ t.crew? x.by_.crew = some c' ∧ c'.read dst (n * 2 ^ k) = c.read src (n * 2 ^ k) ∧
      ∀ i < c.barOff, (i < dst ∨ dst + n * 2 ^ k ≤ i) → c'.read i 1 = c.read i 1

/-! ## Crews on cores, work distribution, debug and profiling -/

/-- R12, R42, R43, R298, R299, R340, R343, R464: a runnable crew is placed where it fits and leaves the run queue; a crew that may leave its core goes to the shadow bank where that is free, or to the cave, and its pre-emption has ended; the end of a transfer makes it resident; a crew that stays runnable for a further STARVELIM ticks is
recorded and boosted. -/
def Sys2Proof.Spec.CrewEvents : Prop :=
  ∀ (s : State),
    (∀ core, s.runq = [] → exec (.crewPlacement core) s = .next s) ∧
    (∀ c k core l b, s.runq = [c] → s.crew? c = some k → k.core = core → k.gang = none → k.floating = false → k.moved = false → k.answer = none → k.place = .queued → s.fitCrew c [] = some (l, b) → (s.crewPrio c) < 8 →
      ∃ t, exec (.crewPlacement core) s = .next t ∧ t.runq = [] ∧ t.crew? c = some { k with place := .resident, base := b, newBase := false, swapIn := false, starved := 0 } ∧ t.mem = s.mem) ∧
    (∀ c k core l b, s.runq = [c] → s.crew? c = some k → k.core = core → k.gang = none → k.floating = false → k.moved = false → k.answer = none → k.place = .cave → s.fitCrew c [] = some (l, b) → (s.crewPrio c) < 8 →
      ∃ t, exec (.crewPlacement core) s = .next t ∧ t.runq = [] ∧ t.crew? c = some { k with place := .restoring, base := b, newBase := false, swapIn := false, starved := 0 } ∧
        t.inflight = s.inflight ++ [.caveRestoreDone c]) ∧
    (∀ c, s.canLeave c = false → exec (.crewDeschedule c) s = .next s) ∧
    (∀ c k, s.crew? c = some k → k.gang = none → k.preempt = some 0 → k.moveTo = none → k.task = none → s.canLeave c = true → (∀ e ∈ s.crews, e.2.swapIn = false) → (Tab.keys s.crews).Nodup →
      ∃ t k', exec (.crewDeschedule c) s = .next t ∧ t.crew? c = some k' ∧ k'.place = (if k.part = true ∨ s.bankFree k.core = true then .shadow else .cave) ∧ k'.preempt = none ∧
        k'.base = k.base ∧ k'.scratch = k.scratch ∧ t.mem = s.mem ∧ ((s.membersOf c).any (fun e => e.2.active) = true → c ∉ s.runq → t.runq = s.runq ++ [c])) ∧
    (∀ q ∈ [((fun c => Instr.shadowSwapDone c : Nat → Instr), Place.swapping), ((fun c => Instr.caveRestoreDone c), Place.restoring)], ∀ c k, s.crew? c = some k →
      (k.place ≠ q.2 → exec (q.1 c) s = .next s) ∧
      (k.place = q.2 → k.gang = none → k.saved = [] → (∀ e ∈ s.membersOf c, e.2.held = [] ∧ e.2.instances = []) → k.regions = [] → ∃ t k', exec (q.1 c) s = .next t ∧ t.crew? c = some k' ∧ k'.place = .resident ∧ k'.scratch = k.scratch)) ∧
    (∀ c k, s.crew? c = some k →
      let d := k.core / 256
      let lim := s.reg d 0xC0020
      ((c ∉ s.runq ∨ lim = 0 ∨ s.tickOf d - k.runnableAt < lim * (k.starved + 1)) → exec (.starveAging c) s = .next s) ∧
      (c ∈ s.runq → lim ≠ 0 → lim * (k.starved + 1) ≤ s.tickOf d - k.runnableAt → (Tab.keys s.waves).Nodup →
        ∃ t, exec (.starveAging c) s = .next t ∧ t.crew? c = some { k with starved := k.starved + 1 } ∧
          ∀ w v, s.wave? w = some v → v.crew = c → v.dead = false → t.wave? w = some { v with boost := true }))

namespace Sys2Proof.Spec
/-- A task record that R329 accepts. -/
def okRecord (n : Nat) : Prop :=
  fld n 0 2 = 0 ∧ (fld n 48 8 = 16 ∨ fld n 48 8 = 32 ∨ fld n 48 8 = 64) ∧ fld n 56 8 % 8 = 0 ∧ 0 < fld n 56 8 ∧ fld n 56 8 ≤ 192 ∧ fld n 144 16 ≤ 4096 ∧
  fld n 122 6 = 0 ∧ fld n 136 8 = 0 ∧ fld n 240 16 = 0 ∧ fld n 304 16 = 0 ∧ fld n 400 48 = 0 ∧ fld n 496 16 = 0
/-- Bytes that a read at the home finds as memory holds them. -/
def plainSpan (s : State) (a n : Nat) : Prop := ∀ i < n, plainAt s (a + i)
/-- The states of a die's unit. -/
def pstat (s : State) (d : Nat) : Nat := (s.dist d).pstat.toNat
/-- The candidate of a queue's record (R333, R339). -/
def queueCand (s : State) (q : TaskQueue) (r sprio clmask : Nat) : Cand :=
  { record := BitVec.ofNat 512 r, kind := 0, src := q.ix, tenant := s.tenantOf q.proc, proc := q.proc, sprio := sprio, rdy := s.cycles, clmask := clmask }
end Sys2Proof.Spec

/-- R332, R333, R334, R454: tq.push waits for the wave's earlier writes, then writes the record at the ring's TAIL, advances TAIL, and answers OK with the old TAIL; QUOTA for a contained process, BUSY for a queue that takes none, FULL for a full ring, else a slot's own status. A queue's head record enters the candidate table and HEAD advances. -/
def Obligations.TaskQueues : Prop :=
  (∀ (f : GR) (s : State) (v : Wave) (r : Run), Issues (.tqPush f) s v r →
    (s.relReady s.turn = false → exec (.tqPush f) s = .next s) ∧
    (∀ n s1, s.relReady s.turn = true → s.readBlock (s.ctx v r (.tqPush f)) (readB (s.ctx v r (.tqPush f)) f) 64 64 false = (.ok n, s1) →
      (∀ e, s1.checkSlot v.proc (Spec.slotOf v f) [7] 2 = .error e → exec (.tqPush f) s = Spec.statusDone (.tqPush f) f.d.toNat e s1 s v r) ∧
      (∀ h q p, s1.checkSlot v.proc (Spec.slotOf v f) [7] 2 = .ok h → Tab.get? s1.tqs (hId h) = some q → s1.proc? q.proc = some p →
        (p.contained = true → exec (.tqPush f) s = Spec.statusDone (.tqPush f) f.d.toNat 0x24 s1 s v r) ∧
        (p.contained = false → (s1.qcb q.qcb 9 1).testBit 2 = true → exec (.tqPush f) s = Spec.statusDone (.tqPush f) f.d.toNat 7 s1 s v r) ∧
        (p.contained = false → (s1.qcb q.qcb 9 1).testBit 2 = false → s1.ringFull q.qcb = true → exec (.tqPush f) s = Spec.statusDone (.tqPush f) f.d.toNat 4 s1 s v r) ∧
        (p.contained = false → (s1.qcb q.qcb 9 1).testBit 2 = false → s1.ringFull q.qcb = false →
          exec (.tqPush f) s = Spec.statusDone (.tqPush f) f.d.toNat (s1.qcb q.qcb 24 8 % 2 ^ 32 * 256) ((s1.ringPush q.qcb n).2.send [.queueRecordTake (hId h)]) s v r)))) ∧
  (∀ (s : State) (a rec_ : Nat), Memory.wf s.mem = true → Spec.plainSpan s a 128 →
    let at_ := s.rdN a 8 % 2 ^ 48 + 64 * (s.rdN (a + 24) 8 % 2 ^ (s.rdN (a + 8) 1 % 32))
    Spec.plainSpan s at_ 64 → (at_ + 64 ≤ a ∨ a + 128 ≤ at_) → rec_ < 2 ^ 512 →
    (s.ringPush a rec_).1 = s.rdN (a + 24) 8 ∧ (s.ringPush a rec_).2.rdN at_ 64 = rec_ ∧ (s.ringPush a rec_).2.rdN (a + 24) 8 = (s.rdN (a + 24) 8 + 1) % 2 ^ 64 ∧
    (s.ringFull a = true ↔ (s.rdN (a + 24) 8 + 2 ^ 64 - s.rdN (a + 16) 8) % 2 ^ 64 = 2 ^ (s.rdN (a + 8) 1 % 32))) ∧
  (∀ (s : State) (id : Nat) (q : TaskQueue), Tab.get? s.tqs id = some q →
    (s.takeable q = false → exec (.queueRecordTake id) s = .next s) ∧
    (s.takeable q = true → (s.dist q.die).cands = [] → q.waitPush = [] → Memory.wf s.mem = true → Spec.plainSpan s q.qcb 128 →
      let at_ := s.rdN q.qcb 8 % 2 ^ 48 + 64 * (s.rdN (q.qcb + 16) 8 % 2 ^ (s.rdN (q.qcb + 8) 1 % 32))
      Spec.plainSpan s at_ 64 → Spec.okRecord (s.rdN at_ 64) →
      ∃ t, exec (.queueRecordTake id) s = .next t ∧ t.rdN (q.qcb + 16) 8 = (s.rdN (q.qcb + 16) 8 + 1) % 2 ^ 64 ∧ Tab.get? t.tqs id = some { q with busy := true } ∧
        (t.dist q.die).cands = [(0, Spec.queueCand s q (s.rdN at_ 64) (s.rdN (q.qcb + 8) 1 / 32 % 8) (s.rdN (q.qcb + 32) 2))] ∧
        (t.dist q.die).fifo = (s.dist q.die).fifo ++ [(0, 0, s.rdN (q.qcb + 8) 1 / 32 % 8)]) ∧
    (s.takeable q = true → 4096 ≤ (s.dist q.die).cands.length → ∃ t, exec (.queueRecordTake id) s = .next t ∧ t.mem = s.mem ∧ (t.dist q.die).cands = (s.dist q.die).cands))

/-- R337, R338, R340, R341, R342, R343, R461: the oldest event of the FIFO is taken by its hook; PLACE, MIGRATE and PREEMPT answer BADDESC, QUOTA, BUSY or EMPTY and change no crew where they cannot act, else they make, move or pre-empt crews; the cox chooses, of the cores that masks and room allow, one with the most free wave slots, the lowest among equals. -/
def Sys2Proof.Spec.Distributor : Prop :=
  (∀ (s : State) (d : Nat),
    (∀ i ∈ [Instr.onReady d, .onSlotFree d],
      (((s.dist d).fifo = [] ∨ (s.dist d).halted = true ∨ (s.die d).contained = true) → exec i s = .next s) ∧
      (∀ e rest, (s.dist d).fifo = e :: rest → (s.dist d).halted = false → (s.die d).contained = false → (s.dist d).waiting = [] → e.1 ≤ 2 → ((s.dist d).cox = false ∨ (s.dist d).cands = [] ∨ e.1 = 2) →
        exec i s = .next (s.modDist d (fun x => { x with fifo := rest })))) ∧
    (∀ i c k e rest, (s.dist d).fifo = e :: rest → (s.dist d).halted = false → (s.die d).contained = false → (s.dist d).cox = true → (s.dist d).waiting = [] → e.1 ≤ 1 → (s.dist d).cands = [(i, c)] →
      let s1 := s.modDist d (fun x => { x with fifo := rest })
      (s1.coxCore d c = none → exec (.onReady d) s = .next s1) ∧
      (s1.coxCore d c = some k → ∃ t, exec (.onReady d) s = .next t ∧
        t = (if Tab.get? ((s1.place d i k).dist d).cands i = some c then s1.place d i k
          else (s1.place d i k).modDist d (fun x => { x with ptrs := Tab.set x.ptrs c.sprio ((srcIndex c.kind c.src + 1) % 1296) })))) ∧
    (∀ crew reason, (2, crew, reason) ∉ (s.dist d).fifo → (s.dist d).halted = false → (s.die d).contained = false → (s.dist d).fifo = [] → (s.dist d).waiting = [] →
      exec (.onPreemptRequest d crew reason) s = .next ((s.modDist d (fun y => { y with fifo := y.fifo ++ [(2, crew, reason)] })).modDist d (fun y => { y with fifo := [] }))) ∧
    ((s.dist d).halted = true → (s.dist d).lastBal + (s.dist d).balper ≤ s.tickOf d →
      exec (.onBalance d) s = .next (s.modDist d (fun y => { y with lastBal := s.tickOf d, fifo := y.fifo ++ [(3, s.tickOf d % 2 ^ 32, 0)] }))) ∧
    ((s.dist d).fifo = [] → (s.dist d).lastBal ≤ s.tickOf d → s.tickOf d < (s.dist d).lastBal + (s.dist d).balper → exec (.onBalance d) s = .next s) ∧
    (∀ c k, s.coxCore d c = some k → k < 256 ∧ s.occFits (d * 256 + k) c.record.toNat = true ∧ c.clmask.testBit (k / 16) = true ∧
      ∀ j < 256, s.occFits (d * 256 + j) c.record.toNat = true → c.clmask.testBit (j / 16) = true →
        (∀ cap m n, s.limit d (s.tenantOf c.proc) = some (cap, m, n) → m.testBit (j / 16) = true) → (s.limit d (s.tenantOf c.proc)).isSome = true →
        s.freeWslots (d * 256 + j) ≤ 32 → s.freeWslots (d * 256 + k) ≤ 32 →
        s.freeWslots (d * 256 + j) ≤ s.freeWslots (d * 256 + k) ∧ (s.freeWslots (d * 256 + j) = s.freeWslots (d * 256 + k) → k ≤ j))) ∧
  (∀ (s : State) (d : Nat), (s.dist d).halted = false → (s.die d).contained = false →
    (∀ cand core, Tab.get? (s.dist d).cands cand = none → ∃ t, exec (.place d cand core) s = .next t ∧ Spec.pstat t d = 0x25 ∧ t.crews = s.crews) ∧
    (∀ cand core c, Tab.get? (s.dist d).cands cand = some c → 256 ≤ core → ∃ t, exec (.place d cand core) s = .next t ∧ Spec.pstat t d = 0x25 ∧ t.crews = s.crews) ∧
    (∀ cand core c, Tab.get? (s.dist d).cands cand = some c → core < 256 → s.limitRefuses (d * 256 + core) c.proc c.clmask (tWaves c.record.toNat) = false →
      (s.freeCrewSlot (d * 256 + core) = none ∨ s.coreOpen (d * 256 + core) = false) → ∃ t, exec (.place d cand core) s = .next t ∧ Spec.pstat t d = 7 ∧ t.crews = s.crews) ∧
    (∀ cand core c, Tab.get? (s.dist d).cands cand = some c → core < 256 → s.limitRefuses (d * 256 + core) c.proc c.clmask (tWaves c.record.toNat) = true → c.kind = 1 →
      ∃ t, exec (.place d cand core) s = .next t ∧ Spec.pstat t d = 0x24 ∧ t.crews = s.crews ∧ (t.dist d).cands = (s.dist d).cands) ∧
    (∀ cand core c id s1, Tab.get? (s.dist d).cands cand = some c → core < 256 → s.limitRefuses (d * 256 + core) c.proc c.clmask (tWaves c.record.toNat) = false →
      (s.freeCrewSlot (d * 256 + core)).isSome = true → s.coreOpen (d * 256 + core) = true → c.kind = 1 → s.launch d (d * 256 + core) c = some (id, s1) → (s1.dist d).waiting = [] →
      ∃ t, exec (.place d cand core) s = .next t ∧ Spec.pstat t d = id % 2 ^ 24 * 256 ∧ t.crews = s1.crews ∧ t.waves = s1.waves ∧ Tab.get? (t.dist d).cands cand = none) ∧
    (∀ src dst count, (256 ≤ src ∨ 256 ≤ dst ∨ count = 0 ∨ 31 < count ∨ src = dst) → ∃ t, exec (.migrate d src dst count) s = .next t ∧ Spec.pstat t d = 0x25 ∧ t.crews = s.crews) ∧
    (∀ src dst count, src < 256 → dst < 256 → 0 < count → count ≤ 31 → src ≠ dst → s.crews = [] → ∃ t, exec (.migrate d src dst count) s = .next t ∧ Spec.pstat t d = 0) ∧
    (∀ src dst count c k, src < 256 → dst < 256 → 0 < count → count ≤ 31 → src ≠ dst → s.crews = [(c, k)] → s.runq = [c] → k.core = d * 256 + src → k.place = .cave → k.gang = none → k.moveTo = none →
      s.limitRefuses (d * 256 + dst) k.proc (s.srcMask k.task) 0 = false →
      ∃ t k', exec (.migrate d src dst count) s = .next t ∧ Spec.pstat t d = 256 ∧ t.crew? c = some k' ∧ k'.core = d * 256 + dst ∧ k'.slot = 0 ∧ k'.newBase = true ∧ k'.scratch = k.scratch) ∧
    (∀ crew reason, reason < 16 → s.crew? (d * 2 ^ 24 + crew) = none → ∃ t, exec (.preempt d crew reason) s = .next t ∧ Spec.pstat t d = 0x25) ∧
    (∀ crew reason, 16 ≤ reason → ∃ t, exec (.preempt d crew reason) s = .next t ∧ Spec.pstat t d = 0x25 ∧ t.crews = s.crews) ∧
    (∀ crew reason k, reason < 16 → s.crew? (d * 2 ^ 24 + crew) = some k → k.place ≠ .resident → ∃ t, exec (.preempt d crew reason) s = .next t ∧ Spec.pstat t d = 3 ∧ t.crews = s.crews) ∧
    (∀ crew reason k, reason < 16 → crew < 2 ^ 24 → s.crew? (d * 2 ^ 24 + crew) = some k → k.place = .resident → k.gang = none →
      ∃ t, exec (.preempt d crew reason) s = .next t ∧ Spec.pstat t d = crew * 256 ∧ t.crew? (d * 2 ^ 24 + crew) = some { k with preempt := some reason, part := false } ∧
        t.inflight = s.inflight ++ [.crewDeschedule (d * 2 ^ 24 + crew)]) ∧
    (∀ cluster mask, (16 ≤ cluster ∨ 2 ^ 16 ≤ mask) → ∃ t, exec (.preemptPartition d cluster mask) s = .next t ∧ Spec.pstat t d = 0x25 ∧ t.crews = s.crews) ∧
    (∀ cluster mask, cluster < 16 → mask < 2 ^ 16 → s.crews = [] → ∃ t, exec (.preemptPartition d cluster mask) s = .next t ∧ Spec.pstat t d = 0 ∧ t.crews = [])) ∧
  (∀ (s : State) (d cand core crew reason src dst count cluster mask : Nat), ((s.dist d).halted = true ∨ (s.die d).contained = true) → reason < 16 →
    exec (.place d cand core) s = .next s ∧ exec (.migrate d src dst count) s = .next s ∧ exec (.preempt d crew reason) s = .next s ∧ exec (.preemptPartition d cluster mask) s = .next s)

/-- R329, R330, R331, R340: what a placement makes: a crew on the core, of the record's allocation and source, whose waves have the record's width, registers, private bytes and entry, s0 its argument and s1 to s3 its block coordinates, and thread numbers from the member index. -/
def Sys2Proof.Spec.Launches : Prop :=
  ∀ (s s' : State) (d core id : Nat) (c : Cand), s.launch d core c = some (id, s') → Spec.okRecord c.record.toNat → (∀ e ∈ s.crews, e.1 ≠ id) →
    let n := c.record.toNat
    ∃ k, s'.crew? id = some k ∧ k.core = core ∧ k.proc = c.proc ∧ 1024 * Spec.fld n 128 8 + 128 ≤ k.bytes ∧ k.bytes < 1024 * Spec.fld n 128 8 + 128 + 4096 ∧ k.validtrap = n.testBit 116 ∧ k.place = .queued ∧
      k.task = some { die := d, kind := c.kind, ix := c.src, node := c.node, succ := Spec.fld n 256 48, utag := Spec.fld n 320 64 } ∧
      k.members.length = Spec.fld n 117 5 + 1 ∧
      ∀ m w, Tab.get? k.members m = some w → ∃ v, s'.wave? w = some v ∧ v.crew = id ∧ v.proc = c.proc ∧ v.width = Spec.fld n 48 8 ∧ v.nvregs = Spec.fld n 56 8 ∧ v.priv = Spec.fld n 144 16 * 16 ∧
        (∀ l < v.width, ∃ x, Tab.get? v.fibres l = some x ∧ x.pc = BitVec.ofNat 48 (Spec.fld n 0 48)) ∧
        v.sreg 0 = BitVec.ofNat 64 (Spec.fld n 64 48) ∧ v.sreg 1 = BitVec.ofNat 64 (Spec.fld n 160 16) ∧ v.sreg 2 = BitVec.ofNat 64 (Spec.fld n 176 16) ∧ v.sreg 3 = BitVec.ofNat 64 (Spec.fld n 192 16) ∧
        v.launch = BitVec.ofNat 32 (d * 2 ^ 29 + (s.dist d).launched % 2 ^ 29) ∧ v.masks = [] ∧ v.dead = false ∧ v.suspended = false

/-- R326, R327, R331, R335, R336, R348, R460: a task that completes decrements its successor block and its graph's counters, or its launch port's INFLIGHT, after the release of its crew's writes; GKICK starts a replay or waits, the fifth waiting kick of a die being lost with OVF; GLOAD and TQREG answer in GSTAT; a launch port's record enters the table under
its entry's limit. -/
def Obligations.GraphsAndQueues : Prop :=
  ∀ (s : State) (d who : Nat), 2 ≤ who → who < 16 →
    (∀ ix node proc crew, (∀ e ∈ s.acks, e.2.crew ≠ crew) → s.orphanWrites = false →
      exec (.taskComplete d 0 ix node 0 proc crew) s = .next s ∧
      (Tab.get? (s.dist d).graphs ix = none → exec (.taskComplete d 1 ix node 0 proc crew) s = .next s) ∧
      (∀ g, (Tab.get? (s.dist d).graphs ix = some g → g.edges.getD node [] = [] → 1 < g.left → ∃ t, exec (.taskComplete d 1 ix node 0 proc crew) s = .next t ∧
          Tab.get? (t.dist d).graphs ix = some { g with left := g.left - 1 })) ∧
      (∀ block n, s.rdN block 8 = n → 1 < n → block ≠ 0 → Spec.plainSpan s block 8 → Memory.wf s.mem = true →
        ∃ t, exec (.taskComplete d 0 ix node block proc crew) s = .next t ∧ t.rdN block 8 = n - 1 ∧ ∀ k, (k < block ∨ block + 8 ≤ k) → t.rd8 k = s.rd8 k) ∧
      (s.ports = [] → ix < 256 → 0 < Spec.fld (s.reg d (0x10000 + 16 * ix + 8)) 32 16 → ∃ t, exec (.taskComplete d 2 ix node 0 proc crew) s = .next t ∧
        Spec.fld (t.reg d (0x10000 + 16 * ix + 8)) 32 16 = Spec.fld (s.reg d (0x10000 + 16 * ix + 8)) 32 16 - 1 ∧ Spec.fld (t.reg d (0x10000 + 16 * ix + 8)) 0 32 = Spec.fld (s.reg d (0x10000 + 16 * ix + 8)) 0 32)) ∧
    (∀ kind ix node succ proc crew, (∃ e ∈ s.acks, e.2.crew = crew) → exec (.taskComplete d kind ix node succ proc crew) s = .next { s with inflight := s.inflight ++ [.taskComplete d kind ix node succ proc crew] }) ∧
    (∀ g x p rest, Tab.get? (s.dist d).graphs g = some x → x.kicks = p :: rest → (x.active = true → exec (.graphReplayStart d g) s = .next s) ∧
      (x.active = false → p = 0 → x.npred ≠ [] → (∀ m ∈ x.npred, m ≠ 0) → ∃ t, exec (.graphReplayStart d g) s = .next t ∧
        Tab.get? (t.dist d).graphs g = some { x with kicks := rest, active := true, counters := x.npred, left := x.npred.length } ∧ t.mem = s.mem)) ∧
    (∀ v x, Tab.get? (s.dist d).graphs (v.toNat % 16) = some x → (x.active = true ∨ x.kicks ≠ []) →
      let waiting := (((s.dist d).graphs.map (fun e => e.2.kicks.length)).foldl (· + ·) 0)
      (waiting < 4 → ∃ t, exec (.gkick who d v) s = .next t ∧ Tab.get? (t.dist d).graphs (v.toNat % 16) = some { x with kicks := x.kicks ++ [Spec.fld v.toNat 8 44 * 16] }) ∧
      (4 ≤ waiting → ∃ t, exec (.gkick who d v) s = .next t ∧ (t.reg d 0x2010).testBit 16 = true ∧ (t.dist d).graphs = (s.dist d).graphs)) ∧
    (∀ v, Tab.get? (s.dist d).graphs (v.toNat % 16) = none → exec (.gkick who d v) s = .next s) ∧
    (∀ v,
      let g := v.toNat % 16
      let a := Spec.fld v.toNat 6 42 * 64
      let h := s.rdN a 64
      Spec.plainSpan s a 64 →
      (∀ x, Tab.get? (s.dist d).graphs g = some x → x.active = true → ∃ t, exec (.gload who d v) s = .next t ∧ Spec.fld (t.reg d 0x2010) 20 12 = g + 7 * 16 ∧ (t.dist d).graphs = (s.dist d).graphs) ∧
      (∀ p, (s.dist d).graphs = [] → Spec.fld h 48 16 = 0 → Spec.fld h 115 13 = 0 → Spec.fld h 144 8 = 0 → Spec.fld h 176 336 = 0 → Spec.fld h 16 32 ≤ 262144 → s.procAt d (Spec.fld h 152 24) = some p →
        ∃ t x, exec (.gload who d v) s = .next t ∧ Spec.fld (t.reg d 0x2010) 20 12 = g ∧ Tab.get? (t.dist d).graphs g = some x ∧ x.image = a ∧ x.proc = p ∧ x.prio = Spec.fld h 112 3 ∧ x.clmask = Spec.fld h 128 16 ∧
          x.done = Spec.fld h 64 48 ∧ x.npred.length = Spec.fld h 0 16 + 1 ∧ x.nedges = Spec.fld h 16 32 ∧ x.active = false ∧ x.kicks = [])) ∧
    (∀ v : W64, (v.toNat % 128 ≠ 0 ∨ 2 ^ 48 ≤ v.toNat) → ∃ t, exec (.tqreg who d v) s = .next t ∧ Spec.fld (t.reg d 0x2010) 32 8 = 0x25 ∧ t.tqs = s.tqs) ∧
    (∀ (v : W64) p id slot, v.toNat % 128 = 0 → v.toNat < 2 ^ 48 → s.qcbBad d v.toNat = false → s.procAt d (s.qcb v.toNat 12 4 % 2 ^ 24) = some p → s.tqs = [] → s.freeEntry d = some id → s.emptySlot p = some slot → slot < 4096 →
      ∃ t, exec (.tqreg who d v) s = .next t ∧ Tab.get? t.tqs id = some { qcb := v.toNat, die := d, ix := 0, proc := p } ∧ Spec.fld (t.reg d 0x2010) 32 30 = slot * 2 ^ 18 ∧
        t.inflight = s.inflight ++ [.queueRecordTake id] ∧ (t.obj id).kind = 7) ∧
    (∀ port po, Tab.get? s.ports port = some po → po.queue = [] → exec (.launchPortRecordLaunch port) s = .next s) ∧
    (∀ port, Tab.get? s.ports port = none → exec (.launchPortRecordLaunch port) s = .next s) ∧
    (∀ port po m q e, Tab.get? s.ports port = some po → po.queue = [(m, q)] → po.launch = true → m.inl.length = 64 → s.launchEntry (objDie port) m.tenant po.proc = some e → (s.die (objDie port)).contained = false →
      (s.dist (objDie port)).cands = [] → (s.dist (objDie port)).fifo.length < 256 → Spec.fld (s.reg (objDie port) (0x10000 + 16 * e + 8)) 32 16 < Spec.fld (s.reg (objDie port) (0x10000 + 16 * e + 8)) 0 16 → Spec.okRecord (ofBytes m.inl) →
      let pcap := Spec.fld (s.reg (objDie port) (0x10000 + 16 * e)) 1 3
      ∃ t c, exec (.launchPortRecordLaunch port) s = .next t ∧ (t.dist (objDie port)).cands = [(0, c)] ∧ c.kind = 2 ∧ c.src = e ∧ c.proc = po.proc ∧ c.sprio = min (Spec.fld (ofBytes m.inl) 112 3) pcap ∧
        Spec.fld c.record.toNat 112 3 = min (Spec.fld (ofBytes m.inl) 112 3) pcap ∧ Spec.fld c.record.toNat 0 112 = Spec.fld (ofBytes m.inl) 0 112 ∧ ∃ p, Tab.get? t.ports port = some p ∧ p.queue = [])

namespace Sys2Proof.Spec
/-- The bits of a debug register that a write sets (R362). -/
def debugMask (i : Nat) : Nat :=
  if i = 0 then 7 else if i = 1 then 2 ^ 48 - 3 else if i < 8 then 0 else if i < 0x10 then 2 ^ 48 - 1 else if i < 0x18 then 2 ^ 64 - 1 else if i < 0x20 then 2 ^ 12 - 1
  else if i < 0x24 then 2 ^ 48 - 1 else if i < 0x28 then 2 ^ 32 - 1 else if i = 0x28 then 2 ^ 34 - 1 else if i = 0x29 then 2 ^ 57 - 2 ^ 6 else if i = 0x38 then 2 ^ 22 - 1 else 0
end Sys2Proof.Spec

/-- R347, R362, R363, R364, R371, R373, R417: outside debug mode dbg.rd and dbg.wr trap with MODE SUB 1; in debug mode they read and write the core's debug block: a register keeps the written bits of its writable fields, read-only ones take no write. Writes from outside of SAMPCTL, WDATA, STOPREL and RESUME act the same, where
the writer may write. -/
def Sys2Proof.Spec.DebugBlock : Prop :=
  (∀ (f : GR) (s : State) (v : Wave) (r : Run),
    (Issues (.dbgRd f) s v r → v.dbg.isSome = true →
      exec (.dbgRd f) s = Spec.statusDone (.dbgRd f) f.d.toNat (s.readDbg (s.coreOf v) (Spec.uA f (s.ctx v r (.dbgRd f)) % 256)).toNat s s v r) ∧
    (Issues (.dbgWr f) s v r → v.dbg.isSome = true →
      exec (.dbgWr f) s = Spec.done (.dbgWr f) s v r { s := s.writeDbg (s.coreOf v) (Spec.uA f (s.ctx v r (.dbgWr f)) % 256) (readB (s.ctx v r (.dbgWr f)) f) }) ∧
    (∀ q ∈ [Instr.dbgRd f, .dbgWr f], Issues q s v r → v.dbg = none →
      ∃ t, exec q s = .next (s.issueTrap s.turn v r t (s.ctx v r q).site) ∧ t.cause = 6 ∧ t.sub = 1 ∧ t.lanes = maskOf (s.ctx v r q).lanes)) ∧
  (∀ (s : State) (core i : Nat) (x : W64),
    (i ≠ 0x39 → Spec.debugMask i = 0 → s.writeDbg core i x = s) ∧
    (Spec.debugMask i ≠ 0 → i ≠ 0 → ((s.writeDbg core i x).readDbg core i).toNat = x.toNat &&& Spec.debugMask i ∧
      ∀ j < 0x39, j ≠ i → (s.writeDbg core i x).readDbg core j = s.readDbg core j) ∧
    (((s.writeDbg core 0 (x &&& 7)).readDbg core 0).toNat = x.toNat % 8) ∧
    ((s.writeDbg core 0x28 x).core core).sampLeft = Spec.fld x.toNat 1 16 + 1) ∧
  (∀ (s : State) (who core : Nat),
    (s.mayWrite who (core / 256) .h = true → ∀ (x : W64) (m : W32),
      exec (.sampctlWrite who core x) s = .next (s.writeDbg core 0x28 x) ∧ exec (.wdataAccess who core false x) s = .next s ∧
      (∀ w v, s.selected core = some (w, v) → exec (.wdataAccess who core true x) s = .next (s.setWave w (v.poke (s.dreg core 0x38).toNat x))) ∧
      (s.selected core = none → exec (.wdataAccess who core true x) s = .next s) ∧
      (∃ t, exec (.stoprel who core) s = .next t ∧ ∀ w v, t.wave? w = some v → v.stopped = true → t.coreOf v / 16 ≠ core / 16) ∧
      (∃ t, exec (.dbgctlResume who core m) s = .next t ∧ ∀ w v, t.wave? w = some v → t.coreOf v = core → m.toNat.testBit v.wslot = true → v.stopped = false)) ∧
    (s.mayWrite who (core / 256) .h = false → ∀ (x : W64) (m : W32) (wr : Bool), ∀ i ∈ [Instr.sampctlWrite who core x, .wdataAccess who core wr x, .stoprel who core, .dbgctlResume who core m], exec i s = .next s)) ∧
  (∀ (v : Wave) (num lane : Nat) (x : W64), num < 64 → lane < 64 →
    (v.dbg = none → (v.poke (num * 256) x).sreg num = x ∧ v.peek (num * 256) = v.sreg num) ∧
    (num < v.nvregs → (v.fibre? lane).isSome = true → (v.poke (32 + num * 256 + lane * 65536) x).row lane num = BitVec.ofNat 32 x.toNat ∧ v.peek (32 + num * 256 + lane * 65536) = BitVec.ofNat 64 (v.row lane num).toNat) ∧
    (num < 12 → (v.poke (96 + num * 256) x).mask num = x &&& laneMask v.width) ∧ (v.poke 160 x).fpflags = BitVec.ofNat 5 x.toNat)

/-- R369, R372, R374, R375, R376: a stop freezes the waves it names and writes their SKID words; a sample record is stamped and written to the ring; a common trigger makes every die latch its block; a die that still holds one counts the miss; SNAPCLR frees it. -/
def Sys2Proof.Spec.StopsAndSnapshots : Prop :=
  ∀ (s : State),
    (∀ core, (s.core core).stop = none → exec (.stopEffect core) s = .next s) ∧
    (∀ core q, (s.core core).stop = some q → (Tab.keys s.waves).Nodup → ∃ t, exec (.stopEffect core) s = .next t ∧ (t.core core).stop = none ∧ (t.core core).stopped = true ∧
      (∀ w v, s.wave? w = some v → v.dead = false → s.coreOf v = core → s.isResident v = true → v.dbg = none → (q.crew = none ∨ q.crew = some v.crew) → t.wave? w = some { v with stopped := true }) ∧
      (∀ w v, s.wave? w = some v → (v.dead = true ∨ s.coreOf v ≠ core ∨ v.dbg.isSome = true) → t.wave? w = some v)) ∧
    (∀ core (rec_ : BitVec 512),
      let base := (s.dreg core 0x29).toNat
      let n := (s.dreg core 0x2A).toNat
      let a := Spec.fld base 6 46 * 64 % 2 ^ 48 + 64 * (n % 2 ^ (Spec.fld base 52 5))
      rec_.toNat / 2 ^ 288 % 2 ^ 64 = 0 → Memory.wf s.mem = true → (∀ i < 64, Spec.plainAt s (a + i) ∧ keyDie (a + i) = core / 256) → a + 64 ≤ 2 ^ 40 →
      ∃ t, exec (.sampleRecordWrite core rec_) s = .next t ∧ (t.dreg core 0x2A).toNat = (n + 1) % 2 ^ 64 ∧
        t.rdN a 64 = rec_.toNat + s.tickOf (core / 256) % 2 ^ 48 * 2 ^ 288 + (s.die (core / 256)).seq.toNat * 2 ^ 336 ∧ ∀ k, (k < a ∨ a + 64 ≤ k) → t.rd8 k = s.rd8 k) ∧
    (∀ die, (s.die die).snap.held = true → exec (.snapshotLatch die) s = .next (s.modDie die (fun x => { x with snap := { x.snap with miss := (x.snap.miss + 1) % 256 } }))) ∧
    (∀ die, (s.die die).snap.held = false → ∃ t, exec (.snapshotLatch die) s = .next t ∧ (t.die die).snap.held = true ∧ (t.die die).snap.tick = s.tickOf die % 2 ^ 48 ∧ (t.die die).snap.miss = (s.die die).snap.miss ∧
      (t.die die).snap.dir = BitVec.ofNat 64 (s.dirOf (s.reg die 0x180018 % 2 ^ 48 / 128)).word ∧ (t.die die).seq = (s.die die).seq + 1 ∧ t.waves = s.waves ∧ t.mem = s.mem) ∧
    exec .snaptrig s = .next { s with inflight := s.inflight ++ (List.range 8).map Instr.snapshotLatch } ∧
    (∀ who die, s.mayWrite who die .h = true → exec (.snapgo who die) s = exec .snaptrig s ∧ exec (.snapclr who die) s = .next (s.modDie die (fun x => { x with snap := {} }))) ∧
    (∀ who die, s.mayWrite who die .h = false → exec (.snapgo who die) s = .next s ∧ exec (.snapclr who die) s = .next s)

/-! ## Registers, lease, boot, heartbeat -/

namespace Sys2Proof.Spec
/-- The last record of a die's ring (R402), and that it is a machine check of a cause and SUB. -/
def lastCheck (s : State) (d : Nat) : Nat := (((s.die d).mcRing.getLast?).getD 0).toNat
def checked (t : State) (d cause sub : Nat) : Prop := fld (lastCheck t d) 0 8 = cause ∧ fld (lastCheck t d) 8 8 = sub ∧ fld (lastCheck t d) 16 2 = 2
/-- STAGE, PASS and ERR of BOOTSTAT (R353). -/
def stage (s : State) (d : Nat) : Nat := fld (s.reg d 8) 0 4
def pass (s : State) (d : Nat) : Bool := (s.reg d 8).testBit 4
def err (s : State) (d : Nat) : Nat := fld (s.reg d 8) 16 8
/-- Registers that hold what is written, with their writable bits: offset, mask (R347, R308, R327, R344, R357, R374, R464, R467, R471). -/
def plainRegs : List (Nat × Nat) :=
  [(0x20, 0xFFFF), (0x28, 0x1FFFF), (0x40, 2 ^ 64 - 1), (0x48, 2 ^ 64 - 1), (0x3008, 2 ^ 64 - 1), (0x3030, 2 ^ 64 - 1), (0x4000, 2 ^ 48 - 1), (0x6000, 2 ^ 64 - 1), (0x6010, 2 ^ 64 - 1), (0x6018, 2 ^ 64 - 1),
   (0x10000, 0xFFFFFFFFFF000F), (0xC0000, 0xFFFF), (0xC0020, 2 ^ 32 - 1), (0xC0028, 2 ^ 32 - 1), (0x71000, 2 ^ 64 - 1), (0x180018, 2 ^ 64 - 1)]
/-- The writable bits of the words of a format window (R188). -/
def fmtWord (k : Nat) : Nat := if k = 0 then 0x1FF else if k = 3 then 2 ^ 52 - 2 ^ 5 else 2 ^ 52 - 2 ^ 12
/-- Old bits outside a mask, new bits inside. -/
def merged (old new mask : Nat) : Nat := (old &&& (2 ^ 64 - 1 - mask)) ||| (new &&& mask)
end Sys2Proof.Spec

/-- R347, R349, R354: a host never writes a register of class S, and writes one of class H only while it holds the lease and the die has PASS: a write that may not be made changes nothing. -/
def Sys2Proof.Spec.Writers : Prop :=
  ∀ (s : State) (who d off : Nat) (v : W64) (n : Nat),
    (s.mayWrite who d .s = true ↔ 2 ≤ who ∧ who < 16) ∧
    (s.mayWrite who d .h = true ↔ (2 ≤ who ∧ who < 16) ∨ (who < 2 ∧ Spec.pass s d = true ∧ s.host.valid = true ∧ s.host.holder = who ∧ (s.host.noexp = true ∨ s.tickOf 0 < s.host.expiry))) ∧
    (who < 2 → ∀ i ∈ [Instr.fmtwinWrite who d off v, .plimitWrite who d v, .trlognWrite who d v, .dload who d v, .strokeWrite who d v, .contclr who d v, .diereset who d v], exec i s = .next s) ∧
    (16 ≤ who → who ≠ 16 + d → exec (.registerWrite who d off v) s = .next s) ∧
    (who < 16 → s.mayWrite who d .h = false → ∀ i ∈ [Instr.gkick who d v, .gload who d v, .tqreg who d v, .snapgo who d, .snapclr who d, .pnew who d v, .suspend who d v, .resume who d v, .kill who d v, .orphan who d,
      .shoot who d v v v v, .readCmd who d v v, .pool who d v v, .unknownCommand who d n, .registerWrite who d 0x3000 v, .registerWrite who d 0x2010 v, .registerWrite who d 0x3008 v], exec i s = .next s)

/-- R188, R344, R347, R348, R356, R361, R362, R437: a permitted write changes the writable bits of its register and no other register; a format window takes a legal setting, word by word, and refuses any other with ERR 0x31; PLIMIT and TRLOGN are clamped; OVF is cleared by writing 1; DLOAD asks for a load. -/
def Sys2Proof.Spec.RegisterWrites : Prop :=
  ∀ (s : State) (who d : Nat) (v : W64), 2 ≤ who → who < 16 →
    (∀ p ∈ Spec.plainRegs, ∃ t, exec (.registerWrite who d p.1 v) s = .next t ∧ t.reg d p.1 = Spec.merged (s.reg d p.1) v.toNat p.2 ∧ ∀ k off, (k ≠ d ∨ off ≠ p.1) → t.reg k off = s.reg k off) ∧
    (∀ off ∈ [0x00, 0x18, 0x3038, 0xC0008, 0xC0108, 0x180010], exec (.registerWrite who d off v) s = .next s) ∧
    (exec (.registerWrite who d 0x3000 v) s = exec (.unknownCommand who d (v.toNat % 256)) s) ∧
    (v.getLsbD 16 = true → ∃ t, exec (.registerWrite who d 0x2010 v) s = .next t ∧ t.reg d 0x2010 = Spec.merged (s.reg d 0x2010) 0 (2 ^ 16)) ∧
    (∀ core i, core < 256 → i < 0x100 → i ≠ 0x39 → exec (.registerWrite who d (0x100000 + core * 0x800 + 8 * i) v) s = .next (s.writeDbg (d * 256 + core) i v)) ∧
    (∃ t, exec (.plimitWrite who d v) s = .next t ∧ t = { s with host := { s.host with plimit := max 1500 (min 4500 (v.toNat % 2 ^ 13)) } }) ∧
    (∃ t, exec (.trlognWrite who d v) s = .next t ∧ t.reg d 0x6008 = max 4 (min 20 v.toNat)) ∧
    (∃ t, exec (.dload who d v) s = .next t ∧ (t.die d).dload = some (v.toNat % 2 ^ 48) ∧ (t.reg d 0x40008).testBit 8 = true) ∧
    (∀ off, off % 8 = 0 →
      let i := off % 512 / 32
      let j := off % 32 / 8
      let old := (Tab.getD (s.die d).fmtwin i 0).toNat
      ∃ n : Nat, n < 2 ^ 256 ∧ (∀ k < 4, n / 2 ^ (64 * k) % 2 ^ 64 = if k = j then Spec.merged (old / 2 ^ (64 * k) % 2 ^ 64) v.toNat (Spec.fmtWord k) else old / 2 ^ (64 * k) % 2 ^ 64) ∧
        ((n % 2 = 0 ∨ fmtOk d n = true) → ∃ t, exec (.fmtwinWrite who d off v) s = .next t ∧ (Tab.getD (t.die d).fmtwin i 0).toNat = n ∧ ∀ k, k ≠ i → Tab.get? (t.die d).fmtwin k = Tab.get? (s.die d).fmtwin k) ∧
        (n % 2 = 1 → fmtOk d n = false → ∃ t, exec (.fmtwinWrite who d off v) s = .next t ∧ (t.die d).fmtwin = (s.die d).fmtwin ∧ Spec.err t d = 0x31)) ∧
    (∀ n, fmtOk d n = true → ∃ f, Fmt.ofCode (FmtWin.of (BitVec.ofNat 256 n)).fmt = some f ∧ (f.isB8 = true ∨ f.isB4 = true) ∧
      d * 2 ^ 37 ≤ (FmtWin.of (BitVec.ofNat 256 n)).base ∧ (FmtWin.of (BitVec.ofNat 256 n)).base < (FmtWin.of (BitVec.ofNat 256 n)).limit ∧ (FmtWin.of (BitVec.ofNat 256 n)).limit < (d + 1) * 2 ^ 37)

/-- R350, R351, R466: a port takes a lease that no other port holds, for TERM times 10,000 ticks of CD0, and the vectors that wait go to it; without a term only while the other port's link is down; it gives the lease back. A write of a port while the other holds the lease does nothing. A lease that has run out, or whose link is lost, ends with a
LEASE record. -/
def Sys2Proof.Spec.Lease : Prop :=
  ∀ (s : State) (p term : Nat), p < 2 → Spec.pass s 0 = true →
    (s.host.valid = false → 0 < term % 2 ^ 16 → s.tickOf 0 + 10000 * (term % 2 ^ 16) < 2 ^ 48 → ∃ t, exec (.leaseTake p term) s = .next t ∧
      t.host.valid = true ∧ t.host.holder = p ∧ t.host.noexp = false ∧ t.host.expiry = s.tickOf 0 + 10000 * (term % 2 ^ 16) ∧ t.host.pendingVec = [] ∧ t.host.raised = s.host.raised ++ s.host.pendingVec.map (fun x => (p, x))) ∧
    (s.leased = true → s.host.holder ≠ p → exec (.leaseTake p term) s = .next s ∧ exec (.leaseTakeNoexp p) s = .next s ∧ exec (.leaseRelease p) s = .next s) ∧
    (s.leased = true → s.host.holder = p → ∃ t, exec (.leaseRelease p) s = .next t ∧ t = { s with host := { s.host with valid := false } }) ∧
    (s.host.valid = false → (1 - p) ∈ s.host.down → ∃ t, exec (.leaseTakeNoexp p) s = .next t ∧ t.host.valid = true ∧ t.host.holder = p ∧ t.host.noexp = true) ∧
    (s.host.valid = false → (1 - p) ∉ s.host.down → exec (.leaseTakeNoexp p) s = .next s) ∧
    (s.host.valid = true → s.host.noexp = false → s.host.expiry ≤ s.tickOf 0 → ∃ t, exec (.leaseExpiry false) s = .next t ∧ t.host.valid = false ∧ Spec.checked t 0 0x4A 0 ∧ Spec.fld (Spec.lastCheck t 0) 480 2 = s.host.holder % 2) ∧
    (s.host.valid = true → s.host.noexp = true → s.host.holder ∈ s.host.down → ∃ t, exec (.leaseExpiry true) s = .next t ∧ t.host.valid = false ∧ Spec.checked t 0 0x4A 0 ∧ Spec.fld (Spec.lastCheck t 0) 480 2 = s.host.holder % 2 + 2) ∧
    ((s.host.valid = false ∨ s.leased = true) → exec (.leaseExpiry false) s = .next s)

/-- R353, R354, R355, R357, R467, R480: self-test and verification set STAGE, PASS, ERR and the measurement log; a die's result reaches every other; the wait ends with the eighth result or after 2,000,000 ticks, and the lowest-numbered die that passed becomes the stroke die; STROKE and HEARTBEAT are taken as written, from where they may come; a lapse is
recorded and reported once, and the lowest die that may succeed takes the office and resets the old one. -/
def Sys2Proof.Spec.BootAndHeartbeat : Prop :=
  ∀ (s : State) (d : Nat), d < 8 →
    (Spec.stage s d ≤ 1 → (∃ t, exec (.selfTestDone d 0) s = .next t ∧ Spec.stage t d = 2 ∧ Spec.pass t d = Spec.pass s d ∧ Spec.err t d = Spec.err s d) ∧
      ∀ e, 0 < e → e < 256 → ∃ t, exec (.selfTestDone d e) s = .next t ∧ Spec.stage t d = 1 ∧ Spec.err t d = e) ∧
    (1 < Spec.stage s d → ∀ e, exec (.selfTestDone d e) s = .next s) ∧
    (∀ body, Spec.stage s d = 2 → (s.die d).elected = false → (s.die d).passes = [] → (s.die d).log.length < 256 →
      (∃ t, exec (.firmwareVerifyDone d 0 body) s = .next t ∧ Spec.stage t d = 3 ∧ Spec.pass t d = true ∧ (t.die d).log = (s.die d).log ++ [sha256 body] ∧ (t.die d).digest = sha256 ((s.die d).digest ++ sha256 body) ∧
        (t.die d).passes = [(d, true)] ∧ t.inflight = s.inflight ++ ((List.range 8).filter (· != d)).map (fun k => .passBroadcast d k true)) ∧
      ∀ e, 0 < e → e < 256 → ∃ t, exec (.firmwareVerifyDone d e body) s = .next t ∧ Spec.stage t d = 2 ∧ Spec.err t d = e ∧ Spec.pass t d = Spec.pass s d ∧ (t.die d).passes = [(d, false)]) ∧
    (∀ src ok, ((s.die d).elected = true → exec (.passBroadcast src d ok) s = .next s) ∧
      ((s.die d).elected = false → (s.die d).passes.length < 7 → (∀ e ∈ (s.die d).passes, e.1 ≠ src) → exec (.passBroadcast src d ok) s = .next (s.modDie d (fun x => { x with passes := x.passes ++ [(src, ok)] })))) ∧
    (((s.die d).elected = true ∨ s.tickOf d < 2000000) → exec (.electionTimeout d) s = .next s) ∧
    ((s.die d).elected = false → 2000000 ≤ s.tickOf d → Spec.pass s d = true → (∀ k < 8, (s.reg k 0x10).testBit 3 = false) → (d, true) ∈ (s.die d).passes → (∀ e ∈ (s.die d).passes, e.2 = true → d ≤ e.1) →
      ∃ t, exec (.electionTimeout d) s = .next t ∧ (t.die d).elected = true ∧ Spec.stage t d = 4 ∧ ∀ k < 8, Spec.pass s k = true → t.reg k 0x10 = d + 8) ∧
    (∀ x, (s.die d).elected = false → 2000000 ≤ s.tickOf d → Spec.pass s d = true → Spec.stage s d = 3 → (∀ k < 8, (s.reg k 0x10).testBit 3 = false) → x < d → (x, true) ∈ (s.die d).passes → (∀ e ∈ (s.die d).passes, e.2 = true → x ≤ e.1) →
      ∃ t, exec (.electionTimeout d) s = .next t ∧ t.reg d 0x10 = x + 8 ∧ Spec.stage t d = 3) ∧
    (∀ (v : W64) who, 2 ≤ who → who < 16 → (Spec.pass s d = false → exec (.strokeWrite who d v) s = .next s) ∧
      (Spec.pass s d = true → ∃ t, exec (.strokeWrite who d v) s = .next t ∧ t.reg d 0x10 = v.toNat % 16 ∧ (Spec.stage s d = 4 → v.toNat % 8 ≠ d → Spec.stage t d = 3))) ∧
    (∀ src (count : W32), (s.reg d 0x10 ≠ 8 + src → src < 8 → s.reg d 0x10 < 16 → exec (.heartbeatWrite d src count) s = .next s) ∧
      (s.reg d 0x10 = 8 + src → src < 8 → ∃ t, exec (.heartbeatWrite d src count) s = .next t ∧ t.reg d 0x18 = count.toNat + src * 2 ^ 32 ∧
        (s.reg d 0x18 % 2 ^ 32 ≠ count.toNat → (t.die d).hbAt = s.tickOf d ∧ (t.die d).lapseAt = none ∧ (t.die d).lapses = []))) ∧
    (∀ old, s.reg d 0x10 = 8 + old → old < 8 → old ≠ d → Spec.pass s d = true →
      (s.tickOf d < (s.die d).hbAt + s.reg d 0xC0028 → exec (.heartbeatLapse d) s = .next s) ∧
      ((s.die d).hbAt + s.reg d 0xC0028 ≤ s.tickOf d → (∀ k, (s.die k).lapseAt = none) → (∃ x < 8, x ≠ old ∧ x ≠ d ∧ (s.die x).lostDie = false ∧ x ∉ (s.die d).lapses) →
        ∃ t, exec (.heartbeatLapse d) s = .next t ∧ (t.die d).lapseAt = some (s.tickOf d) ∧ Spec.checked t d 0x4B 0 ∧ Spec.fld (Spec.lastCheck t d) 480 32 = old ∧
          t.inflight = s.inflight ++ ((List.range 8).filter (· != d)).map (fun k => .lapseBroadcast d k)) ∧
      (∀ src, (∀ k, (s.die k).lapseAt = none) → exec (.lapseBroadcast src d) s = .next (s.modDie d (fun x => { x with lapses := insertSet x.lapses src }))) ∧
      (∀ src t0, (s.die d).lapseAt = some t0 → (s.die d).lostDie = false → (∀ x < 8, x ≠ old → x ≠ d → (s.die x).lostDie = true ∨ x ∈ (s.die d).lapses ∨ x = src) → (∀ k < d, (s.die k).lapseAt = none) → (s.die old).lostDie = false →
        ∃ t, exec (.lapseBroadcast src d) s = .next t ∧ t.reg d 0x10 = d + 8 ∧ Spec.stage t d = 4 ∧ Spec.err t old = 0x20 ∧ (t.die old).tick0 = s.ticks))

/-- R356, R357, R358, R359, R360, R462: microcode that is accepted is measured and installed, and a halted distributor runs again, one that is refused leaves everything with BADDESC and ERR 0x30; a quote is asked once and answered with 384 bytes; the sideband gives its address, its alert and a package quote; a power step is 0 to 7. -/
def Sys2Proof.Spec.MeasurementAndSideband : Prop :=
  ∀ (s : State) (d who : Nat), 2 ≤ who → who < 16 →
    (∀ ok image, (s.die d).dload = none → exec (.microcodeInstall d ok image) s = .next s) ∧
    (∀ image a, (s.die d).dload = some a → (s.die d).log.length < 256 → ∃ t, exec (.microcodeInstall d true image) s = .next t ∧ (t.die d).dload = none ∧ (t.die d).log = (s.die d).log ++ [sha256 image] ∧
      (t.die d).digest = sha256 ((s.die d).digest ++ sha256 image) ∧ (t.dist d).cox = false ∧ (t.dist d).halted = false ∧ t.reg d 0x40008 = 0) ∧
    (∀ ok image a, (s.die d).dload = some a → (ok = false ∨ 256 ≤ (s.die d).log.length) → ∃ t, exec (.microcodeInstall d ok image) s = .next t ∧ (t.die d).dload = none ∧ t.dist d = s.dist d ∧ (t.die d).log = (s.die d).log ∧
      t.reg d 0x40008 = 0x25 ∧ Spec.err t d = 0x30) ∧
    ((s.die d).qreq = true → exec (.qreq who d) s = .next s) ∧ ((s.die d).qreq = false → exec (.qreq who d) s = .next (s.modDie d (fun x => { x with qreq := true, qbuf := [] }))) ∧
    (∀ sig, (s.die d).qreq = false → exec (.quoteComplete d sig) s = .next s) ∧
    (∀ sig, (s.die d).qreq = true → sig.length = 384 → exec (.quoteComplete d sig) s = .next (s.modDie d (fun x => { x with qreq := false, qbuf := sig }))) ∧
    (∀ nonce, nonce.length = 32 → ∃ t, exec (.quote nonce) s = .next t ∧ ∀ k < 8, (t.die k).qreq = true ∧ ∀ j < 4, t.reg k (0x71000 + 8 * j) = ofBytes ((nonce.drop (8 * j)).take 8)) ∧
    (∀ addr, exec (.entdaa addr) s = .next { s with host := { s.host with i3cAddr := some (addr % 128) } }) ∧
    exec .thermalPowerAlert s = .next { s with host := { s.host with i3cAlert := true } } ∧
    (∀ step, step < 8 → exec (.powerStepChange d step) s = .next (s.modDie d (fun x => { x with pstate := step }))) ∧ (∀ step, 8 ≤ step → exec (.powerStepChange d step) s = .next s)

/-! ## Coherence, hosts, other packages, errors and containment -/

namespace Sys2Proof.Spec
/-- No snoop of the line is under way (R225). -/
def noSnoop (s : State) (line : Nat) : Prop := ∀ m ∈ s.inflight, m ≠ .bisnpResponse line
/-- A line on which nothing is pending: no state between packages, no owner, no host copy, no snoop (R218, R221, R225). -/
def quiet (s : State) (line : Nat) : Prop :=
  Tab.get? s.pages (line / 32) = none ∧ (s.dirOf line).state ≠ 2#2 ∧ (s.dirOf line).state ≠ 3#2 ∧ (s.dirOf line).host = false ∧ noSnoop s line
/-- A die's RDC has room for one more line (R7). -/
def rdcRoom (s : State) (d : Nat) : Prop := (s.rdc.filter (fun e => e.1 / 2 ^ 64 == d)).length < 2 ^ 19
/-- A range that an agent outside may write: plain bytes of the package's memory, no lock, no future, no raw format window (R226, R241, R437, R457). -/
def openSpan (s : State) (a n : Nat) : Prop := plainSpan s a n ∧ s.locks = [] ∧ s.futures = [] ∧ a + n ≤ 2 ^ 40 ∧ Memory.wf s.mem = true
/-- Nothing of a die or cluster has processes: a machine check goes to the ring alone (R401, R402). -/
def idle (s : State) (sel : Nat → Bool) : Prop := ∀ e ∈ s.waves, e.2.dead = true ∨ sel (s.coreOf e.2) = false
end Sys2Proof.Spec

/-- R218, R219, R220, R225, R451: what the directory entry, the RDCs and memory hold after each request: a shared copy, ownership with a new version and no other copy, a host's copy asked for first and the request served after the answer, a write-back that is current and one that is not, its acknowledgement, a recall of the owner's bytes; an impossible state poisons the line and contains a die. SHARERS 0 of a line that a die owns, and STATE 0 with SHARERS 0 after a recall, are the model's choice (logs 77, 78). -/
def Obligations.Coherence : Prop :=
  ∀ (s : State) (d line : Nat),
    let e := s.dirOf line
    let key := d * 2 ^ 64 + line
    (s.mayAsk d line = false → exec (.readShared d line) s = .next s ∧ exec (.readForOwnership d line) s = .next s ∧ exec (.upgrade d line) s = .next s) ∧
    (s.mayAsk d line = true → Spec.quiet s line → Spec.rdcRoom s d → Tab.get? s.rdc key = none → ∃ t, exec (.readShared d line) s = .next t ∧
      t.dirOf line = { e with sharers := e.sharers ||| (1#8 <<< d), state := 1 } ∧ Tab.get? t.rdc key = some { excl := false, version := e.version } ∧ t.mem = s.mem ∧
      ∀ k, k ≠ key → Tab.get? t.rdc k = Tab.get? s.rdc k) ∧
    (∀ i ∈ [Instr.readForOwnership d line, .upgrade d line], s.mayAsk d line = true → Spec.quiet s line → Spec.rdcRoom s d → line < 2 ^ 64 → ∃ t r, exec i s = .next t ∧
      t.dirOf line = { e with sharers := 0, state := 2, owner := BitVec.ofNat 3 d, version := e.version + 1, host := false } ∧ Tab.get? t.rdc key = some r ∧ r.excl = true ∧ r.version = e.version + 1 ∧ t.mem = s.mem ∧
      ∀ k, k ≠ d → Tab.get? t.rdc (k * 2 ^ 64 + line) = none) ∧
    (∀ i ∈ [Instr.readForOwnership d line, .upgrade d line], s.mayAsk d line = true → Tab.get? s.pages (line / 32) = none → e.state ≠ 2#2 → e.state ≠ 3#2 → e.host = true → Spec.noSnoop s line →
      exec i s = .next { s with homeQ := Tab.modD s.homeQ line [] (fun q => q ++ [(d, true)]), inflight := s.inflight ++ [.bisnpResponse line] }) ∧
    (∀ i ∈ [Instr.readForOwnership d line, .upgrade d line], s.mayAsk d line = true → ¬ Spec.noSnoop s line →
      exec i s = .next { s with homeQ := Tab.modD s.homeQ line [] (fun q => q ++ [(d, true)]) }) ∧
    (∀ i ∈ [Instr.readForOwnership d line, .upgrade d line, .recallArrival line], s.mayAsk d line = true → Spec.noSnoop s line → e.state = 3#2 →
      ∃ t, exec i s = .next t ∧ (t.die (lineDie line)).contained = true ∧ ∀ j < 4, line * 4 + j ∈ t.mpoison) ∧
    (∀ r, Tab.get? s.rdc key = some r → Tab.get? s.wbBuf key = none → tracked (line * 128) = true → ∃ t, exec (.writeBack d line) s = .next t ∧ Tab.get? t.rdc key = none ∧ t.mem = s.mem ∧
      (r.excl = true → Tab.get? t.wbBuf key = some r ∧ t.inflight = s.inflight ++ [.writeBack d line]) ∧ (r.excl = false → t.wbBuf = s.wbBuf ∧ t.inflight = s.inflight)) ∧
    (∀ r, Tab.get? s.wbBuf key = some r → e.state ≠ 3#2 → Memory.wf s.mem = true → (Tab.keys r.dirty).Nodup →
      ∃ t, exec (.writeBack d line) s = .next t ∧ t.inflight = s.inflight ++ [.writeBackAck d line] ∧ Tab.get? t.wbBuf key = some r ∧
        ((e.state = 2#2 ∧ e.owner.toNat = d ∧ e.version = r.version) → t.dirOf line = { e with state := 0 } ∧ ∀ k, t.rd8 k = Tab.getD r.dirty k (s.rd8 k)) ∧
        (¬ (e.state = 2#2 ∧ e.owner.toNat = d ∧ e.version = r.version) → t.mem = s.mem ∧ t.dir = s.dir)) ∧
    (∀ r, Tab.get? s.wbBuf key = some r → exec (.writeBackAck d line) s = .next { s with wbBuf := Tab.del s.wbBuf key }) ∧
    (Tab.get? s.wbBuf key = none → ∃ t, exec (.writeBackAck d line) s = .next t ∧ (t.die d).contained = true) ∧
    (Spec.quiet s line → exec (.recallArrival line) s = .next s) ∧
    (∀ r, Tab.get? s.pages (line / 32) = none → e.state = 2#2 → Tab.get? s.rdc (e.owner.toNat * 2 ^ 64 + line) = some r → Memory.wf s.mem = true → (Tab.keys r.dirty).Nodup →
      ∃ t, exec (.recallArrival line) s = .next t ∧ t.dirOf line = { e with state := 0, sharers := 0 } ∧ Tab.get? t.rdc (e.owner.toNat * 2 ^ 64 + line) = none ∧ ∀ k, t.rd8 k = Tab.getD r.dirty k (s.rd8 k)) ∧
    (e.host = true → Tab.get? s.homeQ line = none → exec (.bisnpResponse line) s = .next { (s.setDir line { e with host := false }) with homeQ := Tab.del s.homeQ line }) ∧
    (e.host = true → Tab.get? s.homeQ line = some [(d, true)] → e.state ≠ 2#2 → Spec.rdcRoom s d → ∃ t r, exec (.bisnpResponse line) s = .next t ∧
      t.dirOf line = { e with sharers := 0, state := 2, owner := BitVec.ofNat 3 d, version := e.version + 1, host := false } ∧ Tab.get? t.rdc key = some r ∧ r.excl = true ∧ r.version = e.version + 1) ∧
    (e.host = false → ∃ t, exec (.bisnpResponse line) s = .next t ∧ (t.die (lineDie line)).contained = true ∧ ∀ j < 4, line * 4 + j ∈ t.mpoison) ∧
    ((s.cxlLine line = false ∨ Tab.get? s.rdc key = none) → exec (.hostSnoop d line) s = .next s) ∧
    (∀ r, s.cxlLine line = true → Tab.get? s.rdc key = some r → Memory.wf s.mem = true → (Tab.keys r.dirty).Nodup → ∃ t, exec (.hostSnoop d line) s = .next t ∧ Tab.get? t.rdc key = none ∧ ∀ k, t.rd8 k = Tab.getD r.dirty k (s.rd8 k))

/-- R225, R226, R345, R354: a host's accesses are performed at the home: a CXL.mem read marks its lines as held by a host, a BAR2 read does not, writes and AtomicOps change the bytes they name; without a link, without CXL mode, or before any die has passed, they do nothing. -/
def Sys2Proof.Spec.HostAccesses : Prop :=
  ∀ (s : State) (port addr n : Nat) (bytes : List Byte),
    let a := addr % 2 ^ 40
    (((∀ p ∈ s.cxl, p ∈ s.host.down) ∨ (∀ k < 8, s.passed k = false)) → exec (.hostCxlMemRead addr n) s = .next s ∧ exec (.hostCxlMemWrite addr bytes) s = .next s) ∧
    ((port ∈ s.host.down ∨ (∀ k < 8, s.passed k = false)) → exec (.hostBar2Read port addr n) s = .next s ∧ exec (.hostBar2Write port addr bytes) s = .next s ∧ ∀ op size b cmp, exec (.hostAtomicop port addr op size b cmp) s = .next s) ∧
    ((∃ p ∈ s.cxl, p ∉ s.host.down) → (∃ k < 8, s.passed k = true) → ∃ t, exec (.hostCxlMemRead addr n) s = .next t ∧ ∀ i < n, (t.dirOf ((a + i) / 128)).host = true) ∧
    (port ∉ s.host.down → (∃ k < 8, s.passed k = true) → (∀ i < n, Tab.get? s.pages ((a + i) / 4096) = none ∧ (s.dirOf ((a + i) / 128)).state ≠ 2#2) → 0 < n → exec (.hostBar2Read port addr n) s = .next s) ∧
    (∀ i ∈ [Instr.hostCxlMemWrite addr bytes, .hostBar2Write port addr bytes], (∃ p ∈ s.cxl, p ∉ s.host.down) → port ∉ s.host.down → (∃ k < 8, s.passed k = true) → Spec.openSpan s a bytes.length →
      ∃ t, exec i s = .next t ∧ (∀ j < bytes.length, t.rd8 (a + j) = bytes.getD j 0) ∧ ∀ k, (k < a ∨ a + bytes.length ≤ k) → t.rd8 k = s.rd8 k) ∧
    (∀ op size b cmp, port ∉ s.host.down → (∃ k < 8, s.passed k = true) → addr % size = 0 → ((op = 0 ∨ op = 8) ∧ (size = 4 ∨ size = 8) ∨ op = 10 ∧ (size = 4 ∨ size = 8 ∨ size = 16)) → Spec.openSpan s a size → s.poisoned a size = false →
      b < 2 ^ (8 * size) →
      ∃ t, exec (.hostAtomicop port addr op size b cmp) s = .next t ∧ (∀ k, (k < a ∨ a + size ≤ k) → t.rd8 k = s.rd8 k) ∧
        t.rdN a size = (if op = 0 then (s.rdN a size + b) % 2 ^ (8 * size) else if op = 8 then b else if s.rdN a size = cmp then b else s.rdN a size))

/-- R221, R222, R223, R224, R452: another package's read makes it a reader and the page is no longer tracked by line; its write takes the page exclusively; its atomic, and any access to a pinned page, is performed at the home; a package that was removed is not heard; pins end with a quiet window; a package that does not answer is removed, and what only
it held is poisoned. -/
def Sys2Proof.Spec.RemotePages : Prop :=
  ∀ (s : State) (node key : Nat),
    let g := key % 2 ^ 40 / 4096
    (s.pinOver g = false → s.pinEnd g = s) ∧
    (node ∈ (s.page g).gone → ∀ bytes op size b cmp, exec (.remotePageRead node key) s = .next (s.pinEnd g) ∧ exec (.remotePageWrite node key bytes) s = .next (s.pinEnd g) ∧
      exec (.remotePageAtomic node key op size b cmp) s = .next (s.pinEnd g)) ∧
    (Tab.get? s.pages g = none → ∃ t, exec (.remotePageRead node key) s = .next t ∧ (t.page g).readers = [node] ∧ (t.page g).excl = none ∧ ∀ i < 32, (t.dirOf (g * 32 + i)).remote = true) ∧
    (∀ p, Tab.get? s.pages g = some p → p.gone = [] → p.excl = none → p.pinned = false → p.readers ≠ [] → p.readers.length < 8 → node ∉ p.readers →
      ∃ t, exec (.remotePageRead node key) s = .next t ∧ (t.page g).readers = p.readers ++ [node] ∧ t.mem = s.mem) ∧
    (∀ bytes, Tab.get? s.pages g = none → (s.pcThresh g = 0 ∨ 1 < s.pcThresh g) → ∃ t, exec (.remotePageWrite node key bytes) s = .next t ∧ (t.page g).excl = some node ∧ (t.page g).readers = [] ∧ ∀ i < 32, (t.dirOf (g * 32 + i)).remote = true) ∧
    (∀ bytes p, Tab.get? s.pages g = some p → p.gone = [] → p.excl = none → p.pinned = true → s.pinOver g = false → p.readers = [] → (∀ i < bytes.length, s.winAt (key % 2 ^ 40 + i) = none ∧ (s.dirOf ((key % 2 ^ 40 + i) / 128)).state ≠ 2#2) → s.locks = [] → s.futures = [] → Memory.wf s.mem = true →
      key % 4096 + bytes.length ≤ 4096 →
      ∃ t, exec (.remotePageWrite node key bytes) s = .next t ∧ (∀ j < bytes.length, t.rd8 (key % 2 ^ 40 + j) = bytes.getD j 0) ∧ (t.page g).ops = p.ops + 1 ∧ (t.page g).excl = none) ∧
    (∀ size b cmp, Tab.get? s.pages g = none → Spec.openSpan s (key % 2 ^ 40) size → s.poisoned (key % 2 ^ 40) size = false → 0 < size → size ≤ 16 → b < 2 ^ (8 * size) →
      ∃ t, exec (.remotePageAtomic node key 0 size b cmp) s = .next t ∧ t.rdN (key % 2 ^ 40) size = (s.rdN (key % 2 ^ 40) size + b) % 2 ^ (8 * size)) ∧
    (∀ page, ∃ t, exec (.pageInvalidate node page) s = .next t ∧ t.waves = s.waves ∧ t.dir = s.dir ∧
      t.rdc = s.rdc.filter (fun e => !(decide ((node + 1) * 2 ^ 52 + page * 4096 % 2 ^ 52 ≤ e.1 % 2 ^ 64 * 128) && decide (e.1 % 2 ^ 64 * 128 < (node + 1) * 2 ^ 52 + page * 4096 % 2 ^ 52 + 4096)))) ∧
    (∀ page,
      let p := s.page page
      let now := s.tickOf (keyDie (page * 4096))
      ((p.pinned = false ∨ now < p.windowStart + s.pcWindow page) → exec (.pagePinWindowEnd page) s = .next s) ∧
      (p.pinned = true → p.windowStart + s.pcWindow page ≤ now → ∃ t, exec (.pagePinWindowEnd page) s = .next t ∧ (t.page page).pinned = decide (s.pcThresh page ≤ p.ops) ∧ (t.page page).ops = 0 ∧ (t.page page).windowStart = now ∧ t.mem = s.mem)) ∧
    (∀ page, (s.page page).excl ≠ some node → node ∉ (s.page page).readers → exec (.pageInvalTimeout node page) s = .next s) ∧
    (∀ page, (s.page page).excl = some node → ∃ t, exec (.pageInvalTimeout node page) s = .next t ∧ (t.page page).pinned = true ∧ (t.page page).excl = none ∧ node ∈ (t.page page).gone ∧ (∀ i < 128, page * 128 + i ∈ t.mpoison) ∧
      Spec.checked t (keyDie (page * 4096)) 0x67 0 ∧ Spec.fld (Spec.lastCheck t (keyDie (page * 4096))) 480 32 = node % 2 ^ 32)

/-- R403, R404, R469, R471, R472, R475, R476, R477, R478, R479: each error is counted, poisons what it has damaged, leaves its record in the ring of its die, and contains what the spec names; CONTCLR ends containment. The records go to processes too: these statements are for units on which no process has a wave. -/
def Obligations.Errors : Prop :=
  ∀ (s : State) (d : Nat), d < 8 →
    (∀ st c a, s.reg d 0xC0000 = 0 → exec (.scrubTick d st c a) s = .next s) ∧
    (∀ c a, s.reg d 0xC0000 ≠ 0 → exec (.scrubTick d 0 c a) s = .next (s.modDie d (fun x => { x with scrub := (x.scrub + 1) % 2 ^ 28 }))) ∧
    (∀ st a, s.reg d 0xC0000 ≠ 0 → 3 ≤ st → st ≤ 6 → s.reg d (0xC0100 + 8 * st) / 2 ^ 32 < 2 ^ 32 - 1 → ∃ t, exec (.scrubTick d st false a) s = .next t ∧ a / 32 ∈ t.mpoison ∧
      t.reg d (0xC0100 + 8 * st) = s.reg d (0xC0100 + 8 * st) + 2 ^ 32 ∧ (t.die d).scrub = ((s.die d).scrub + 1) % 2 ^ 28) ∧
    (∀ st a, s.reg d 0xC0000 ≠ 0 → 0 < st → st ≤ 13 → s.reg d (0xC0100 + 8 * st) % 2 ^ 32 < 2 ^ 32 - 1 → ∃ t, exec (.scrubTick d st true a) s = .next t ∧ t.mpoison = s.mpoison ∧ t.reg d (0xC0100 + 8 * st) = s.reg d (0xC0100 + 8 * st) + 1) ∧
    (∀ w v lane row, s.wave? w = some v → s.dieOf v = d → lane < 64 → row < 256 → ∃ t v', exec (.rfpoison w lane row) s = .next t ∧ t.wave? w = some v' ∧ lane * 256 + row ∈ v'.vpoison ∧ v'.vregs = v.vregs ∧ Spec.checked t d 0x61 1 ∧
      Spec.fld (Spec.lastCheck t d) 256 14 = row + lane * 256) ∧
    (∀ cl st b, cl < 16 → st < 256 → st ≠ 8 → Spec.idle s (fun c => c / 16 == d * 16 + cl) → ∃ t, exec (.sramue d cl st b) s = .next t ∧ cl ∈ (t.die d).clusters ∧ Spec.checked t d 0x63 st) ∧
    (∀ x sub, Spec.idle s (fun c => c / 256 == d) → s.reg d 0x10 = 8 + x → x < 8 → x ≠ d → sub < 256 → ∃ t, exec (.lockstep d sub) s = .next t ∧ (t.die d).svcStopped = true ∧ (t.die d).contained = true ∧ Spec.err t d = 0x32 ∧ Spec.checked t x 0x65 sub) ∧
    (Spec.idle s (fun c => c / 256 == d) → (∃ t, exec (.distwdog d) s = .next t ∧ (t.dist d).halted = true ∧ (t.die d).contained = true ∧ Spec.err t d = 0x33 ∧ Spec.checked t d 0x48 0) ∧
      ∀ sub mepc, sub < 256 → ∃ t, exec (.distfault d sub mepc) s = .next t ∧ (t.dist d).halted = true ∧ (t.die d).contained = true ∧ Spec.err t d = 0x34 ∧ Spec.checked t d 0x49 sub ∧ Spec.fld (Spec.lastCheck t d) 256 64 = mepc % 2 ^ 64) ∧
    (∀ link, Tab.get? s.host.links link = none → exec (.linkFailure link) s = .next { s with host := { s.host with links := Tab.set s.host.links link 1 } }) ∧
    (∀ link x, Tab.get? s.host.links link = some x → exec (.linkFailure link) s = .next s ∧ (x ≠ 1 → exec (.linkdown d link) s = .next s) ∧
      (link / 2 ≠ d → exec (.linkdown d link) s = .next s) ∧
      (x = 1 → link / 2 = d → ∃ t, exec (.linkdown d link) s = .next t ∧ Tab.get? t.host.links link = some 2 ∧ Spec.checked t d 0x66 0 ∧ Spec.fld (Spec.lastCheck t d) 480 32 = link % 16)) ∧
    (∀ link node, ∃ t, exec (.linkBroughtUp link node) s = .next t ∧ Tab.get? t.host.links link = none ∧ ∀ g, node ∉ (t.page g).gone) ∧
    (∀ port, port < 2 → ∃ t, exec (.hostLinkDown port) s = .next t ∧ port ∈ t.host.down ∧ Spec.checked t (4 * port) 0x66 0 ∧ Spec.fld (Spec.lastCheck t (4 * port)) 480 32 = 16 + 32 * port) ∧
    (∀ edge, edge < 10 → (edgeEnds edge).1 ≠ d → (edgeEnds edge).2 ≠ d → exec (.meshEdgeFailure d edge) s = .next s) ∧
    (∀ edge, edge < 10 → ((edgeEnds edge).1 = d ∨ (edgeEnds edge).2 = d) → ∃ t, exec (.meshEdgeFailure d edge) s = .next t ∧ edge ∈ (t.die d).edgesDown ∧
      ((∀ k, (s.modDie d (fun x => { x with edgesDown := insertSet x.edgesDown edge })).cutOff k = false) → Spec.checked t d 0x66 0 ∧ Spec.fld (Spec.lastCheck t d) 480 32 = 64 + 256 * edge)) ∧
    (∀ stack, stack < 2 → Spec.idle s (fun c => c / 256 == d) → s.procsIn d (2 * d + stack) = [] → ∃ t, exec (.hbmStackFailure d stack) s = .next t ∧ (t.die d).contained = true ∧ (∀ q, tracked (q * 32) = true → stackOf q = 2 * d + stack → t.badSector q = true) ∧ Spec.checked t d 0x64 6) ∧
    (∀ (v : W64) who, 2 ≤ who → who < 16 → (s.die d).cmdHeld = false → ∃ t, exec (.contclr who d v) s = .next t ∧ (t.die d).clusters = (s.die d).clusters.filter (fun c => !v.toNat.testBit c) ∧
      (t.die d).contained = ((s.die d).contained && !v.toNat.testBit 16) ∧ (t.dist d).halted = ((s.dist d).halted && !v.toNat.testBit 17) ∧ (t.die d).svcStopped = ((s.die d).svcStopped && !v.toNat.testBit 18) ∧ t.waves = s.waves)

/-- R353, R354, R453, R482: a die that is reset starts with its registers at their reset values and its counter at 0; no crew and no object of it remains, each generation is raised; DIERESET takes effect with its code alone. PERST# resets every die and the host side and keeps memory (the last is the model's choice, log 33). -/
def Sys2Proof.Spec.Resets : Prop :=
  ∀ (s : State) (d : Nat), d < 8 →
    (∃ t, exec (.dieReset d) s = .next t ∧ t.die d = { tick0 := s.ticks } ∧ (∀ off, t.reg d off = regReset off) ∧ t.tickOf d = 0 ∧
      (∀ e ∈ t.crews, objDie e.1 ≠ d ∧ coreDie e.2.core ≠ d) ∧ (∀ e ∈ t.procs, objDie e.1 ≠ d) ∧ (∀ e ∈ t.ports, objDie e.1 ≠ d) ∧ (∀ e ∈ t.locks, lineDie e.1 ≠ d) ∧ (d ≠ 0 → t.host = s.host)) ∧
    (∀ (v : W64) who, 2 ≤ who → who < 16 → (v.toNat % 2 ^ 16 = 0xD1E5 → exec (.diereset who d v) s = exec (.dieReset d) s) ∧ (v.toNat % 2 ^ 16 ≠ 0xD1E5 → exec (.diereset who d v) s = .next s)) ∧
    (∀ port, ∃ t, exec (.fundamentalReset port) s = .next t ∧ t.waves = [] ∧ t.crews = [] ∧ t.procs = [] ∧ t.objs = [] ∧ t.dies = [] ∧ t.host = {} ∧ t.inflight = [] ∧ t.mem = s.mem)

/-! ## Reset, checks, the invariant -/

/-- R347, R353, R464, R467, R471: after reset every register of a die's map holds its reset value: NNODES 1, PCCFG 16 and 100,000, WDOG 1,200,000, SCRUBINT 16, STARVELIM 2,000,000, HBLIM 300,000; TRLOGN 4, CAVESIZE 1,024 and the 0 of every other register to which the spec gives no reset value are the model's choice (logs 4, 86). -/
def Sys2Proof.Spec.ResetRegisters : Prop :=
  ∀ d off, State.reset.reg d off =
    (if off = 0x28 then 1 else if off = 0x48 then 1024 else if off = 0x4000 then 16 + 100000 * 65536 else if off = 0x6008 then 4 else if off = 0x6018 then 1200000 else if off = 0xC0000 then 16
     else if off = 0xC0020 then 2000000 else if off = 0xC0028 then 300000 else 0)

/-- R24, R27, R34, R405, R407, R411, R413: V = 1 inside a run ends the run first; a word that fails its own checks, a 25th instruction, a run-ending instruction without S, and a register outside the allocation each trap with their cause and SUB, the lowest cause and SUB first; a word that is no instruction traps with ILLEGAL. -/
def Sys2Proof.Spec.ChecksTrap : Prop :=
  ∀ (i : Instr) (s : State) (v : Wave) (r : Run), i.encodable = true → s.issuer = some (v, r) →
    let c := s.ctx v r i
    (i.v1 = true → r.issued ≠ 0 → exec i s = .next (s.endRun s.turn)) ∧
    ((i.v1 = true → r.issued = 0) →
      (∀ f ∈ checkRaw i.raw, (f.cause = 1 ∨ f.cause = 2) → (∀ g ∈ checkRaw i.raw, f.cause * 256 + f.sub ≤ g.cause * 256 + g.sub) → (∀ g ∈ checkRaw i.raw, g.cause < 8 ∧ g.sub < 256) →
        ∃ t, exec i s = .next (s.issueTrap s.turn v r t c.site) ∧ t.cause = f.cause ∧ t.sub = f.sub ∧ t.lanes = maskOf c.lanes ||| t.lanes) ∧
      (checkRaw i.raw = [] → i.v1 = false → 24 ≤ r.issued →
        ∃ t, exec i s = .next (s.issueTrap s.turn v r t c.site) ∧ t.cause = 3 ∧ t.sub = 1 ∧ t.tval = 24) ∧
      (checkRaw i.raw = [] → i.v1 = false → r.issued < 24 → endsRun i.raw = true → i.sBit = false →
        ∃ t, exec i s = .next (s.issueTrap s.turn v r t c.site) ∧ t.cause = 3 ∧ t.sub = 2 ∧ t.tval = 0) ∧
      (∀ u l, checkRaw i.raw = [] → (i.v1 = false → r.issued < 24 ∧ (endsRun i.raw = true → i.sBit = true)) → u ∈ usesOf i.raw → l ∈ c.act → useOutside v u l = true →
        ∃ t, exec i s = .next (s.issueTrap s.turn v r t c.site) ∧ t.cause = 4 ∧ t.sub = 3 ∧ t.lanes = maskOf (c.act.filter (fun k => (usesOf i.raw).any (fun y => useOutside v y k)))))

/-- R407: a word with V of 2 or 3 traps with ILLEGAL SUB 1 and TVAL = V, any other word that is no instruction with SUB 0; TWORD is the word. -/
def Sys2Proof.Spec.NoInstruction : Prop :=
  ∀ (s : State) (v : Wave) (r : Run) (w0 w1 w2 : W32), s.issuer = some (v, r) →
    ∃ t, exec (.unassignedOpcode w0 w1 w2) s = .next (s.issueTrap s.turn v r t { pc := r.pc, word := w0, x1 := w1, x2 := w2 }) ∧ t.cause = 1 ∧
      (2 ≤ wordV w0 → t.sub = 1 ∧ t.tval = BitVec.ofNat 64 (wordV w0)) ∧ (wordV w0 < 2 → t.sub = 0)

/-- Memory after reset is in its canonical form. -/
def Obligations.ResetInvariant : Prop := State.reset.Inv

/-- Every step keeps memory in its canonical form: addresses rising, and no byte listed that an unlisted one reads as. -/
def Obligations.StepKeepsInvariant : Prop := ∀ s t : State, s.Inv → step s = .next t → t.Inv

/-! ## The statements of several parts -/

/-- What words decode to: no bit is dropped, unassigned words are refused by name, the spec's own words decode as it says: DecodeKeepsWords, UnassignedRefused and DecodedWords above. -/
def Obligations.WordsDecode : Prop := Spec.DecodeKeepsWords ∧ Spec.UnassignedRefused ∧ Spec.DecodedWords

/-- Nothing is refused: every instruction, event and step answers a next state, or finds no wave that issues: ExecAnswers and StepAnswers above. -/
def Obligations.Answers : Prop := Spec.ExecAnswers ∧ Spec.StepAnswers

/-- When results commit, in which order, and what the end of a run leaves: CommitLatency, CommitOrder, RunEnds and ResultClasses above. -/
def Obligations.Commits : Prop := Spec.CommitLatency ∧ Spec.CommitOrder ∧ Spec.RunEnds ∧ Spec.ResultClasses

/-- Taking an issue trap: entry of the handler, a second trap, and a trap with no handler: TrapEntry, DoubleTrap and UndeliveredTrap above. -/
def Obligations.TrapEntry : Prop := Spec.TrapEntry ∧ Spec.DoubleTrap ∧ Spec.UndeliveredTrap

/-- What every operand code reads and every destination code writes: OperandForms and DestinationForms above. -/
def Obligations.OperandForms : Prop := Spec.OperandForms ∧ Spec.DestinationForms

/-- Lane integer, logic, shift and bit instructions, on words and on pairs: LaneInteger and LanePairs above. -/
def Obligations.LaneInteger : Prop := Spec.LaneInteger ∧ Spec.LanePairs

/-- Lane compares and predicate logic: LaneCompare and LanePredicates above. -/
def Obligations.LaneCompare : Prop := Spec.LaneCompare ∧ Spec.LanePredicates

/-- Rounding into the IEEE formats, and NaN, infinity and zero operands of arithmetic and the special functions: FloatRounding, FloatInvalid and SpecialOperands above. -/
def Obligations.FloatSpecials : Prop := Spec.FloatRounding ∧ Spec.FloatInvalid ∧ Spec.SpecialOperands

/-- Special functions, conversions and packing: LaneConvert and ConversionRules above. -/
def Obligations.LaneConvert : Prop := Spec.LaneConvert ∧ Spec.ConversionRules

/-- Cross-lane instructions: arrival, completion, and what each member of an instance receives: CrossLaneIssue, CrossLaneCompletes, CrossLaneResults and ReduxResults above. -/
def Obligations.CrossLane : Prop := Spec.CrossLaneIssue ∧ Spec.CrossLaneCompletes ∧ Spec.CrossLaneResults ∧ Spec.ReduxResults

/-- Fibre creation and end, the mask instructions, and held batches: Fibres, Masks and Holds above. -/
def Obligations.FibresAndMasks : Prop := Spec.Fibres ∧ Spec.Masks ∧ Spec.Holds

/-- Reads and writes of every special register, and the lane generators that SRSEED seeds: SpecialRegisters and LaneGenerators above. -/
def Obligations.SpecialRegisters : Prop := Spec.SpecialRegisters ∧ Spec.LaneGenerators

/-- trap, brk and rfe, traps at the end of a run, and debug entry: SystemInstructions, EndTraps and DebugEntry above. -/
def Obligations.SystemInstructions : Prop := Spec.SystemInstructions ∧ Spec.EndTraps ∧ Spec.DebugEntry

/-- Address spaces, the page walk, permissions, and instruction fetch: AddressSpaces, PageWalk, Translation and FetchReads above. -/
def Obligations.Translation : Prop := Spec.AddressSpaces ∧ Spec.PageWalk ∧ Spec.Translation ∧ Spec.FetchReads

/-- The lane memory instructions, their completion in private memory, the frame of a store, and the atomic operations: LaneMemory, PrivateAccesses, LaneMemoryRest, StoreFrame and AtomicOperations above. -/
def Obligations.LaneMemory : Prop := Spec.LaneMemory ∧ Spec.PrivateAccesses ∧ Spec.LaneMemoryRest ∧ Spec.StoreFrame ∧ Spec.AtomicOperations

/-- Fences, and what a write-back leaves in memory and in the L1: FenceInstructions and WriteBack above. -/
def Obligations.Fences : Prop := Spec.FenceInstructions ∧ Spec.WriteBack

/-- Region bindings, address waits and the issue of future instructions: Bindings and WaitsAndFutures above. -/
def Obligations.BindingsWaitsFutures : Prop := Spec.Bindings ∧ Spec.WaitsAndFutures

/-- Step regions: configuration, group, stores into the next plane, commit: StepRegions and StepCommit above. -/
def Obligations.StepRegions : Prop := Spec.StepRegions ∧ Spec.StepCommit

/-- Joining and leaving crews, and the placement and pre-emption of crews: CrewMoves and CrewEvents above. -/
def Obligations.Crews : Prop := Spec.CrewMoves ∧ Spec.CrewEvents

/-- Handle slots: their checks, h.dup, h.close and h.info: HandleInstructions and SlotChecks above. -/
def Obligations.Handles : Prop := Spec.HandleInstructions ∧ Spec.SlotChecks

/-- Line locks: the instructions, and what a line's home does: LockInstructions and LocksAtHome above. -/
def Obligations.Locks : Prop := Spec.LockInstructions ∧ Spec.LocksAtHome

/-- Wait sets, timers and system calls: WaitSetsAndTimers and SystemCalls above. -/
def Obligations.WaitSetsTimersCalls : Prop := Spec.WaitSetsAndTimers ∧ Spec.SystemCalls

/-- What the hardware does for a wave: the choice of a batch, run starts, returns, refusals, acknowledgements, debug entries: WaveEvents and NextBatch above. -/
def Obligations.WaveEvents : Prop := Spec.WaveEvents ∧ Spec.NextBatch

/-- Memory events of the hardware, and futures at their home: MemoryEvents and Futures above. -/
def Obligations.MemoryEvents : Prop := Spec.MemoryEvents ∧ Spec.Futures

/-- Ports, messages and page grants: PortInstructions and Messages above. -/
def Obligations.Ports : Prop := Spec.PortInstructions ∧ Spec.Messages

/-- Messages that arrive, page pulls, and names: PortAndNameEvents and NameInstructions above. -/
def Obligations.Names : Prop := Spec.PortAndNameEvents ∧ Spec.NameInstructions

/-- Copy, matrix and drain commands at issue, what their blocks read as, operand storage, gangs: CommandInstructions, BlockReads and StorageInstructions above. -/
def Obligations.Commands : Prop := Spec.BlockReads ∧ Spec.CommandInstructions ∧ Spec.StorageInstructions

/-- What a matrix operation, a drain and a copy compute: MatrixProduct, DrainedElement and CopyPayload above. -/
def Obligations.EnginePayloads : Prop := Spec.MatrixProduct ∧ Spec.DrainedElement ∧ Spec.CopyPayload

/-- The work distributor's hooks and commands, and what a placement makes: Distributor and Launches above. -/
def Obligations.Distributor : Prop := Spec.Distributor ∧ Spec.Launches

/-- The debug block, stops, samples and snapshots: DebugBlock and StopsAndSnapshots above. -/
def Obligations.DebugAndProfile : Prop := Spec.DebugBlock ∧ Spec.StopsAndSnapshots

/-- Who may write a die's registers, what a write leaves, and what they hold after reset: Writers, RegisterWrites and ResetRegisters above. -/
def Obligations.RegisterWrites : Prop := Spec.Writers ∧ Spec.RegisterWrites ∧ Spec.ResetRegisters

/-- The lease, microcode, quotes, the sideband and power steps: Lease and MeasurementAndSideband above. -/
def Obligations.HostSide : Prop := Spec.Lease ∧ Spec.MeasurementAndSideband

/-- Boot, election, heartbeat and resets: BootAndHeartbeat and Resets above. -/
def Obligations.BootAndReset : Prop := Spec.BootAndHeartbeat ∧ Spec.Resets

/-- Accesses of hosts and of other packages: HostAccesses and RemotePages above. -/
def Obligations.HostsAndPages : Prop := Spec.HostAccesses ∧ Spec.RemotePages

/-- Words and operands that fail a check trap with their cause and SUB: ChecksTrap and NoInstruction above. -/
def Obligations.ChecksTrap : Prop := Spec.ChecksTrap ∧ Spec.NoInstruction
end

