-- ==== Sys2Proof/Laws/Decode.lean ====
section
/-!
SUPPORT. Sys2Proof/Laws/Decode.lean: the fields of a packed word of each format, and that unpacking gives the fields back.
-/

namespace Sys2Proof

theorem toNat_le_one (b : Bool) : b.toNat ≤ 1 := by cases b <;> simp

theorem beq_one_toNat (b : Bool) : (b.toNat == 1) = b := by cases b <;> rfl

section lr
variable (f : LR) (op : Nat) (h : op < 128)
include h

theorem LR.pack_toNat : (f.pack op).toNat = headN 0 f.s f.v1 op + f.g.toNat * 2 ^ 18 + f.d.toNat * 2 ^ 12 + f.a.toNat * 2 ^ 6 + f.b.toNat := by
  have := toNat_le_one f.s; have := toNat_le_one f.v1
  have := f.g.isLt; have := f.d.isLt; have := f.a.isLt; have := f.b.isLt
  simp only [LR.pack, headN, BitVec.toNat_ofNat]
  omega

theorem LR.pack_set : wordSet (f.pack op) = 0 := by
  have := toNat_le_one f.s; have := toNat_le_one f.v1
  have := f.g.isLt; have := f.d.isLt; have := f.a.isLt; have := f.b.isLt
  simp only [wordSet, fieldN, LR.pack_toNat f op h, headN]; omega
theorem LR.pack_v : wordV (f.pack op) = f.v1.toNat := by
  have := toNat_le_one f.s; have := toNat_le_one f.v1
  have := f.g.isLt; have := f.d.isLt; have := f.a.isLt; have := f.b.isLt
  simp only [wordV, fieldN, LR.pack_toNat f op h, headN]; omega
theorem LR.pack_op : wordOp (f.pack op) = op := by
  have := toNat_le_one f.s; have := toNat_le_one f.v1
  have := f.g.isLt; have := f.d.isLt; have := f.a.isLt; have := f.b.isLt
  simp only [wordOp, fieldN, LR.pack_toNat f op h, headN]; omega
theorem LR.pack_s : wordS (f.pack op) = f.s := by
  have := toNat_le_one f.s; have := toNat_le_one f.v1
  have := f.g.isLt; have := f.d.isLt; have := f.a.isLt; have := f.b.isLt
  have e : fieldN (f.pack op) 30 1 = f.s.toNat := by simp only [fieldN, LR.pack_toNat f op h, headN]; omega
  rw [wordS, e, beq_one_toNat]
theorem LR.pack_g : BitVec.ofNat 3 (fieldN (f.pack op) 18 3) = f.g := by
  have := toNat_le_one f.s; have := toNat_le_one f.v1
  have := f.g.isLt; have := f.d.isLt; have := f.a.isLt; have := f.b.isLt
  apply BitVec.eq_of_toNat_eq
  simp only [fieldN, LR.pack_toNat f op h, headN, BitVec.toNat_ofNat]; omega
theorem LR.pack_d : BitVec.ofNat 6 (fieldN (f.pack op) 12 6) = f.d := by
  have := toNat_le_one f.s; have := toNat_le_one f.v1
  have := f.g.isLt; have := f.d.isLt; have := f.a.isLt; have := f.b.isLt
  apply BitVec.eq_of_toNat_eq
  simp only [fieldN, LR.pack_toNat f op h, headN, BitVec.toNat_ofNat]; omega
theorem LR.pack_a : BitVec.ofNat 6 (fieldN (f.pack op) 6 6) = f.a := by
  have := toNat_le_one f.s; have := toNat_le_one f.v1
  have := f.g.isLt; have := f.d.isLt; have := f.a.isLt; have := f.b.isLt
  apply BitVec.eq_of_toNat_eq
  simp only [fieldN, LR.pack_toNat f op h, headN, BitVec.toNat_ofNat]; omega
theorem LR.pack_b : BitVec.ofNat 6 (fieldN (f.pack op) 0 6) = f.b := by
  have := toNat_le_one f.s; have := toNat_le_one f.v1
  have := f.g.isLt; have := f.d.isLt; have := f.a.isLt; have := f.b.isLt
  apply BitVec.eq_of_toNat_eq
  simp only [fieldN, LR.pack_toNat f op h, headN, BitVec.toNat_ofNat]; omega
end lr

section gr
variable (f : GR) (op : Nat) (h : op < 128)
include h

theorem GR.pack_toNat : (f.pack op).toNat = headN 1 f.s f.v1 op + f.d.toNat * 2 ^ 15 + f.a.toNat * 2 ^ 9 + f.b.toNat := by
  have := toNat_le_one f.s; have := toNat_le_one f.v1
  have := f.d.isLt; have := f.a.isLt; have := f.b.isLt
  simp only [GR.pack, headN, BitVec.toNat_ofNat]
  omega
theorem GR.pack_set : wordSet (f.pack op) = 1 := by
  have := toNat_le_one f.s; have := toNat_le_one f.v1
  have := f.d.isLt; have := f.a.isLt; have := f.b.isLt
  simp only [wordSet, fieldN, GR.pack_toNat f op h, headN]; omega
theorem GR.pack_v : wordV (f.pack op) = f.v1.toNat := by
  have := toNat_le_one f.s; have := toNat_le_one f.v1
  have := f.d.isLt; have := f.a.isLt; have := f.b.isLt
  simp only [wordV, fieldN, GR.pack_toNat f op h, headN]; omega
theorem GR.pack_op : wordOp (f.pack op) = op := by
  have := toNat_le_one f.s; have := toNat_le_one f.v1
  have := f.d.isLt; have := f.a.isLt; have := f.b.isLt
  simp only [wordOp, fieldN, GR.pack_toNat f op h, headN]; omega
theorem GR.pack_s : wordS (f.pack op) = f.s := by
  have := toNat_le_one f.s; have := toNat_le_one f.v1
  have := f.d.isLt; have := f.a.isLt; have := f.b.isLt
  have e : fieldN (f.pack op) 30 1 = f.s.toNat := by simp only [fieldN, GR.pack_toNat f op h, headN]; omega
  rw [wordS, e, beq_one_toNat]
theorem GR.pack_d : BitVec.ofNat 6 (fieldN (f.pack op) 15 6) = f.d := by
  have := toNat_le_one f.s; have := toNat_le_one f.v1
  have := f.d.isLt; have := f.a.isLt; have := f.b.isLt
  apply BitVec.eq_of_toNat_eq
  simp only [fieldN, GR.pack_toNat f op h, headN, BitVec.toNat_ofNat]; omega
theorem GR.pack_a : BitVec.ofNat 6 (fieldN (f.pack op) 9 6) = f.a := by
  have := toNat_le_one f.s; have := toNat_le_one f.v1
  have := f.d.isLt; have := f.a.isLt; have := f.b.isLt
  apply BitVec.eq_of_toNat_eq
  simp only [fieldN, GR.pack_toNat f op h, headN, BitVec.toNat_ofNat]; omega
theorem GR.pack_b : BitVec.ofNat 9 (fieldN (f.pack op) 0 9) = f.b := by
  have := toNat_le_one f.s; have := toNat_le_one f.v1
  have := f.d.isLt; have := f.a.isLt; have := f.b.isLt
  apply BitVec.eq_of_toNat_eq
  simp only [fieldN, GR.pack_toNat f op h, headN, BitVec.toNat_ofNat]; omega
end gr

section gj
variable (f : GJ) (op : Nat) (h : op < 128)
include h
theorem GJ.pack_toNat : (f.pack op).toNat = headN 1 f.s f.v1 op + f.off.toNat := by
  have := toNat_le_one f.s; have := toNat_le_one f.v1; have := f.off.isLt
  simp only [GJ.pack, headN, BitVec.toNat_ofNat]; omega
theorem GJ.pack_set : wordSet (f.pack op) = 1 := by
  have := toNat_le_one f.s; have := toNat_le_one f.v1; have := f.off.isLt
  simp only [wordSet, fieldN, GJ.pack_toNat f op h, headN]; omega
theorem GJ.pack_v : wordV (f.pack op) = f.v1.toNat := by
  have := toNat_le_one f.s; have := toNat_le_one f.v1; have := f.off.isLt
  simp only [wordV, fieldN, GJ.pack_toNat f op h, headN]; omega
theorem GJ.pack_op : wordOp (f.pack op) = op := by
  have := toNat_le_one f.s; have := toNat_le_one f.v1; have := f.off.isLt
  simp only [wordOp, fieldN, GJ.pack_toNat f op h, headN]; omega
theorem GJ.unpack_pack : GJ.unpack (f.pack op) = f := by
  have := toNat_le_one f.s; have := toNat_le_one f.v1; have := f.off.isLt
  have e : fieldN (f.pack op) 30 1 = f.s.toNat := by simp only [fieldN, GJ.pack_toNat f op h, headN]; omega
  have o : BitVec.ofNat 21 (fieldN (f.pack op) 0 21) = f.off := by
    apply BitVec.eq_of_toNat_eq; simp only [fieldN, GJ.pack_toNat f op h, headN, BitVec.toNat_ofNat]; omega
  simp only [GJ.unpack, wordS, e, GJ.pack_v f op h, beq_one_toNat, o]
end gj

section gc
variable (f : GC) (op : Nat) (h : op < 128)
include h
theorem GC.pack_toNat : (f.pack op).toNat = headN 1 f.s f.v1 op + f.a.toNat * 2 ^ 15 + f.off.toNat := by
  have := toNat_le_one f.s; have := toNat_le_one f.v1; have := f.off.isLt; have := f.a.isLt
  simp only [GC.pack, headN, BitVec.toNat_ofNat]; omega
theorem GC.pack_set : wordSet (f.pack op) = 1 := by
  have := toNat_le_one f.s; have := toNat_le_one f.v1; have := f.off.isLt; have := f.a.isLt
  simp only [wordSet, fieldN, GC.pack_toNat f op h, headN]; omega
theorem GC.pack_v : wordV (f.pack op) = f.v1.toNat := by
  have := toNat_le_one f.s; have := toNat_le_one f.v1; have := f.off.isLt; have := f.a.isLt
  simp only [wordV, fieldN, GC.pack_toNat f op h, headN]; omega
theorem GC.pack_op : wordOp (f.pack op) = op := by
  have := toNat_le_one f.s; have := toNat_le_one f.v1; have := f.off.isLt; have := f.a.isLt
  simp only [wordOp, fieldN, GC.pack_toNat f op h, headN]; omega
theorem GC.unpack_pack : GC.unpack (f.pack op) = f := by
  have := toNat_le_one f.s; have := toNat_le_one f.v1; have := f.off.isLt; have := f.a.isLt
  have e : fieldN (f.pack op) 30 1 = f.s.toNat := by simp only [fieldN, GC.pack_toNat f op h, headN]; omega
  have o : BitVec.ofNat 15 (fieldN (f.pack op) 0 15) = f.off := by
    apply BitVec.eq_of_toNat_eq; simp only [fieldN, GC.pack_toNat f op h, headN, BitVec.toNat_ofNat]; omega
  have a : BitVec.ofNat 6 (fieldN (f.pack op) 15 6) = f.a := by
    apply BitVec.eq_of_toNat_eq; simp only [fieldN, GC.pack_toNat f op h, headN, BitVec.toNat_ofNat]; omega
  simp only [GC.unpack, wordS, e, GC.pack_v f op h, beq_one_toNat, o, a]
end gc

section lb
variable (f : LB) (op : Nat) (h : op < 128)
include h
theorem LB.pack_toNat : (f.pack op).toNat = headN 0 f.s f.v1 op + f.g.toNat * 2 ^ 18 + f.off.toNat := by
  have := toNat_le_one f.s; have := toNat_le_one f.v1; have := f.off.isLt; have := f.g.isLt
  simp only [LB.pack, headN, BitVec.toNat_ofNat]; omega
theorem LB.pack_set : wordSet (f.pack op) = 0 := by
  have := toNat_le_one f.s; have := toNat_le_one f.v1; have := f.off.isLt; have := f.g.isLt
  simp only [wordSet, fieldN, LB.pack_toNat f op h, headN]; omega
theorem LB.pack_v : wordV (f.pack op) = f.v1.toNat := by
  have := toNat_le_one f.s; have := toNat_le_one f.v1; have := f.off.isLt; have := f.g.isLt
  simp only [wordV, fieldN, LB.pack_toNat f op h, headN]; omega
theorem LB.pack_op : wordOp (f.pack op) = op := by
  have := toNat_le_one f.s; have := toNat_le_one f.v1; have := f.off.isLt; have := f.g.isLt
  simp only [wordOp, fieldN, LB.pack_toNat f op h, headN]; omega
theorem LB.unpack_pack : LB.unpack (f.pack op) = f := by
  have := toNat_le_one f.s; have := toNat_le_one f.v1; have := f.off.isLt; have := f.g.isLt
  have e : fieldN (f.pack op) 30 1 = f.s.toNat := by simp only [fieldN, LB.pack_toNat f op h, headN]; omega
  have o : BitVec.ofNat 18 (fieldN (f.pack op) 0 18) = f.off := by
    apply BitVec.eq_of_toNat_eq; simp only [fieldN, LB.pack_toNat f op h, headN, BitVec.toNat_ofNat]; omega
  have a : BitVec.ofNat 3 (fieldN (f.pack op) 18 3) = f.g := by
    apply BitVec.eq_of_toNat_eq; simp only [fieldN, LB.pack_toNat f op h, headN, BitVec.toNat_ofNat]; omega
  simp only [LB.unpack, wordS, e, LB.pack_v f op h, beq_one_toNat, o, a]
end lb

/-- Unpacking the words of an LR instruction gives its fields back. -/
theorem LR.unpack_words (f : LR) (op : Nat) (h : op < 128) (hc : f.canonical op = true) :
    LR.unpack (f.pack op) ((Raw.lr op f).words.getD 1 0#32) ((Raw.lr op f).words.getD 2 0#32) (laneHasX op) = f := by
  obtain ⟨s, v1, g, d, a, b, x, ow⟩ := f
  simp only [LR.unpack, LR.pack_a _ op h, LR.pack_b _ op h, LR.pack_s _ op h, LR.pack_v _ op h, LR.pack_g _ op h, LR.pack_d _ op h,
    beq_one_toNat, Raw.words]
  simp only [LR.canonical, LR.usesOw] at hc ⊢
  rcases Bool.eq_false_or_eq_true (laneHasX op) with hx | hx <;>
    rcases Bool.eq_false_or_eq_true (laneUsesOw a || laneUsesOw b) with ho | ho <;>
    simp only [hx, ho] at hc ⊢ <;> simp at hc ⊢ <;> first | done | exact hc.symm | exact ⟨hc.1.symm, hc.2.symm⟩

/-- Unpacking the words of a GR instruction gives its fields back. -/
theorem GR.unpack_words (f : GR) (op : Nat) (h : op < 128) (hc : f.canonical op = true) :
    GR.unpack (f.pack op) ((Raw.gr op f).words.getD 1 0#32) ((Raw.gr op f).words.getD 2 0#32) (uniHasX op) = f := by
  obtain ⟨s, v1, d, a, b, x, ow⟩ := f
  simp only [GR.unpack, GR.pack_a _ op h, GR.pack_b _ op h, GR.pack_s _ op h, GR.pack_v _ op h, GR.pack_d _ op h,
    beq_one_toNat, Raw.words]
  simp only [GR.canonical, GR.usesOw] at hc ⊢
  rcases Bool.eq_false_or_eq_true (uniHasX op) with hx | hx <;>
    rcases Bool.eq_false_or_eq_true (b == 0x080#9) with ho | ho <;>
    simp only [hx, ho] at hc ⊢ <;> simp at hc ⊢ <;> first | done | exact hc.symm | exact ⟨hc.1.symm, hc.2.symm⟩

/-- What the decoder makes of an opcode's instruction. -/
def found (o : Option Instr) : Except Reject Instr :=
  match o with
  | some i => .ok i
  | none => .error .unassigned

theorem decode_lr (op : Nat) (f : LR) (h : op < 128) (hb : op ≠ 0x70) (hc : f.canonical op = true) :
    decodeWords (Raw.lr op f).words = found (laneInstr op f) := by
  have h0 : (Raw.lr op f).words.getD 0 0#32 = f.pack op := rfl
  have hv : ¬ wordV (f.pack op) ≥ 2 := by rw [LR.pack_v f op h]; have := toNat_le_one f.v1; omega
  simp only [decodeWords, decode, h0, hv, if_false, LR.pack_set f op h, if_true, LR.pack_op f op h, hb, LR.unpack_words f op h hc]
  cases laneInstr op f <;> rfl

theorem decode_lb (f : LB) : decodeWords (Raw.lb 0x70 f).words = .ok (.brp f) := by
  have h : (0x70 : Nat) < 128 := by omega
  have h0 : (Raw.lb 0x70 f).words.getD 0 0#32 = f.pack 0x70 := rfl
  have hv : ¬ wordV (f.pack 0x70) ≥ 2 := by rw [LB.pack_v f _ h]; have := toNat_le_one f.v1; omega
  simp only [decodeWords, decode, h0, hv, if_false, LB.pack_set f _ h, if_true, LB.pack_op f _ h, LB.unpack_pack f _ h]

theorem decode_gr (op : Nat) (f : GR) (h : op < 128) (hb : branchInstr op (f.pack op) = none) (hc : f.canonical op = true) :
    decodeWords (Raw.gr op f).words = found (uniInstr op f) := by
  have h0 : (Raw.gr op f).words.getD 0 0#32 = f.pack op := rfl
  have hv : ¬ wordV (f.pack op) ≥ 2 := by rw [GR.pack_v f op h]; have := toNat_le_one f.v1; omega
  have h1 : ¬ (1 : Nat) = 0 := by omega
  simp only [decodeWords, decode, h0, hv, if_false, GR.pack_set f op h, h1, GR.pack_op f op h, hb, GR.unpack_words f op h hc]
  cases uniInstr op f <;> rfl

theorem decode_gj (op : Nat) (f : GJ) (h : op < 128) (i : Instr) (hb : branchInstr op (f.pack op) = some i) :
    decodeWords (Raw.gj op f).words = .ok i := by
  have h0 : (Raw.gj op f).words.getD 0 0#32 = f.pack op := rfl
  have hv : ¬ wordV (f.pack op) ≥ 2 := by rw [GJ.pack_v f op h]; have := toNat_le_one f.v1; omega
  have h1 : ¬ (1 : Nat) = 0 := by omega
  simp only [decodeWords, decode, h0, hv, if_false, GJ.pack_set f op h, h1, GJ.pack_op f op h, hb]

theorem decode_gc (op : Nat) (f : GC) (h : op < 128) (i : Instr) (hb : branchInstr op (f.pack op) = some i) :
    decodeWords (Raw.gc op f).words = .ok i := by
  have h0 : (Raw.gc op f).words.getD 0 0#32 = f.pack op := rfl
  have hv : ¬ wordV (f.pack op) ≥ 2 := by rw [GC.pack_v f op h]; have := toNat_le_one f.v1; omega
  have h1 : ¬ (1 : Nat) = 0 := by omega
  simp only [decodeWords, decode, h0, hv, if_false, GC.pack_set f op h, h1, GC.pack_op f op h, hb]

end Sys2Proof
end

