-- ==== Sys2Proof/Laws/Tab.lean ====
section
/-!
SUPPORT. Sys2Proof/Laws/Tab.lean: reading a table after a write, a removal or a change of an entry, and the numbers of bit lists.
-/

namespace Sys2Proof.Machine

variable {α β : Type}

@[simp] theorem Tab.get?_nil (n : Nat) : Tab.get? ([] : Tab α) n = none := rfl

theorem Tab.get?_cons (k n : Nat) (v : α) (t : Tab α) : Tab.get? ((k, v) :: t) n = if k = n then some v else Tab.get? t n := rfl

@[simp] theorem Tab.get?_set_self (t : Tab α) (n : Nat) (a : α) : Tab.get? (Tab.set t n a) n = some a := by
  induction t with
  | nil => simp [Tab.set, Tab.get?]
  | cons e t ih =>
    obtain ⟨k, v⟩ := e
    by_cases h : k = n <;> simp [Tab.set, Tab.get?, h, ih]

theorem Tab.get?_set_ne (t : Tab α) {n m : Nat} (a : α) (h : n ≠ m) : Tab.get? (Tab.set t n a) m = Tab.get? t m := by
  induction t with
  | nil => simp [Tab.set, Tab.get?, h]
  | cons e t ih =>
    obtain ⟨k, v⟩ := e
    by_cases hk : k = n
    · subst hk; simp [Tab.set, Tab.get?, h]
    · simp [Tab.set, Tab.get?, hk, ih]

theorem Tab.get?_set (t : Tab α) (n m : Nat) (a : α) : Tab.get? (Tab.set t n a) m = if n = m then some a else Tab.get? t m := by
  by_cases h : n = m
  · subst h; simp
  · simp [h, Tab.get?_set_ne t a h]

@[simp] theorem Tab.getD_set_self (t : Tab α) (n : Nat) (a d : α) : Tab.getD (Tab.set t n a) n d = a := by simp [Tab.getD]

theorem Tab.getD_set_ne (t : Tab α) {n m : Nat} (a d : α) (h : n ≠ m) : Tab.getD (Tab.set t n a) m d = Tab.getD t m d := by
  simp [Tab.getD, Tab.get?_set_ne t a h]

theorem Tab.getD_set (t : Tab α) (n m : Nat) (a d : α) : Tab.getD (Tab.set t n a) m d = if n = m then a else Tab.getD t m d := by
  by_cases h : n = m
  · subst h; simp
  · simp [h, Tab.getD_set_ne t a d h]

theorem Tab.get?_del (t : Tab α) (n m : Nat) : Tab.get? (Tab.del t n) m = if n = m then none else Tab.get? t m := by
  induction t with
  | nil => simp [Tab.del]
  | cons e t ih =>
    obtain ⟨k, v⟩ := e
    by_cases hk : k = n
    · subst hk
      rw [show Tab.del ((k, v) :: t) k = Tab.del t k by simp [Tab.del], ih, Tab.get?_cons]
      split <;> simp_all
    · rw [show Tab.del ((k, v) :: t) n = (k, v) :: Tab.del t n by simp [Tab.del, hk], Tab.get?_cons, ih, Tab.get?_cons]
      by_cases h : n = m
      · subst h; simp [hk]
      · simp [h]

@[simp] theorem Tab.get?_del_self (t : Tab α) (n : Nat) : Tab.get? (Tab.del t n) n = none := by simp [Tab.get?_del]

theorem Tab.get?_mod (t : Tab α) (n m : Nat) (f : α → α) :
    Tab.get? (Tab.mod t n f) m = if n = m then (Tab.get? t n).map f else Tab.get? t m := by
  unfold Tab.mod
  cases h : Tab.get? t n with
  | none => by_cases hm : n = m <;> simp [hm]; exact hm ▸ h
  | some v => simp [Tab.get?_set]

@[simp] theorem Tab.get?_mod_self (t : Tab α) (n : Nat) (f : α → α) : Tab.get? (Tab.mod t n f) n = (Tab.get? t n).map f := by
  simp [Tab.get?_mod]

theorem Tab.get?_mod_ne (t : Tab α) {n m : Nat} (f : α → α) (h : n ≠ m) : Tab.get? (Tab.mod t n f) m = Tab.get? t m := by
  simp [Tab.get?_mod, h]

theorem Tab.getD_modD (t : Tab α) (n m : Nat) (d : α) (f : α → α) :
    Tab.getD (Tab.modD t n d f) m d = if n = m then f (Tab.getD t n d) else Tab.getD t m d := by
  simp [Tab.modD, Tab.getD_set]

@[simp] theorem Tab.getD_modD_self (t : Tab α) (n : Nat) (d : α) (f : α → α) :
    Tab.getD (Tab.modD t n d f) n d = f (Tab.getD t n d) := by simp [Tab.modD]

theorem Tab.get?_map (t : Tab α) (f : α → α) (n : Nat) :
    Tab.get? (t.map (fun e => (e.1, f e.2))) n = (Tab.get? t n).map f := by
  induction t with
  | nil => rfl
  | cons e t ih =>
    obtain ⟨k, v⟩ := e
    by_cases h : k = n <;> simp [Tab.get?, h, ih]

theorem setBit64_getLsbD (m : W64) (i j : Nat) (h : i < 64) : (setBit64 m i).getLsbD j = (m.getLsbD j || decide (j = i)) := by
  by_cases hj : j < 64
  · simp [setBit64, hj]
    by_cases hji : j = i
    · subst hji; simp
    · by_cases hlt : j < i
      · simp [hlt, hji]
      · have : j - i ≠ 0 := by omega
        simp [hlt, hji, this]
  · have : j ≠ i := by omega
    have h1 : ∀ x : W64, x.getLsbD j = false := fun x => BitVec.getLsbD_of_ge x j (by omega)
    simp [h1, this]

theorem foldl_setBit_getLsbD (l : List Nat) (m : W64) (j : Nat) (h : ∀ i ∈ l, i < 64) :
    (l.foldl setBit64 m).getLsbD j = (m.getLsbD j || l.contains j) := by
  induction l generalizing m with
  | nil => simp
  | cons a t ih =>
    have ha : a < 64 := h a (by simp)
    have ht : ∀ i ∈ t, i < 64 := fun i hi => h i (by simp [hi])
    simp only [List.foldl_cons, ih _ ht, setBit64_getLsbD _ _ _ ha, List.contains_cons, Bool.or_assoc]
    congr 1

/-- A lane is in the mask of a list exactly when it is listed. -/
theorem maskOf_getLsbD (l : List Nat) (j : Nat) (h : ∀ i ∈ l, i < 64) : (maskOf l).getLsbD j = l.contains j := by
  simp [maskOf, foldl_setBit_getLsbD l 0#64 j h]

theorem mem_lanesOf (m : W64) (w l : Nat) : l ∈ lanesOf m w ↔ l < w ∧ m.getLsbD l = true := by simp [lanesOf]

end Sys2Proof.Machine
end

