-- ==== Sys2Proof/Laws/State.lean ====
section
/-!
SUPPORT. Sys2Proof/Laws/State.lean: every field of the state after each named update of a part of it, every field of a wave after each
named update of a wave, and reading a wave, crew, process, core, die or object after such an update.
-/

namespace Sys2Proof.Machine

/-! ## State.setWave -/

@[simp] theorem State.setWave_mem (s : State) (w : Nat) (v : Wave) : (s.setWave w v).mem = s.mem := rfl
@[simp] theorem State.setWave_mpoison (s : State) (w : Nat) (v : Wave) : (s.setWave w v).mpoison = s.mpoison := rfl
@[simp] theorem State.setWave_stackDown (s : State) (w : Nat) (v : Wave) : (s.setWave w v).stackDown = s.stackDown := rfl
@[simp] theorem State.setWave_mclean (s : State) (w : Nat) (v : Wave) : (s.setWave w v).mclean = s.mclean := rfl
@[simp] theorem State.setWave_futures (s : State) (w : Nat) (v : Wave) : (s.setWave w v).futures = s.futures := rfl
@[simp] theorem State.setWave_dir (s : State) (w : Nat) (v : Wave) : (s.setWave w v).dir = s.dir := rfl
@[simp] theorem State.setWave_rdc (s : State) (w : Nat) (v : Wave) : (s.setWave w v).rdc = s.rdc := rfl
@[simp] theorem State.setWave_wbBuf (s : State) (w : Nat) (v : Wave) : (s.setWave w v).wbBuf = s.wbBuf := rfl
@[simp] theorem State.setWave_homeQ (s : State) (w : Nat) (v : Wave) : (s.setWave w v).homeQ = s.homeQ := rfl
@[simp] theorem State.setWave_pages (s : State) (w : Nat) (v : Wave) : (s.setWave w v).pages = s.pages := rfl
@[simp] theorem State.setWave_acks (s : State) (w : Nat) (v : Wave) : (s.setWave w v).acks = s.acks := rfl
@[simp] theorem State.setWave_nextAck (s : State) (w : Nat) (v : Wave) : (s.setWave w v).nextAck = s.nextAck := rfl
@[simp] theorem State.setWave_locks (s : State) (w : Nat) (v : Wave) : (s.setWave w v).locks = s.locks := rfl
@[simp] theorem State.setWave_cxl (s : State) (w : Nat) (v : Wave) : (s.setWave w v).cxl = s.cxl := rfl
@[simp] theorem State.setWave_waves (s : State) (w : Nat) (v : Wave) : (s.setWave w v).waves = Tab.set s.waves w v := rfl
@[simp] theorem State.setWave_crews (s : State) (w : Nat) (v : Wave) : (s.setWave w v).crews = s.crews := rfl
@[simp] theorem State.setWave_procs (s : State) (w : Nat) (v : Wave) : (s.setWave w v).procs = s.procs := rfl
@[simp] theorem State.setWave_objs (s : State) (w : Nat) (v : Wave) : (s.setWave w v).objs = s.objs := rfl
@[simp] theorem State.setWave_ports (s : State) (w : Nat) (v : Wave) : (s.setWave w v).ports = s.ports := rfl
@[simp] theorem State.setWave_wsets (s : State) (w : Nat) (v : Wave) : (s.setWave w v).wsets = s.wsets := rfl
@[simp] theorem State.setWave_timers (s : State) (w : Nat) (v : Wave) : (s.setWave w v).timers = s.timers := rfl
@[simp] theorem State.setWave_tqs (s : State) (w : Nat) (v : Wave) : (s.setWave w v).tqs = s.tqs := rfl
@[simp] theorem State.setWave_names (s : State) (w : Nat) (v : Wave) : (s.setWave w v).names = s.names := rfl
@[simp] theorem State.setWave_farNames (s : State) (w : Nat) (v : Wave) : (s.setWave w v).farNames = s.farNames := rfl
@[simp] theorem State.setWave_nameCache (s : State) (w : Nat) (v : Wave) : (s.setWave w v).nameCache = s.nameCache := rfl
@[simp] theorem State.setWave_opslots (s : State) (w : Nat) (v : Wave) : (s.setWave w v).opslots = s.opslots := rfl
@[simp] theorem State.setWave_accs (s : State) (w : Nat) (v : Wave) : (s.setWave w v).accs = s.accs := rfl
@[simp] theorem State.setWave_nextStore (s : State) (w : Nat) (v : Wave) : (s.setWave w v).nextStore = s.nextStore := rfl
@[simp] theorem State.setWave_shoots (s : State) (w : Nat) (v : Wave) : (s.setWave w v).shoots = s.shoots := rfl
@[simp] theorem State.setWave_nextShoot (s : State) (w : Nat) (v : Wave) : (s.setWave w v).nextShoot = s.nextShoot := rfl
@[simp] theorem State.setWave_runq (s : State) (w : Nat) (v : Wave) : (s.setWave w v).runq = s.runq := rfl
@[simp] theorem State.setWave_gangs (s : State) (w : Nat) (v : Wave) : (s.setWave w v).gangs = s.gangs := rfl
@[simp] theorem State.setWave_claims (s : State) (w : Nat) (v : Wave) : (s.setWave w v).claims = s.claims := rfl
@[simp] theorem State.setWave_host (s : State) (w : Nat) (v : Wave) : (s.setWave w v).host = s.host := rfl
@[simp] theorem State.setWave_nextFence (s : State) (w : Nat) (v : Wave) : (s.setWave w v).nextFence = s.nextFence := rfl
@[simp] theorem State.setWave_cores (s : State) (w : Nat) (v : Wave) : (s.setWave w v).cores = s.cores := rfl
@[simp] theorem State.setWave_dies (s : State) (w : Nat) (v : Wave) : (s.setWave w v).dies = s.dies := rfl
@[simp] theorem State.setWave_agenda (s : State) (w : Nat) (v : Wave) : (s.setWave w v).agenda = s.agenda := rfl
@[simp] theorem State.setWave_inflight (s : State) (w : Nat) (v : Wave) : (s.setWave w v).inflight = s.inflight := rfl
@[simp] theorem State.setWave_turn (s : State) (w : Nat) (v : Wave) : (s.setWave w v).turn = s.turn := rfl
@[simp] theorem State.setWave_steps (s : State) (w : Nat) (v : Wave) : (s.setWave w v).steps = s.steps := rfl
@[simp] theorem State.setWave_free (s : State) (w : Nat) (v : Wave) : (s.setWave w v).free = s.free := rfl
@[simp] theorem State.setWave_ticks (s : State) (w : Nat) (v : Wave) : (s.setWave w v).ticks = s.ticks := rfl
@[simp] theorem State.setWave_cycles (s : State) (w : Nat) (v : Wave) : (s.setWave w v).cycles = s.cycles := rfl

/-! ## State.modWave -/

@[simp] theorem State.modWave_mem (s : State) (w : Nat) (f : Wave → Wave) : (s.modWave w f).mem = s.mem := rfl
@[simp] theorem State.modWave_mpoison (s : State) (w : Nat) (f : Wave → Wave) : (s.modWave w f).mpoison = s.mpoison := rfl
@[simp] theorem State.modWave_stackDown (s : State) (w : Nat) (f : Wave → Wave) : (s.modWave w f).stackDown = s.stackDown := rfl
@[simp] theorem State.modWave_mclean (s : State) (w : Nat) (f : Wave → Wave) : (s.modWave w f).mclean = s.mclean := rfl
@[simp] theorem State.modWave_futures (s : State) (w : Nat) (f : Wave → Wave) : (s.modWave w f).futures = s.futures := rfl
@[simp] theorem State.modWave_dir (s : State) (w : Nat) (f : Wave → Wave) : (s.modWave w f).dir = s.dir := rfl
@[simp] theorem State.modWave_rdc (s : State) (w : Nat) (f : Wave → Wave) : (s.modWave w f).rdc = s.rdc := rfl
@[simp] theorem State.modWave_wbBuf (s : State) (w : Nat) (f : Wave → Wave) : (s.modWave w f).wbBuf = s.wbBuf := rfl
@[simp] theorem State.modWave_homeQ (s : State) (w : Nat) (f : Wave → Wave) : (s.modWave w f).homeQ = s.homeQ := rfl
@[simp] theorem State.modWave_pages (s : State) (w : Nat) (f : Wave → Wave) : (s.modWave w f).pages = s.pages := rfl
@[simp] theorem State.modWave_acks (s : State) (w : Nat) (f : Wave → Wave) : (s.modWave w f).acks = s.acks := rfl
@[simp] theorem State.modWave_nextAck (s : State) (w : Nat) (f : Wave → Wave) : (s.modWave w f).nextAck = s.nextAck := rfl
@[simp] theorem State.modWave_locks (s : State) (w : Nat) (f : Wave → Wave) : (s.modWave w f).locks = s.locks := rfl
@[simp] theorem State.modWave_cxl (s : State) (w : Nat) (f : Wave → Wave) : (s.modWave w f).cxl = s.cxl := rfl
@[simp] theorem State.modWave_waves (s : State) (w : Nat) (f : Wave → Wave) : (s.modWave w f).waves = Tab.mod s.waves w f := rfl
@[simp] theorem State.modWave_crews (s : State) (w : Nat) (f : Wave → Wave) : (s.modWave w f).crews = s.crews := rfl
@[simp] theorem State.modWave_procs (s : State) (w : Nat) (f : Wave → Wave) : (s.modWave w f).procs = s.procs := rfl
@[simp] theorem State.modWave_objs (s : State) (w : Nat) (f : Wave → Wave) : (s.modWave w f).objs = s.objs := rfl
@[simp] theorem State.modWave_ports (s : State) (w : Nat) (f : Wave → Wave) : (s.modWave w f).ports = s.ports := rfl
@[simp] theorem State.modWave_wsets (s : State) (w : Nat) (f : Wave → Wave) : (s.modWave w f).wsets = s.wsets := rfl
@[simp] theorem State.modWave_timers (s : State) (w : Nat) (f : Wave → Wave) : (s.modWave w f).timers = s.timers := rfl
@[simp] theorem State.modWave_tqs (s : State) (w : Nat) (f : Wave → Wave) : (s.modWave w f).tqs = s.tqs := rfl
@[simp] theorem State.modWave_names (s : State) (w : Nat) (f : Wave → Wave) : (s.modWave w f).names = s.names := rfl
@[simp] theorem State.modWave_farNames (s : State) (w : Nat) (f : Wave → Wave) : (s.modWave w f).farNames = s.farNames := rfl
@[simp] theorem State.modWave_nameCache (s : State) (w : Nat) (f : Wave → Wave) : (s.modWave w f).nameCache = s.nameCache := rfl
@[simp] theorem State.modWave_opslots (s : State) (w : Nat) (f : Wave → Wave) : (s.modWave w f).opslots = s.opslots := rfl
@[simp] theorem State.modWave_accs (s : State) (w : Nat) (f : Wave → Wave) : (s.modWave w f).accs = s.accs := rfl
@[simp] theorem State.modWave_nextStore (s : State) (w : Nat) (f : Wave → Wave) : (s.modWave w f).nextStore = s.nextStore := rfl
@[simp] theorem State.modWave_shoots (s : State) (w : Nat) (f : Wave → Wave) : (s.modWave w f).shoots = s.shoots := rfl
@[simp] theorem State.modWave_nextShoot (s : State) (w : Nat) (f : Wave → Wave) : (s.modWave w f).nextShoot = s.nextShoot := rfl
@[simp] theorem State.modWave_runq (s : State) (w : Nat) (f : Wave → Wave) : (s.modWave w f).runq = s.runq := rfl
@[simp] theorem State.modWave_gangs (s : State) (w : Nat) (f : Wave → Wave) : (s.modWave w f).gangs = s.gangs := rfl
@[simp] theorem State.modWave_claims (s : State) (w : Nat) (f : Wave → Wave) : (s.modWave w f).claims = s.claims := rfl
@[simp] theorem State.modWave_host (s : State) (w : Nat) (f : Wave → Wave) : (s.modWave w f).host = s.host := rfl
@[simp] theorem State.modWave_nextFence (s : State) (w : Nat) (f : Wave → Wave) : (s.modWave w f).nextFence = s.nextFence := rfl
@[simp] theorem State.modWave_cores (s : State) (w : Nat) (f : Wave → Wave) : (s.modWave w f).cores = s.cores := rfl
@[simp] theorem State.modWave_dies (s : State) (w : Nat) (f : Wave → Wave) : (s.modWave w f).dies = s.dies := rfl
@[simp] theorem State.modWave_agenda (s : State) (w : Nat) (f : Wave → Wave) : (s.modWave w f).agenda = s.agenda := rfl
@[simp] theorem State.modWave_inflight (s : State) (w : Nat) (f : Wave → Wave) : (s.modWave w f).inflight = s.inflight := rfl
@[simp] theorem State.modWave_turn (s : State) (w : Nat) (f : Wave → Wave) : (s.modWave w f).turn = s.turn := rfl
@[simp] theorem State.modWave_steps (s : State) (w : Nat) (f : Wave → Wave) : (s.modWave w f).steps = s.steps := rfl
@[simp] theorem State.modWave_free (s : State) (w : Nat) (f : Wave → Wave) : (s.modWave w f).free = s.free := rfl
@[simp] theorem State.modWave_ticks (s : State) (w : Nat) (f : Wave → Wave) : (s.modWave w f).ticks = s.ticks := rfl
@[simp] theorem State.modWave_cycles (s : State) (w : Nat) (f : Wave → Wave) : (s.modWave w f).cycles = s.cycles := rfl

/-! ## State.setCrew -/

@[simp] theorem State.setCrew_mem (s : State) (c : Nat) (k : Crew) : (s.setCrew c k).mem = s.mem := rfl
@[simp] theorem State.setCrew_mpoison (s : State) (c : Nat) (k : Crew) : (s.setCrew c k).mpoison = s.mpoison := rfl
@[simp] theorem State.setCrew_stackDown (s : State) (c : Nat) (k : Crew) : (s.setCrew c k).stackDown = s.stackDown := rfl
@[simp] theorem State.setCrew_mclean (s : State) (c : Nat) (k : Crew) : (s.setCrew c k).mclean = s.mclean := rfl
@[simp] theorem State.setCrew_futures (s : State) (c : Nat) (k : Crew) : (s.setCrew c k).futures = s.futures := rfl
@[simp] theorem State.setCrew_dir (s : State) (c : Nat) (k : Crew) : (s.setCrew c k).dir = s.dir := rfl
@[simp] theorem State.setCrew_rdc (s : State) (c : Nat) (k : Crew) : (s.setCrew c k).rdc = s.rdc := rfl
@[simp] theorem State.setCrew_wbBuf (s : State) (c : Nat) (k : Crew) : (s.setCrew c k).wbBuf = s.wbBuf := rfl
@[simp] theorem State.setCrew_homeQ (s : State) (c : Nat) (k : Crew) : (s.setCrew c k).homeQ = s.homeQ := rfl
@[simp] theorem State.setCrew_pages (s : State) (c : Nat) (k : Crew) : (s.setCrew c k).pages = s.pages := rfl
@[simp] theorem State.setCrew_acks (s : State) (c : Nat) (k : Crew) : (s.setCrew c k).acks = s.acks := rfl
@[simp] theorem State.setCrew_nextAck (s : State) (c : Nat) (k : Crew) : (s.setCrew c k).nextAck = s.nextAck := rfl
@[simp] theorem State.setCrew_locks (s : State) (c : Nat) (k : Crew) : (s.setCrew c k).locks = s.locks := rfl
@[simp] theorem State.setCrew_cxl (s : State) (c : Nat) (k : Crew) : (s.setCrew c k).cxl = s.cxl := rfl
@[simp] theorem State.setCrew_waves (s : State) (c : Nat) (k : Crew) : (s.setCrew c k).waves = s.waves := rfl
@[simp] theorem State.setCrew_crews (s : State) (c : Nat) (k : Crew) : (s.setCrew c k).crews = Tab.set s.crews c k := rfl
@[simp] theorem State.setCrew_procs (s : State) (c : Nat) (k : Crew) : (s.setCrew c k).procs = s.procs := rfl
@[simp] theorem State.setCrew_objs (s : State) (c : Nat) (k : Crew) : (s.setCrew c k).objs = s.objs := rfl
@[simp] theorem State.setCrew_ports (s : State) (c : Nat) (k : Crew) : (s.setCrew c k).ports = s.ports := rfl
@[simp] theorem State.setCrew_wsets (s : State) (c : Nat) (k : Crew) : (s.setCrew c k).wsets = s.wsets := rfl
@[simp] theorem State.setCrew_timers (s : State) (c : Nat) (k : Crew) : (s.setCrew c k).timers = s.timers := rfl
@[simp] theorem State.setCrew_tqs (s : State) (c : Nat) (k : Crew) : (s.setCrew c k).tqs = s.tqs := rfl
@[simp] theorem State.setCrew_names (s : State) (c : Nat) (k : Crew) : (s.setCrew c k).names = s.names := rfl
@[simp] theorem State.setCrew_farNames (s : State) (c : Nat) (k : Crew) : (s.setCrew c k).farNames = s.farNames := rfl
@[simp] theorem State.setCrew_nameCache (s : State) (c : Nat) (k : Crew) : (s.setCrew c k).nameCache = s.nameCache := rfl
@[simp] theorem State.setCrew_opslots (s : State) (c : Nat) (k : Crew) : (s.setCrew c k).opslots = s.opslots := rfl
@[simp] theorem State.setCrew_accs (s : State) (c : Nat) (k : Crew) : (s.setCrew c k).accs = s.accs := rfl
@[simp] theorem State.setCrew_nextStore (s : State) (c : Nat) (k : Crew) : (s.setCrew c k).nextStore = s.nextStore := rfl
@[simp] theorem State.setCrew_shoots (s : State) (c : Nat) (k : Crew) : (s.setCrew c k).shoots = s.shoots := rfl
@[simp] theorem State.setCrew_nextShoot (s : State) (c : Nat) (k : Crew) : (s.setCrew c k).nextShoot = s.nextShoot := rfl
@[simp] theorem State.setCrew_runq (s : State) (c : Nat) (k : Crew) : (s.setCrew c k).runq = s.runq := rfl
@[simp] theorem State.setCrew_gangs (s : State) (c : Nat) (k : Crew) : (s.setCrew c k).gangs = s.gangs := rfl
@[simp] theorem State.setCrew_claims (s : State) (c : Nat) (k : Crew) : (s.setCrew c k).claims = s.claims := rfl
@[simp] theorem State.setCrew_host (s : State) (c : Nat) (k : Crew) : (s.setCrew c k).host = s.host := rfl
@[simp] theorem State.setCrew_nextFence (s : State) (c : Nat) (k : Crew) : (s.setCrew c k).nextFence = s.nextFence := rfl
@[simp] theorem State.setCrew_cores (s : State) (c : Nat) (k : Crew) : (s.setCrew c k).cores = s.cores := rfl
@[simp] theorem State.setCrew_dies (s : State) (c : Nat) (k : Crew) : (s.setCrew c k).dies = s.dies := rfl
@[simp] theorem State.setCrew_agenda (s : State) (c : Nat) (k : Crew) : (s.setCrew c k).agenda = s.agenda := rfl
@[simp] theorem State.setCrew_inflight (s : State) (c : Nat) (k : Crew) : (s.setCrew c k).inflight = s.inflight := rfl
@[simp] theorem State.setCrew_turn (s : State) (c : Nat) (k : Crew) : (s.setCrew c k).turn = s.turn := rfl
@[simp] theorem State.setCrew_steps (s : State) (c : Nat) (k : Crew) : (s.setCrew c k).steps = s.steps := rfl
@[simp] theorem State.setCrew_free (s : State) (c : Nat) (k : Crew) : (s.setCrew c k).free = s.free := rfl
@[simp] theorem State.setCrew_ticks (s : State) (c : Nat) (k : Crew) : (s.setCrew c k).ticks = s.ticks := rfl
@[simp] theorem State.setCrew_cycles (s : State) (c : Nat) (k : Crew) : (s.setCrew c k).cycles = s.cycles := rfl

/-! ## State.modCrew -/

@[simp] theorem State.modCrew_mem (s : State) (c : Nat) (f : Crew → Crew) : (s.modCrew c f).mem = s.mem := rfl
@[simp] theorem State.modCrew_mpoison (s : State) (c : Nat) (f : Crew → Crew) : (s.modCrew c f).mpoison = s.mpoison := rfl
@[simp] theorem State.modCrew_stackDown (s : State) (c : Nat) (f : Crew → Crew) : (s.modCrew c f).stackDown = s.stackDown := rfl
@[simp] theorem State.modCrew_mclean (s : State) (c : Nat) (f : Crew → Crew) : (s.modCrew c f).mclean = s.mclean := rfl
@[simp] theorem State.modCrew_futures (s : State) (c : Nat) (f : Crew → Crew) : (s.modCrew c f).futures = s.futures := rfl
@[simp] theorem State.modCrew_dir (s : State) (c : Nat) (f : Crew → Crew) : (s.modCrew c f).dir = s.dir := rfl
@[simp] theorem State.modCrew_rdc (s : State) (c : Nat) (f : Crew → Crew) : (s.modCrew c f).rdc = s.rdc := rfl
@[simp] theorem State.modCrew_wbBuf (s : State) (c : Nat) (f : Crew → Crew) : (s.modCrew c f).wbBuf = s.wbBuf := rfl
@[simp] theorem State.modCrew_homeQ (s : State) (c : Nat) (f : Crew → Crew) : (s.modCrew c f).homeQ = s.homeQ := rfl
@[simp] theorem State.modCrew_pages (s : State) (c : Nat) (f : Crew → Crew) : (s.modCrew c f).pages = s.pages := rfl
@[simp] theorem State.modCrew_acks (s : State) (c : Nat) (f : Crew → Crew) : (s.modCrew c f).acks = s.acks := rfl
@[simp] theorem State.modCrew_nextAck (s : State) (c : Nat) (f : Crew → Crew) : (s.modCrew c f).nextAck = s.nextAck := rfl
@[simp] theorem State.modCrew_locks (s : State) (c : Nat) (f : Crew → Crew) : (s.modCrew c f).locks = s.locks := rfl
@[simp] theorem State.modCrew_cxl (s : State) (c : Nat) (f : Crew → Crew) : (s.modCrew c f).cxl = s.cxl := rfl
@[simp] theorem State.modCrew_waves (s : State) (c : Nat) (f : Crew → Crew) : (s.modCrew c f).waves = s.waves := rfl
@[simp] theorem State.modCrew_crews (s : State) (c : Nat) (f : Crew → Crew) : (s.modCrew c f).crews = Tab.mod s.crews c f := rfl
@[simp] theorem State.modCrew_procs (s : State) (c : Nat) (f : Crew → Crew) : (s.modCrew c f).procs = s.procs := rfl
@[simp] theorem State.modCrew_objs (s : State) (c : Nat) (f : Crew → Crew) : (s.modCrew c f).objs = s.objs := rfl
@[simp] theorem State.modCrew_ports (s : State) (c : Nat) (f : Crew → Crew) : (s.modCrew c f).ports = s.ports := rfl
@[simp] theorem State.modCrew_wsets (s : State) (c : Nat) (f : Crew → Crew) : (s.modCrew c f).wsets = s.wsets := rfl
@[simp] theorem State.modCrew_timers (s : State) (c : Nat) (f : Crew → Crew) : (s.modCrew c f).timers = s.timers := rfl
@[simp] theorem State.modCrew_tqs (s : State) (c : Nat) (f : Crew → Crew) : (s.modCrew c f).tqs = s.tqs := rfl
@[simp] theorem State.modCrew_names (s : State) (c : Nat) (f : Crew → Crew) : (s.modCrew c f).names = s.names := rfl
@[simp] theorem State.modCrew_farNames (s : State) (c : Nat) (f : Crew → Crew) : (s.modCrew c f).farNames = s.farNames := rfl
@[simp] theorem State.modCrew_nameCache (s : State) (c : Nat) (f : Crew → Crew) : (s.modCrew c f).nameCache = s.nameCache := rfl
@[simp] theorem State.modCrew_opslots (s : State) (c : Nat) (f : Crew → Crew) : (s.modCrew c f).opslots = s.opslots := rfl
@[simp] theorem State.modCrew_accs (s : State) (c : Nat) (f : Crew → Crew) : (s.modCrew c f).accs = s.accs := rfl
@[simp] theorem State.modCrew_nextStore (s : State) (c : Nat) (f : Crew → Crew) : (s.modCrew c f).nextStore = s.nextStore := rfl
@[simp] theorem State.modCrew_shoots (s : State) (c : Nat) (f : Crew → Crew) : (s.modCrew c f).shoots = s.shoots := rfl
@[simp] theorem State.modCrew_nextShoot (s : State) (c : Nat) (f : Crew → Crew) : (s.modCrew c f).nextShoot = s.nextShoot := rfl
@[simp] theorem State.modCrew_runq (s : State) (c : Nat) (f : Crew → Crew) : (s.modCrew c f).runq = s.runq := rfl
@[simp] theorem State.modCrew_gangs (s : State) (c : Nat) (f : Crew → Crew) : (s.modCrew c f).gangs = s.gangs := rfl
@[simp] theorem State.modCrew_claims (s : State) (c : Nat) (f : Crew → Crew) : (s.modCrew c f).claims = s.claims := rfl
@[simp] theorem State.modCrew_host (s : State) (c : Nat) (f : Crew → Crew) : (s.modCrew c f).host = s.host := rfl
@[simp] theorem State.modCrew_nextFence (s : State) (c : Nat) (f : Crew → Crew) : (s.modCrew c f).nextFence = s.nextFence := rfl
@[simp] theorem State.modCrew_cores (s : State) (c : Nat) (f : Crew → Crew) : (s.modCrew c f).cores = s.cores := rfl
@[simp] theorem State.modCrew_dies (s : State) (c : Nat) (f : Crew → Crew) : (s.modCrew c f).dies = s.dies := rfl
@[simp] theorem State.modCrew_agenda (s : State) (c : Nat) (f : Crew → Crew) : (s.modCrew c f).agenda = s.agenda := rfl
@[simp] theorem State.modCrew_inflight (s : State) (c : Nat) (f : Crew → Crew) : (s.modCrew c f).inflight = s.inflight := rfl
@[simp] theorem State.modCrew_turn (s : State) (c : Nat) (f : Crew → Crew) : (s.modCrew c f).turn = s.turn := rfl
@[simp] theorem State.modCrew_steps (s : State) (c : Nat) (f : Crew → Crew) : (s.modCrew c f).steps = s.steps := rfl
@[simp] theorem State.modCrew_free (s : State) (c : Nat) (f : Crew → Crew) : (s.modCrew c f).free = s.free := rfl
@[simp] theorem State.modCrew_ticks (s : State) (c : Nat) (f : Crew → Crew) : (s.modCrew c f).ticks = s.ticks := rfl
@[simp] theorem State.modCrew_cycles (s : State) (c : Nat) (f : Crew → Crew) : (s.modCrew c f).cycles = s.cycles := rfl

/-! ## State.modProc -/

@[simp] theorem State.modProc_mem (s : State) (p : Nat) (f : Proc → Proc) : (s.modProc p f).mem = s.mem := rfl
@[simp] theorem State.modProc_mpoison (s : State) (p : Nat) (f : Proc → Proc) : (s.modProc p f).mpoison = s.mpoison := rfl
@[simp] theorem State.modProc_stackDown (s : State) (p : Nat) (f : Proc → Proc) : (s.modProc p f).stackDown = s.stackDown := rfl
@[simp] theorem State.modProc_mclean (s : State) (p : Nat) (f : Proc → Proc) : (s.modProc p f).mclean = s.mclean := rfl
@[simp] theorem State.modProc_futures (s : State) (p : Nat) (f : Proc → Proc) : (s.modProc p f).futures = s.futures := rfl
@[simp] theorem State.modProc_dir (s : State) (p : Nat) (f : Proc → Proc) : (s.modProc p f).dir = s.dir := rfl
@[simp] theorem State.modProc_rdc (s : State) (p : Nat) (f : Proc → Proc) : (s.modProc p f).rdc = s.rdc := rfl
@[simp] theorem State.modProc_wbBuf (s : State) (p : Nat) (f : Proc → Proc) : (s.modProc p f).wbBuf = s.wbBuf := rfl
@[simp] theorem State.modProc_homeQ (s : State) (p : Nat) (f : Proc → Proc) : (s.modProc p f).homeQ = s.homeQ := rfl
@[simp] theorem State.modProc_pages (s : State) (p : Nat) (f : Proc → Proc) : (s.modProc p f).pages = s.pages := rfl
@[simp] theorem State.modProc_acks (s : State) (p : Nat) (f : Proc → Proc) : (s.modProc p f).acks = s.acks := rfl
@[simp] theorem State.modProc_nextAck (s : State) (p : Nat) (f : Proc → Proc) : (s.modProc p f).nextAck = s.nextAck := rfl
@[simp] theorem State.modProc_locks (s : State) (p : Nat) (f : Proc → Proc) : (s.modProc p f).locks = s.locks := rfl
@[simp] theorem State.modProc_cxl (s : State) (p : Nat) (f : Proc → Proc) : (s.modProc p f).cxl = s.cxl := rfl
@[simp] theorem State.modProc_waves (s : State) (p : Nat) (f : Proc → Proc) : (s.modProc p f).waves = s.waves := rfl
@[simp] theorem State.modProc_crews (s : State) (p : Nat) (f : Proc → Proc) : (s.modProc p f).crews = s.crews := rfl
@[simp] theorem State.modProc_procs (s : State) (p : Nat) (f : Proc → Proc) : (s.modProc p f).procs = Tab.mod s.procs p f := rfl
@[simp] theorem State.modProc_objs (s : State) (p : Nat) (f : Proc → Proc) : (s.modProc p f).objs = s.objs := rfl
@[simp] theorem State.modProc_ports (s : State) (p : Nat) (f : Proc → Proc) : (s.modProc p f).ports = s.ports := rfl
@[simp] theorem State.modProc_wsets (s : State) (p : Nat) (f : Proc → Proc) : (s.modProc p f).wsets = s.wsets := rfl
@[simp] theorem State.modProc_timers (s : State) (p : Nat) (f : Proc → Proc) : (s.modProc p f).timers = s.timers := rfl
@[simp] theorem State.modProc_tqs (s : State) (p : Nat) (f : Proc → Proc) : (s.modProc p f).tqs = s.tqs := rfl
@[simp] theorem State.modProc_names (s : State) (p : Nat) (f : Proc → Proc) : (s.modProc p f).names = s.names := rfl
@[simp] theorem State.modProc_farNames (s : State) (p : Nat) (f : Proc → Proc) : (s.modProc p f).farNames = s.farNames := rfl
@[simp] theorem State.modProc_nameCache (s : State) (p : Nat) (f : Proc → Proc) : (s.modProc p f).nameCache = s.nameCache := rfl
@[simp] theorem State.modProc_opslots (s : State) (p : Nat) (f : Proc → Proc) : (s.modProc p f).opslots = s.opslots := rfl
@[simp] theorem State.modProc_accs (s : State) (p : Nat) (f : Proc → Proc) : (s.modProc p f).accs = s.accs := rfl
@[simp] theorem State.modProc_nextStore (s : State) (p : Nat) (f : Proc → Proc) : (s.modProc p f).nextStore = s.nextStore := rfl
@[simp] theorem State.modProc_shoots (s : State) (p : Nat) (f : Proc → Proc) : (s.modProc p f).shoots = s.shoots := rfl
@[simp] theorem State.modProc_nextShoot (s : State) (p : Nat) (f : Proc → Proc) : (s.modProc p f).nextShoot = s.nextShoot := rfl
@[simp] theorem State.modProc_runq (s : State) (p : Nat) (f : Proc → Proc) : (s.modProc p f).runq = s.runq := rfl
@[simp] theorem State.modProc_gangs (s : State) (p : Nat) (f : Proc → Proc) : (s.modProc p f).gangs = s.gangs := rfl
@[simp] theorem State.modProc_claims (s : State) (p : Nat) (f : Proc → Proc) : (s.modProc p f).claims = s.claims := rfl
@[simp] theorem State.modProc_host (s : State) (p : Nat) (f : Proc → Proc) : (s.modProc p f).host = s.host := rfl
@[simp] theorem State.modProc_nextFence (s : State) (p : Nat) (f : Proc → Proc) : (s.modProc p f).nextFence = s.nextFence := rfl
@[simp] theorem State.modProc_cores (s : State) (p : Nat) (f : Proc → Proc) : (s.modProc p f).cores = s.cores := rfl
@[simp] theorem State.modProc_dies (s : State) (p : Nat) (f : Proc → Proc) : (s.modProc p f).dies = s.dies := rfl
@[simp] theorem State.modProc_agenda (s : State) (p : Nat) (f : Proc → Proc) : (s.modProc p f).agenda = s.agenda := rfl
@[simp] theorem State.modProc_inflight (s : State) (p : Nat) (f : Proc → Proc) : (s.modProc p f).inflight = s.inflight := rfl
@[simp] theorem State.modProc_turn (s : State) (p : Nat) (f : Proc → Proc) : (s.modProc p f).turn = s.turn := rfl
@[simp] theorem State.modProc_steps (s : State) (p : Nat) (f : Proc → Proc) : (s.modProc p f).steps = s.steps := rfl
@[simp] theorem State.modProc_free (s : State) (p : Nat) (f : Proc → Proc) : (s.modProc p f).free = s.free := rfl
@[simp] theorem State.modProc_ticks (s : State) (p : Nat) (f : Proc → Proc) : (s.modProc p f).ticks = s.ticks := rfl
@[simp] theorem State.modProc_cycles (s : State) (p : Nat) (f : Proc → Proc) : (s.modProc p f).cycles = s.cycles := rfl

/-! ## State.modCore -/

@[simp] theorem State.modCore_mem (s : State) (c : Nat) (f : Core → Core) : (s.modCore c f).mem = s.mem := rfl
@[simp] theorem State.modCore_mpoison (s : State) (c : Nat) (f : Core → Core) : (s.modCore c f).mpoison = s.mpoison := rfl
@[simp] theorem State.modCore_stackDown (s : State) (c : Nat) (f : Core → Core) : (s.modCore c f).stackDown = s.stackDown := rfl
@[simp] theorem State.modCore_mclean (s : State) (c : Nat) (f : Core → Core) : (s.modCore c f).mclean = s.mclean := rfl
@[simp] theorem State.modCore_futures (s : State) (c : Nat) (f : Core → Core) : (s.modCore c f).futures = s.futures := rfl
@[simp] theorem State.modCore_dir (s : State) (c : Nat) (f : Core → Core) : (s.modCore c f).dir = s.dir := rfl
@[simp] theorem State.modCore_rdc (s : State) (c : Nat) (f : Core → Core) : (s.modCore c f).rdc = s.rdc := rfl
@[simp] theorem State.modCore_wbBuf (s : State) (c : Nat) (f : Core → Core) : (s.modCore c f).wbBuf = s.wbBuf := rfl
@[simp] theorem State.modCore_homeQ (s : State) (c : Nat) (f : Core → Core) : (s.modCore c f).homeQ = s.homeQ := rfl
@[simp] theorem State.modCore_pages (s : State) (c : Nat) (f : Core → Core) : (s.modCore c f).pages = s.pages := rfl
@[simp] theorem State.modCore_acks (s : State) (c : Nat) (f : Core → Core) : (s.modCore c f).acks = s.acks := rfl
@[simp] theorem State.modCore_nextAck (s : State) (c : Nat) (f : Core → Core) : (s.modCore c f).nextAck = s.nextAck := rfl
@[simp] theorem State.modCore_locks (s : State) (c : Nat) (f : Core → Core) : (s.modCore c f).locks = s.locks := rfl
@[simp] theorem State.modCore_cxl (s : State) (c : Nat) (f : Core → Core) : (s.modCore c f).cxl = s.cxl := rfl
@[simp] theorem State.modCore_waves (s : State) (c : Nat) (f : Core → Core) : (s.modCore c f).waves = s.waves := rfl
@[simp] theorem State.modCore_crews (s : State) (c : Nat) (f : Core → Core) : (s.modCore c f).crews = s.crews := rfl
@[simp] theorem State.modCore_procs (s : State) (c : Nat) (f : Core → Core) : (s.modCore c f).procs = s.procs := rfl
@[simp] theorem State.modCore_objs (s : State) (c : Nat) (f : Core → Core) : (s.modCore c f).objs = s.objs := rfl
@[simp] theorem State.modCore_ports (s : State) (c : Nat) (f : Core → Core) : (s.modCore c f).ports = s.ports := rfl
@[simp] theorem State.modCore_wsets (s : State) (c : Nat) (f : Core → Core) : (s.modCore c f).wsets = s.wsets := rfl
@[simp] theorem State.modCore_timers (s : State) (c : Nat) (f : Core → Core) : (s.modCore c f).timers = s.timers := rfl
@[simp] theorem State.modCore_tqs (s : State) (c : Nat) (f : Core → Core) : (s.modCore c f).tqs = s.tqs := rfl
@[simp] theorem State.modCore_names (s : State) (c : Nat) (f : Core → Core) : (s.modCore c f).names = s.names := rfl
@[simp] theorem State.modCore_farNames (s : State) (c : Nat) (f : Core → Core) : (s.modCore c f).farNames = s.farNames := rfl
@[simp] theorem State.modCore_nameCache (s : State) (c : Nat) (f : Core → Core) : (s.modCore c f).nameCache = s.nameCache := rfl
@[simp] theorem State.modCore_opslots (s : State) (c : Nat) (f : Core → Core) : (s.modCore c f).opslots = s.opslots := rfl
@[simp] theorem State.modCore_accs (s : State) (c : Nat) (f : Core → Core) : (s.modCore c f).accs = s.accs := rfl
@[simp] theorem State.modCore_nextStore (s : State) (c : Nat) (f : Core → Core) : (s.modCore c f).nextStore = s.nextStore := rfl
@[simp] theorem State.modCore_shoots (s : State) (c : Nat) (f : Core → Core) : (s.modCore c f).shoots = s.shoots := rfl
@[simp] theorem State.modCore_nextShoot (s : State) (c : Nat) (f : Core → Core) : (s.modCore c f).nextShoot = s.nextShoot := rfl
@[simp] theorem State.modCore_runq (s : State) (c : Nat) (f : Core → Core) : (s.modCore c f).runq = s.runq := rfl
@[simp] theorem State.modCore_gangs (s : State) (c : Nat) (f : Core → Core) : (s.modCore c f).gangs = s.gangs := rfl
@[simp] theorem State.modCore_claims (s : State) (c : Nat) (f : Core → Core) : (s.modCore c f).claims = s.claims := rfl
@[simp] theorem State.modCore_host (s : State) (c : Nat) (f : Core → Core) : (s.modCore c f).host = s.host := rfl
@[simp] theorem State.modCore_nextFence (s : State) (c : Nat) (f : Core → Core) : (s.modCore c f).nextFence = s.nextFence := rfl
@[simp] theorem State.modCore_cores (s : State) (c : Nat) (f : Core → Core) : (s.modCore c f).cores = Tab.modD s.cores c {} f := rfl
@[simp] theorem State.modCore_dies (s : State) (c : Nat) (f : Core → Core) : (s.modCore c f).dies = s.dies := rfl
@[simp] theorem State.modCore_agenda (s : State) (c : Nat) (f : Core → Core) : (s.modCore c f).agenda = s.agenda := rfl
@[simp] theorem State.modCore_inflight (s : State) (c : Nat) (f : Core → Core) : (s.modCore c f).inflight = s.inflight := rfl
@[simp] theorem State.modCore_turn (s : State) (c : Nat) (f : Core → Core) : (s.modCore c f).turn = s.turn := rfl
@[simp] theorem State.modCore_steps (s : State) (c : Nat) (f : Core → Core) : (s.modCore c f).steps = s.steps := rfl
@[simp] theorem State.modCore_free (s : State) (c : Nat) (f : Core → Core) : (s.modCore c f).free = s.free := rfl
@[simp] theorem State.modCore_ticks (s : State) (c : Nat) (f : Core → Core) : (s.modCore c f).ticks = s.ticks := rfl
@[simp] theorem State.modCore_cycles (s : State) (c : Nat) (f : Core → Core) : (s.modCore c f).cycles = s.cycles := rfl

/-! ## State.modDie -/

@[simp] theorem State.modDie_mem (s : State) (d : Nat) (f : Die → Die) : (s.modDie d f).mem = s.mem := rfl
@[simp] theorem State.modDie_mpoison (s : State) (d : Nat) (f : Die → Die) : (s.modDie d f).mpoison = s.mpoison := rfl
@[simp] theorem State.modDie_stackDown (s : State) (d : Nat) (f : Die → Die) : (s.modDie d f).stackDown = s.stackDown := rfl
@[simp] theorem State.modDie_mclean (s : State) (d : Nat) (f : Die → Die) : (s.modDie d f).mclean = s.mclean := rfl
@[simp] theorem State.modDie_futures (s : State) (d : Nat) (f : Die → Die) : (s.modDie d f).futures = s.futures := rfl
@[simp] theorem State.modDie_dir (s : State) (d : Nat) (f : Die → Die) : (s.modDie d f).dir = s.dir := rfl
@[simp] theorem State.modDie_rdc (s : State) (d : Nat) (f : Die → Die) : (s.modDie d f).rdc = s.rdc := rfl
@[simp] theorem State.modDie_wbBuf (s : State) (d : Nat) (f : Die → Die) : (s.modDie d f).wbBuf = s.wbBuf := rfl
@[simp] theorem State.modDie_homeQ (s : State) (d : Nat) (f : Die → Die) : (s.modDie d f).homeQ = s.homeQ := rfl
@[simp] theorem State.modDie_pages (s : State) (d : Nat) (f : Die → Die) : (s.modDie d f).pages = s.pages := rfl
@[simp] theorem State.modDie_acks (s : State) (d : Nat) (f : Die → Die) : (s.modDie d f).acks = s.acks := rfl
@[simp] theorem State.modDie_nextAck (s : State) (d : Nat) (f : Die → Die) : (s.modDie d f).nextAck = s.nextAck := rfl
@[simp] theorem State.modDie_locks (s : State) (d : Nat) (f : Die → Die) : (s.modDie d f).locks = s.locks := rfl
@[simp] theorem State.modDie_cxl (s : State) (d : Nat) (f : Die → Die) : (s.modDie d f).cxl = s.cxl := rfl
@[simp] theorem State.modDie_waves (s : State) (d : Nat) (f : Die → Die) : (s.modDie d f).waves = s.waves := rfl
@[simp] theorem State.modDie_crews (s : State) (d : Nat) (f : Die → Die) : (s.modDie d f).crews = s.crews := rfl
@[simp] theorem State.modDie_procs (s : State) (d : Nat) (f : Die → Die) : (s.modDie d f).procs = s.procs := rfl
@[simp] theorem State.modDie_objs (s : State) (d : Nat) (f : Die → Die) : (s.modDie d f).objs = s.objs := rfl
@[simp] theorem State.modDie_ports (s : State) (d : Nat) (f : Die → Die) : (s.modDie d f).ports = s.ports := rfl
@[simp] theorem State.modDie_wsets (s : State) (d : Nat) (f : Die → Die) : (s.modDie d f).wsets = s.wsets := rfl
@[simp] theorem State.modDie_timers (s : State) (d : Nat) (f : Die → Die) : (s.modDie d f).timers = s.timers := rfl
@[simp] theorem State.modDie_tqs (s : State) (d : Nat) (f : Die → Die) : (s.modDie d f).tqs = s.tqs := rfl
@[simp] theorem State.modDie_names (s : State) (d : Nat) (f : Die → Die) : (s.modDie d f).names = s.names := rfl
@[simp] theorem State.modDie_farNames (s : State) (d : Nat) (f : Die → Die) : (s.modDie d f).farNames = s.farNames := rfl
@[simp] theorem State.modDie_nameCache (s : State) (d : Nat) (f : Die → Die) : (s.modDie d f).nameCache = s.nameCache := rfl
@[simp] theorem State.modDie_opslots (s : State) (d : Nat) (f : Die → Die) : (s.modDie d f).opslots = s.opslots := rfl
@[simp] theorem State.modDie_accs (s : State) (d : Nat) (f : Die → Die) : (s.modDie d f).accs = s.accs := rfl
@[simp] theorem State.modDie_nextStore (s : State) (d : Nat) (f : Die → Die) : (s.modDie d f).nextStore = s.nextStore := rfl
@[simp] theorem State.modDie_shoots (s : State) (d : Nat) (f : Die → Die) : (s.modDie d f).shoots = s.shoots := rfl
@[simp] theorem State.modDie_nextShoot (s : State) (d : Nat) (f : Die → Die) : (s.modDie d f).nextShoot = s.nextShoot := rfl
@[simp] theorem State.modDie_runq (s : State) (d : Nat) (f : Die → Die) : (s.modDie d f).runq = s.runq := rfl
@[simp] theorem State.modDie_gangs (s : State) (d : Nat) (f : Die → Die) : (s.modDie d f).gangs = s.gangs := rfl
@[simp] theorem State.modDie_claims (s : State) (d : Nat) (f : Die → Die) : (s.modDie d f).claims = s.claims := rfl
@[simp] theorem State.modDie_host (s : State) (d : Nat) (f : Die → Die) : (s.modDie d f).host = s.host := rfl
@[simp] theorem State.modDie_nextFence (s : State) (d : Nat) (f : Die → Die) : (s.modDie d f).nextFence = s.nextFence := rfl
@[simp] theorem State.modDie_cores (s : State) (d : Nat) (f : Die → Die) : (s.modDie d f).cores = s.cores := rfl
@[simp] theorem State.modDie_dies (s : State) (d : Nat) (f : Die → Die) : (s.modDie d f).dies = Tab.modD s.dies d {} f := rfl
@[simp] theorem State.modDie_agenda (s : State) (d : Nat) (f : Die → Die) : (s.modDie d f).agenda = s.agenda := rfl
@[simp] theorem State.modDie_inflight (s : State) (d : Nat) (f : Die → Die) : (s.modDie d f).inflight = s.inflight := rfl
@[simp] theorem State.modDie_turn (s : State) (d : Nat) (f : Die → Die) : (s.modDie d f).turn = s.turn := rfl
@[simp] theorem State.modDie_steps (s : State) (d : Nat) (f : Die → Die) : (s.modDie d f).steps = s.steps := rfl
@[simp] theorem State.modDie_free (s : State) (d : Nat) (f : Die → Die) : (s.modDie d f).free = s.free := rfl
@[simp] theorem State.modDie_ticks (s : State) (d : Nat) (f : Die → Die) : (s.modDie d f).ticks = s.ticks := rfl
@[simp] theorem State.modDie_cycles (s : State) (d : Nat) (f : Die → Die) : (s.modDie d f).cycles = s.cycles := rfl

/-! ## State.modObj -/

@[simp] theorem State.modObj_mem (s : State) (i : Nat) (f : Obj → Obj) : (s.modObj i f).mem = s.mem := rfl
@[simp] theorem State.modObj_mpoison (s : State) (i : Nat) (f : Obj → Obj) : (s.modObj i f).mpoison = s.mpoison := rfl
@[simp] theorem State.modObj_stackDown (s : State) (i : Nat) (f : Obj → Obj) : (s.modObj i f).stackDown = s.stackDown := rfl
@[simp] theorem State.modObj_mclean (s : State) (i : Nat) (f : Obj → Obj) : (s.modObj i f).mclean = s.mclean := rfl
@[simp] theorem State.modObj_futures (s : State) (i : Nat) (f : Obj → Obj) : (s.modObj i f).futures = s.futures := rfl
@[simp] theorem State.modObj_dir (s : State) (i : Nat) (f : Obj → Obj) : (s.modObj i f).dir = s.dir := rfl
@[simp] theorem State.modObj_rdc (s : State) (i : Nat) (f : Obj → Obj) : (s.modObj i f).rdc = s.rdc := rfl
@[simp] theorem State.modObj_wbBuf (s : State) (i : Nat) (f : Obj → Obj) : (s.modObj i f).wbBuf = s.wbBuf := rfl
@[simp] theorem State.modObj_homeQ (s : State) (i : Nat) (f : Obj → Obj) : (s.modObj i f).homeQ = s.homeQ := rfl
@[simp] theorem State.modObj_pages (s : State) (i : Nat) (f : Obj → Obj) : (s.modObj i f).pages = s.pages := rfl
@[simp] theorem State.modObj_acks (s : State) (i : Nat) (f : Obj → Obj) : (s.modObj i f).acks = s.acks := rfl
@[simp] theorem State.modObj_nextAck (s : State) (i : Nat) (f : Obj → Obj) : (s.modObj i f).nextAck = s.nextAck := rfl
@[simp] theorem State.modObj_locks (s : State) (i : Nat) (f : Obj → Obj) : (s.modObj i f).locks = s.locks := rfl
@[simp] theorem State.modObj_cxl (s : State) (i : Nat) (f : Obj → Obj) : (s.modObj i f).cxl = s.cxl := rfl
@[simp] theorem State.modObj_waves (s : State) (i : Nat) (f : Obj → Obj) : (s.modObj i f).waves = s.waves := rfl
@[simp] theorem State.modObj_crews (s : State) (i : Nat) (f : Obj → Obj) : (s.modObj i f).crews = s.crews := rfl
@[simp] theorem State.modObj_procs (s : State) (i : Nat) (f : Obj → Obj) : (s.modObj i f).procs = s.procs := rfl
@[simp] theorem State.modObj_objs (s : State) (i : Nat) (f : Obj → Obj) : (s.modObj i f).objs = Tab.modD s.objs i {} f := rfl
@[simp] theorem State.modObj_ports (s : State) (i : Nat) (f : Obj → Obj) : (s.modObj i f).ports = s.ports := rfl
@[simp] theorem State.modObj_wsets (s : State) (i : Nat) (f : Obj → Obj) : (s.modObj i f).wsets = s.wsets := rfl
@[simp] theorem State.modObj_timers (s : State) (i : Nat) (f : Obj → Obj) : (s.modObj i f).timers = s.timers := rfl
@[simp] theorem State.modObj_tqs (s : State) (i : Nat) (f : Obj → Obj) : (s.modObj i f).tqs = s.tqs := rfl
@[simp] theorem State.modObj_names (s : State) (i : Nat) (f : Obj → Obj) : (s.modObj i f).names = s.names := rfl
@[simp] theorem State.modObj_farNames (s : State) (i : Nat) (f : Obj → Obj) : (s.modObj i f).farNames = s.farNames := rfl
@[simp] theorem State.modObj_nameCache (s : State) (i : Nat) (f : Obj → Obj) : (s.modObj i f).nameCache = s.nameCache := rfl
@[simp] theorem State.modObj_opslots (s : State) (i : Nat) (f : Obj → Obj) : (s.modObj i f).opslots = s.opslots := rfl
@[simp] theorem State.modObj_accs (s : State) (i : Nat) (f : Obj → Obj) : (s.modObj i f).accs = s.accs := rfl
@[simp] theorem State.modObj_nextStore (s : State) (i : Nat) (f : Obj → Obj) : (s.modObj i f).nextStore = s.nextStore := rfl
@[simp] theorem State.modObj_shoots (s : State) (i : Nat) (f : Obj → Obj) : (s.modObj i f).shoots = s.shoots := rfl
@[simp] theorem State.modObj_nextShoot (s : State) (i : Nat) (f : Obj → Obj) : (s.modObj i f).nextShoot = s.nextShoot := rfl
@[simp] theorem State.modObj_runq (s : State) (i : Nat) (f : Obj → Obj) : (s.modObj i f).runq = s.runq := rfl
@[simp] theorem State.modObj_gangs (s : State) (i : Nat) (f : Obj → Obj) : (s.modObj i f).gangs = s.gangs := rfl
@[simp] theorem State.modObj_claims (s : State) (i : Nat) (f : Obj → Obj) : (s.modObj i f).claims = s.claims := rfl
@[simp] theorem State.modObj_host (s : State) (i : Nat) (f : Obj → Obj) : (s.modObj i f).host = s.host := rfl
@[simp] theorem State.modObj_nextFence (s : State) (i : Nat) (f : Obj → Obj) : (s.modObj i f).nextFence = s.nextFence := rfl
@[simp] theorem State.modObj_cores (s : State) (i : Nat) (f : Obj → Obj) : (s.modObj i f).cores = s.cores := rfl
@[simp] theorem State.modObj_dies (s : State) (i : Nat) (f : Obj → Obj) : (s.modObj i f).dies = s.dies := rfl
@[simp] theorem State.modObj_agenda (s : State) (i : Nat) (f : Obj → Obj) : (s.modObj i f).agenda = s.agenda := rfl
@[simp] theorem State.modObj_inflight (s : State) (i : Nat) (f : Obj → Obj) : (s.modObj i f).inflight = s.inflight := rfl
@[simp] theorem State.modObj_turn (s : State) (i : Nat) (f : Obj → Obj) : (s.modObj i f).turn = s.turn := rfl
@[simp] theorem State.modObj_steps (s : State) (i : Nat) (f : Obj → Obj) : (s.modObj i f).steps = s.steps := rfl
@[simp] theorem State.modObj_free (s : State) (i : Nat) (f : Obj → Obj) : (s.modObj i f).free = s.free := rfl
@[simp] theorem State.modObj_ticks (s : State) (i : Nat) (f : Obj → Obj) : (s.modObj i f).ticks = s.ticks := rfl
@[simp] theorem State.modObj_cycles (s : State) (i : Nat) (f : Obj → Obj) : (s.modObj i f).cycles = s.cycles := rfl

/-! ## State.modPort -/

@[simp] theorem State.modPort_mem (s : State) (i : Nat) (f : Port → Port) : (s.modPort i f).mem = s.mem := rfl
@[simp] theorem State.modPort_mpoison (s : State) (i : Nat) (f : Port → Port) : (s.modPort i f).mpoison = s.mpoison := rfl
@[simp] theorem State.modPort_stackDown (s : State) (i : Nat) (f : Port → Port) : (s.modPort i f).stackDown = s.stackDown := rfl
@[simp] theorem State.modPort_mclean (s : State) (i : Nat) (f : Port → Port) : (s.modPort i f).mclean = s.mclean := rfl
@[simp] theorem State.modPort_futures (s : State) (i : Nat) (f : Port → Port) : (s.modPort i f).futures = s.futures := rfl
@[simp] theorem State.modPort_dir (s : State) (i : Nat) (f : Port → Port) : (s.modPort i f).dir = s.dir := rfl
@[simp] theorem State.modPort_rdc (s : State) (i : Nat) (f : Port → Port) : (s.modPort i f).rdc = s.rdc := rfl
@[simp] theorem State.modPort_wbBuf (s : State) (i : Nat) (f : Port → Port) : (s.modPort i f).wbBuf = s.wbBuf := rfl
@[simp] theorem State.modPort_homeQ (s : State) (i : Nat) (f : Port → Port) : (s.modPort i f).homeQ = s.homeQ := rfl
@[simp] theorem State.modPort_pages (s : State) (i : Nat) (f : Port → Port) : (s.modPort i f).pages = s.pages := rfl
@[simp] theorem State.modPort_acks (s : State) (i : Nat) (f : Port → Port) : (s.modPort i f).acks = s.acks := rfl
@[simp] theorem State.modPort_nextAck (s : State) (i : Nat) (f : Port → Port) : (s.modPort i f).nextAck = s.nextAck := rfl
@[simp] theorem State.modPort_locks (s : State) (i : Nat) (f : Port → Port) : (s.modPort i f).locks = s.locks := rfl
@[simp] theorem State.modPort_cxl (s : State) (i : Nat) (f : Port → Port) : (s.modPort i f).cxl = s.cxl := rfl
@[simp] theorem State.modPort_waves (s : State) (i : Nat) (f : Port → Port) : (s.modPort i f).waves = s.waves := rfl
@[simp] theorem State.modPort_crews (s : State) (i : Nat) (f : Port → Port) : (s.modPort i f).crews = s.crews := rfl
@[simp] theorem State.modPort_procs (s : State) (i : Nat) (f : Port → Port) : (s.modPort i f).procs = s.procs := rfl
@[simp] theorem State.modPort_objs (s : State) (i : Nat) (f : Port → Port) : (s.modPort i f).objs = s.objs := rfl
@[simp] theorem State.modPort_ports (s : State) (i : Nat) (f : Port → Port) : (s.modPort i f).ports = Tab.mod s.ports i f := rfl
@[simp] theorem State.modPort_wsets (s : State) (i : Nat) (f : Port → Port) : (s.modPort i f).wsets = s.wsets := rfl
@[simp] theorem State.modPort_timers (s : State) (i : Nat) (f : Port → Port) : (s.modPort i f).timers = s.timers := rfl
@[simp] theorem State.modPort_tqs (s : State) (i : Nat) (f : Port → Port) : (s.modPort i f).tqs = s.tqs := rfl
@[simp] theorem State.modPort_names (s : State) (i : Nat) (f : Port → Port) : (s.modPort i f).names = s.names := rfl
@[simp] theorem State.modPort_farNames (s : State) (i : Nat) (f : Port → Port) : (s.modPort i f).farNames = s.farNames := rfl
@[simp] theorem State.modPort_nameCache (s : State) (i : Nat) (f : Port → Port) : (s.modPort i f).nameCache = s.nameCache := rfl
@[simp] theorem State.modPort_opslots (s : State) (i : Nat) (f : Port → Port) : (s.modPort i f).opslots = s.opslots := rfl
@[simp] theorem State.modPort_accs (s : State) (i : Nat) (f : Port → Port) : (s.modPort i f).accs = s.accs := rfl
@[simp] theorem State.modPort_nextStore (s : State) (i : Nat) (f : Port → Port) : (s.modPort i f).nextStore = s.nextStore := rfl
@[simp] theorem State.modPort_shoots (s : State) (i : Nat) (f : Port → Port) : (s.modPort i f).shoots = s.shoots := rfl
@[simp] theorem State.modPort_nextShoot (s : State) (i : Nat) (f : Port → Port) : (s.modPort i f).nextShoot = s.nextShoot := rfl
@[simp] theorem State.modPort_runq (s : State) (i : Nat) (f : Port → Port) : (s.modPort i f).runq = s.runq := rfl
@[simp] theorem State.modPort_gangs (s : State) (i : Nat) (f : Port → Port) : (s.modPort i f).gangs = s.gangs := rfl
@[simp] theorem State.modPort_claims (s : State) (i : Nat) (f : Port → Port) : (s.modPort i f).claims = s.claims := rfl
@[simp] theorem State.modPort_host (s : State) (i : Nat) (f : Port → Port) : (s.modPort i f).host = s.host := rfl
@[simp] theorem State.modPort_nextFence (s : State) (i : Nat) (f : Port → Port) : (s.modPort i f).nextFence = s.nextFence := rfl
@[simp] theorem State.modPort_cores (s : State) (i : Nat) (f : Port → Port) : (s.modPort i f).cores = s.cores := rfl
@[simp] theorem State.modPort_dies (s : State) (i : Nat) (f : Port → Port) : (s.modPort i f).dies = s.dies := rfl
@[simp] theorem State.modPort_agenda (s : State) (i : Nat) (f : Port → Port) : (s.modPort i f).agenda = s.agenda := rfl
@[simp] theorem State.modPort_inflight (s : State) (i : Nat) (f : Port → Port) : (s.modPort i f).inflight = s.inflight := rfl
@[simp] theorem State.modPort_turn (s : State) (i : Nat) (f : Port → Port) : (s.modPort i f).turn = s.turn := rfl
@[simp] theorem State.modPort_steps (s : State) (i : Nat) (f : Port → Port) : (s.modPort i f).steps = s.steps := rfl
@[simp] theorem State.modPort_free (s : State) (i : Nat) (f : Port → Port) : (s.modPort i f).free = s.free := rfl
@[simp] theorem State.modPort_ticks (s : State) (i : Nat) (f : Port → Port) : (s.modPort i f).ticks = s.ticks := rfl
@[simp] theorem State.modPort_cycles (s : State) (i : Nat) (f : Port → Port) : (s.modPort i f).cycles = s.cycles := rfl

/-! ## State.send -/

@[simp] theorem State.send_mem (s : State) (l : List Instr) : (s.send l).mem = s.mem := rfl
@[simp] theorem State.send_mpoison (s : State) (l : List Instr) : (s.send l).mpoison = s.mpoison := rfl
@[simp] theorem State.send_stackDown (s : State) (l : List Instr) : (s.send l).stackDown = s.stackDown := rfl
@[simp] theorem State.send_mclean (s : State) (l : List Instr) : (s.send l).mclean = s.mclean := rfl
@[simp] theorem State.send_futures (s : State) (l : List Instr) : (s.send l).futures = s.futures := rfl
@[simp] theorem State.send_dir (s : State) (l : List Instr) : (s.send l).dir = s.dir := rfl
@[simp] theorem State.send_rdc (s : State) (l : List Instr) : (s.send l).rdc = s.rdc := rfl
@[simp] theorem State.send_wbBuf (s : State) (l : List Instr) : (s.send l).wbBuf = s.wbBuf := rfl
@[simp] theorem State.send_homeQ (s : State) (l : List Instr) : (s.send l).homeQ = s.homeQ := rfl
@[simp] theorem State.send_pages (s : State) (l : List Instr) : (s.send l).pages = s.pages := rfl
@[simp] theorem State.send_acks (s : State) (l : List Instr) : (s.send l).acks = s.acks := rfl
@[simp] theorem State.send_nextAck (s : State) (l : List Instr) : (s.send l).nextAck = s.nextAck := rfl
@[simp] theorem State.send_locks (s : State) (l : List Instr) : (s.send l).locks = s.locks := rfl
@[simp] theorem State.send_cxl (s : State) (l : List Instr) : (s.send l).cxl = s.cxl := rfl
@[simp] theorem State.send_waves (s : State) (l : List Instr) : (s.send l).waves = s.waves := rfl
@[simp] theorem State.send_crews (s : State) (l : List Instr) : (s.send l).crews = s.crews := rfl
@[simp] theorem State.send_procs (s : State) (l : List Instr) : (s.send l).procs = s.procs := rfl
@[simp] theorem State.send_objs (s : State) (l : List Instr) : (s.send l).objs = s.objs := rfl
@[simp] theorem State.send_ports (s : State) (l : List Instr) : (s.send l).ports = s.ports := rfl
@[simp] theorem State.send_wsets (s : State) (l : List Instr) : (s.send l).wsets = s.wsets := rfl
@[simp] theorem State.send_timers (s : State) (l : List Instr) : (s.send l).timers = s.timers := rfl
@[simp] theorem State.send_tqs (s : State) (l : List Instr) : (s.send l).tqs = s.tqs := rfl
@[simp] theorem State.send_names (s : State) (l : List Instr) : (s.send l).names = s.names := rfl
@[simp] theorem State.send_farNames (s : State) (l : List Instr) : (s.send l).farNames = s.farNames := rfl
@[simp] theorem State.send_nameCache (s : State) (l : List Instr) : (s.send l).nameCache = s.nameCache := rfl
@[simp] theorem State.send_opslots (s : State) (l : List Instr) : (s.send l).opslots = s.opslots := rfl
@[simp] theorem State.send_accs (s : State) (l : List Instr) : (s.send l).accs = s.accs := rfl
@[simp] theorem State.send_nextStore (s : State) (l : List Instr) : (s.send l).nextStore = s.nextStore := rfl
@[simp] theorem State.send_shoots (s : State) (l : List Instr) : (s.send l).shoots = s.shoots := rfl
@[simp] theorem State.send_nextShoot (s : State) (l : List Instr) : (s.send l).nextShoot = s.nextShoot := rfl
@[simp] theorem State.send_runq (s : State) (l : List Instr) : (s.send l).runq = s.runq := rfl
@[simp] theorem State.send_gangs (s : State) (l : List Instr) : (s.send l).gangs = s.gangs := rfl
@[simp] theorem State.send_claims (s : State) (l : List Instr) : (s.send l).claims = s.claims := rfl
@[simp] theorem State.send_host (s : State) (l : List Instr) : (s.send l).host = s.host := rfl
@[simp] theorem State.send_nextFence (s : State) (l : List Instr) : (s.send l).nextFence = s.nextFence := rfl
@[simp] theorem State.send_cores (s : State) (l : List Instr) : (s.send l).cores = s.cores := rfl
@[simp] theorem State.send_dies (s : State) (l : List Instr) : (s.send l).dies = s.dies := rfl
@[simp] theorem State.send_agenda (s : State) (l : List Instr) : (s.send l).agenda = s.agenda := rfl
@[simp] theorem State.send_inflight (s : State) (l : List Instr) : (s.send l).inflight = s.inflight ++ l := rfl
@[simp] theorem State.send_turn (s : State) (l : List Instr) : (s.send l).turn = s.turn := rfl
@[simp] theorem State.send_steps (s : State) (l : List Instr) : (s.send l).steps = s.steps := rfl
@[simp] theorem State.send_free (s : State) (l : List Instr) : (s.send l).free = s.free := rfl
@[simp] theorem State.send_ticks (s : State) (l : List Instr) : (s.send l).ticks = s.ticks := rfl
@[simp] theorem State.send_cycles (s : State) (l : List Instr) : (s.send l).cycles = s.cycles := rfl

/-! ## State.wr8 -/

@[simp] theorem State.wr8_mem (s : State) (k : Nat) (b : Byte) : (s.wr8 k b).mem = memWrite s.mem k b := rfl
@[simp] theorem State.wr8_mpoison (s : State) (k : Nat) (b : Byte) : (s.wr8 k b).mpoison = s.mpoison := rfl
@[simp] theorem State.wr8_stackDown (s : State) (k : Nat) (b : Byte) : (s.wr8 k b).stackDown = s.stackDown := rfl
@[simp] theorem State.wr8_mclean (s : State) (k : Nat) (b : Byte) : (s.wr8 k b).mclean = s.mclean := rfl
@[simp] theorem State.wr8_futures (s : State) (k : Nat) (b : Byte) : (s.wr8 k b).futures = s.futures := rfl
@[simp] theorem State.wr8_dir (s : State) (k : Nat) (b : Byte) : (s.wr8 k b).dir = s.dir := rfl
@[simp] theorem State.wr8_rdc (s : State) (k : Nat) (b : Byte) : (s.wr8 k b).rdc = s.rdc := rfl
@[simp] theorem State.wr8_wbBuf (s : State) (k : Nat) (b : Byte) : (s.wr8 k b).wbBuf = s.wbBuf := rfl
@[simp] theorem State.wr8_homeQ (s : State) (k : Nat) (b : Byte) : (s.wr8 k b).homeQ = s.homeQ := rfl
@[simp] theorem State.wr8_pages (s : State) (k : Nat) (b : Byte) : (s.wr8 k b).pages = s.pages := rfl
@[simp] theorem State.wr8_acks (s : State) (k : Nat) (b : Byte) : (s.wr8 k b).acks = s.acks := rfl
@[simp] theorem State.wr8_nextAck (s : State) (k : Nat) (b : Byte) : (s.wr8 k b).nextAck = s.nextAck := rfl
@[simp] theorem State.wr8_locks (s : State) (k : Nat) (b : Byte) : (s.wr8 k b).locks = s.locks := rfl
@[simp] theorem State.wr8_cxl (s : State) (k : Nat) (b : Byte) : (s.wr8 k b).cxl = s.cxl := rfl
@[simp] theorem State.wr8_waves (s : State) (k : Nat) (b : Byte) : (s.wr8 k b).waves = s.waves := rfl
@[simp] theorem State.wr8_crews (s : State) (k : Nat) (b : Byte) : (s.wr8 k b).crews = s.crews := rfl
@[simp] theorem State.wr8_procs (s : State) (k : Nat) (b : Byte) : (s.wr8 k b).procs = s.procs := rfl
@[simp] theorem State.wr8_objs (s : State) (k : Nat) (b : Byte) : (s.wr8 k b).objs = s.objs := rfl
@[simp] theorem State.wr8_ports (s : State) (k : Nat) (b : Byte) : (s.wr8 k b).ports = s.ports := rfl
@[simp] theorem State.wr8_wsets (s : State) (k : Nat) (b : Byte) : (s.wr8 k b).wsets = s.wsets := rfl
@[simp] theorem State.wr8_timers (s : State) (k : Nat) (b : Byte) : (s.wr8 k b).timers = s.timers := rfl
@[simp] theorem State.wr8_tqs (s : State) (k : Nat) (b : Byte) : (s.wr8 k b).tqs = s.tqs := rfl
@[simp] theorem State.wr8_names (s : State) (k : Nat) (b : Byte) : (s.wr8 k b).names = s.names := rfl
@[simp] theorem State.wr8_farNames (s : State) (k : Nat) (b : Byte) : (s.wr8 k b).farNames = s.farNames := rfl
@[simp] theorem State.wr8_nameCache (s : State) (k : Nat) (b : Byte) : (s.wr8 k b).nameCache = s.nameCache := rfl
@[simp] theorem State.wr8_opslots (s : State) (k : Nat) (b : Byte) : (s.wr8 k b).opslots = s.opslots := rfl
@[simp] theorem State.wr8_accs (s : State) (k : Nat) (b : Byte) : (s.wr8 k b).accs = s.accs := rfl
@[simp] theorem State.wr8_nextStore (s : State) (k : Nat) (b : Byte) : (s.wr8 k b).nextStore = s.nextStore := rfl
@[simp] theorem State.wr8_shoots (s : State) (k : Nat) (b : Byte) : (s.wr8 k b).shoots = s.shoots := rfl
@[simp] theorem State.wr8_nextShoot (s : State) (k : Nat) (b : Byte) : (s.wr8 k b).nextShoot = s.nextShoot := rfl
@[simp] theorem State.wr8_runq (s : State) (k : Nat) (b : Byte) : (s.wr8 k b).runq = s.runq := rfl
@[simp] theorem State.wr8_gangs (s : State) (k : Nat) (b : Byte) : (s.wr8 k b).gangs = s.gangs := rfl
@[simp] theorem State.wr8_claims (s : State) (k : Nat) (b : Byte) : (s.wr8 k b).claims = s.claims := rfl
@[simp] theorem State.wr8_host (s : State) (k : Nat) (b : Byte) : (s.wr8 k b).host = s.host := rfl
@[simp] theorem State.wr8_nextFence (s : State) (k : Nat) (b : Byte) : (s.wr8 k b).nextFence = s.nextFence := rfl
@[simp] theorem State.wr8_cores (s : State) (k : Nat) (b : Byte) : (s.wr8 k b).cores = s.cores := rfl
@[simp] theorem State.wr8_dies (s : State) (k : Nat) (b : Byte) : (s.wr8 k b).dies = s.dies := rfl
@[simp] theorem State.wr8_agenda (s : State) (k : Nat) (b : Byte) : (s.wr8 k b).agenda = s.agenda := rfl
@[simp] theorem State.wr8_inflight (s : State) (k : Nat) (b : Byte) : (s.wr8 k b).inflight = s.inflight := rfl
@[simp] theorem State.wr8_turn (s : State) (k : Nat) (b : Byte) : (s.wr8 k b).turn = s.turn := rfl
@[simp] theorem State.wr8_steps (s : State) (k : Nat) (b : Byte) : (s.wr8 k b).steps = s.steps := rfl
@[simp] theorem State.wr8_free (s : State) (k : Nat) (b : Byte) : (s.wr8 k b).free = s.free := rfl
@[simp] theorem State.wr8_ticks (s : State) (k : Nat) (b : Byte) : (s.wr8 k b).ticks = s.ticks := rfl
@[simp] theorem State.wr8_cycles (s : State) (k : Nat) (b : Byte) : (s.wr8 k b).cycles = s.cycles := rfl

/-! ## State.wrN -/

@[simp] theorem State.wrN_mem (s : State) (k n v : Nat) : (s.wrN k n v).mem = memWriteBytes s.mem k (bytesOf v n) := rfl
@[simp] theorem State.wrN_mpoison (s : State) (k n v : Nat) : (s.wrN k n v).mpoison = s.mpoison := rfl
@[simp] theorem State.wrN_stackDown (s : State) (k n v : Nat) : (s.wrN k n v).stackDown = s.stackDown := rfl
@[simp] theorem State.wrN_mclean (s : State) (k n v : Nat) : (s.wrN k n v).mclean = s.mclean := rfl
@[simp] theorem State.wrN_futures (s : State) (k n v : Nat) : (s.wrN k n v).futures = s.futures := rfl
@[simp] theorem State.wrN_dir (s : State) (k n v : Nat) : (s.wrN k n v).dir = s.dir := rfl
@[simp] theorem State.wrN_rdc (s : State) (k n v : Nat) : (s.wrN k n v).rdc = s.rdc := rfl
@[simp] theorem State.wrN_wbBuf (s : State) (k n v : Nat) : (s.wrN k n v).wbBuf = s.wbBuf := rfl
@[simp] theorem State.wrN_homeQ (s : State) (k n v : Nat) : (s.wrN k n v).homeQ = s.homeQ := rfl
@[simp] theorem State.wrN_pages (s : State) (k n v : Nat) : (s.wrN k n v).pages = s.pages := rfl
@[simp] theorem State.wrN_acks (s : State) (k n v : Nat) : (s.wrN k n v).acks = s.acks := rfl
@[simp] theorem State.wrN_nextAck (s : State) (k n v : Nat) : (s.wrN k n v).nextAck = s.nextAck := rfl
@[simp] theorem State.wrN_locks (s : State) (k n v : Nat) : (s.wrN k n v).locks = s.locks := rfl
@[simp] theorem State.wrN_cxl (s : State) (k n v : Nat) : (s.wrN k n v).cxl = s.cxl := rfl
@[simp] theorem State.wrN_waves (s : State) (k n v : Nat) : (s.wrN k n v).waves = s.waves := rfl
@[simp] theorem State.wrN_crews (s : State) (k n v : Nat) : (s.wrN k n v).crews = s.crews := rfl
@[simp] theorem State.wrN_procs (s : State) (k n v : Nat) : (s.wrN k n v).procs = s.procs := rfl
@[simp] theorem State.wrN_objs (s : State) (k n v : Nat) : (s.wrN k n v).objs = s.objs := rfl
@[simp] theorem State.wrN_ports (s : State) (k n v : Nat) : (s.wrN k n v).ports = s.ports := rfl
@[simp] theorem State.wrN_wsets (s : State) (k n v : Nat) : (s.wrN k n v).wsets = s.wsets := rfl
@[simp] theorem State.wrN_timers (s : State) (k n v : Nat) : (s.wrN k n v).timers = s.timers := rfl
@[simp] theorem State.wrN_tqs (s : State) (k n v : Nat) : (s.wrN k n v).tqs = s.tqs := rfl
@[simp] theorem State.wrN_names (s : State) (k n v : Nat) : (s.wrN k n v).names = s.names := rfl
@[simp] theorem State.wrN_farNames (s : State) (k n v : Nat) : (s.wrN k n v).farNames = s.farNames := rfl
@[simp] theorem State.wrN_nameCache (s : State) (k n v : Nat) : (s.wrN k n v).nameCache = s.nameCache := rfl
@[simp] theorem State.wrN_opslots (s : State) (k n v : Nat) : (s.wrN k n v).opslots = s.opslots := rfl
@[simp] theorem State.wrN_accs (s : State) (k n v : Nat) : (s.wrN k n v).accs = s.accs := rfl
@[simp] theorem State.wrN_nextStore (s : State) (k n v : Nat) : (s.wrN k n v).nextStore = s.nextStore := rfl
@[simp] theorem State.wrN_shoots (s : State) (k n v : Nat) : (s.wrN k n v).shoots = s.shoots := rfl
@[simp] theorem State.wrN_nextShoot (s : State) (k n v : Nat) : (s.wrN k n v).nextShoot = s.nextShoot := rfl
@[simp] theorem State.wrN_runq (s : State) (k n v : Nat) : (s.wrN k n v).runq = s.runq := rfl
@[simp] theorem State.wrN_gangs (s : State) (k n v : Nat) : (s.wrN k n v).gangs = s.gangs := rfl
@[simp] theorem State.wrN_claims (s : State) (k n v : Nat) : (s.wrN k n v).claims = s.claims := rfl
@[simp] theorem State.wrN_host (s : State) (k n v : Nat) : (s.wrN k n v).host = s.host := rfl
@[simp] theorem State.wrN_nextFence (s : State) (k n v : Nat) : (s.wrN k n v).nextFence = s.nextFence := rfl
@[simp] theorem State.wrN_cores (s : State) (k n v : Nat) : (s.wrN k n v).cores = s.cores := rfl
@[simp] theorem State.wrN_dies (s : State) (k n v : Nat) : (s.wrN k n v).dies = s.dies := rfl
@[simp] theorem State.wrN_agenda (s : State) (k n v : Nat) : (s.wrN k n v).agenda = s.agenda := rfl
@[simp] theorem State.wrN_inflight (s : State) (k n v : Nat) : (s.wrN k n v).inflight = s.inflight := rfl
@[simp] theorem State.wrN_turn (s : State) (k n v : Nat) : (s.wrN k n v).turn = s.turn := rfl
@[simp] theorem State.wrN_steps (s : State) (k n v : Nat) : (s.wrN k n v).steps = s.steps := rfl
@[simp] theorem State.wrN_free (s : State) (k n v : Nat) : (s.wrN k n v).free = s.free := rfl
@[simp] theorem State.wrN_ticks (s : State) (k n v : Nat) : (s.wrN k n v).ticks = s.ticks := rfl
@[simp] theorem State.wrN_cycles (s : State) (k n v : Nat) : (s.wrN k n v).cycles = s.cycles := rfl

/-! ## Wave.setSreg -/

@[simp] theorem Wave.setSreg_proc (v : Wave) (r : Nat) (x : W64) : (v.setSreg r x).proc = v.proc := rfl
@[simp] theorem Wave.setSreg_crew (v : Wave) (r : Nat) (x : W64) : (v.setSreg r x).crew = v.crew := rfl
@[simp] theorem Wave.setSreg_member (v : Wave) (r : Nat) (x : W64) : (v.setSreg r x).member = v.member := rfl
@[simp] theorem Wave.setSreg_die (v : Wave) (r : Nat) (x : W64) : (v.setSreg r x).die = v.die := rfl
@[simp] theorem Wave.setSreg_width (v : Wave) (r : Nat) (x : W64) : (v.setSreg r x).width = v.width := rfl
@[simp] theorem Wave.setSreg_nvregs (v : Wave) (r : Nat) (x : W64) : (v.setSreg r x).nvregs = v.nvregs := rfl
@[simp] theorem Wave.setSreg_priv (v : Wave) (r : Nat) (x : W64) : (v.setSreg r x).priv = v.priv := rfl
@[simp] theorem Wave.setSreg_prio (v : Wave) (r : Nat) (x : W64) : (v.setSreg r x).prio = v.prio := rfl
@[simp] theorem Wave.setSreg_boost (v : Wave) (r : Nat) (x : W64) : (v.setSreg r x).boost = v.boost := rfl
@[simp] theorem Wave.setSreg_wslot (v : Wave) (r : Nat) (x : W64) : (v.setSreg r x).wslot = v.wslot := rfl
@[simp] theorem Wave.setSreg_firstRow (v : Wave) (r : Nat) (x : W64) : (v.setSreg r x).firstRow = v.firstRow := rfl
@[simp] theorem Wave.setSreg_firstQuad (v : Wave) (r : Nat) (x : W64) : (v.setSreg r x).firstQuad = v.firstQuad := rfl
@[simp] theorem Wave.setSreg_launch (v : Wave) (r : Nat) (x : W64) : (v.setSreg r x).launch = v.launch := rfl
@[simp] theorem Wave.setSreg_block (v : Wave) (r : Nat) (x : W64) : (v.setSreg r x).block = v.block := rfl
@[simp] theorem Wave.setSreg_tbase (v : Wave) (r : Nat) (x : W64) : (v.setSreg r x).tbase = v.tbase := rfl
@[simp] theorem Wave.setSreg_sregs (v : Wave) (r : Nat) (x : W64) : (v.setSreg r x).sregs = Tab.set v.sregs r x := rfl
@[simp] theorem Wave.setSreg_masks (v : Wave) (r : Nat) (x : W64) : (v.setSreg r x).masks = v.masks := rfl
@[simp] theorem Wave.setSreg_vregs (v : Wave) (r : Nat) (x : W64) : (v.setSreg r x).vregs = v.vregs := rfl
@[simp] theorem Wave.setSreg_vpoison (v : Wave) (r : Nat) (x : W64) : (v.setSreg r x).vpoison = v.vpoison := rfl
@[simp] theorem Wave.setSreg_fibres (v : Wave) (r : Nat) (x : W64) : (v.setSreg r x).fibres = v.fibres := rfl
@[simp] theorem Wave.setSreg_fpflags (v : Wave) (r : Nat) (x : W64) : (v.setSreg r x).fpflags = v.fpflags := rfl
@[simp] theorem Wave.setSreg_pwinflags (v : Wave) (r : Nat) (x : W64) : (v.setSreg r x).pwinflags = v.pwinflags := rfl
@[simp] theorem Wave.setSreg_srseed (v : Wave) (r : Nat) (x : W64) : (v.setSreg r x).srseed = v.srseed := rfl
@[simp] theorem Wave.setSreg_gens (v : Wave) (r : Nat) (x : W64) : (v.setSreg r x).gens = v.gens := rfl
@[simp] theorem Wave.setSreg_pwin (v : Wave) (r : Nat) (x : W64) : (v.setSreg r x).pwin = v.pwin := rfl
@[simp] theorem Wave.setSreg_privMem (v : Wave) (r : Nat) (x : W64) : (v.setSreg r x).privMem = v.privMem := rfl
@[simp] theorem Wave.setSreg_ackcnt (v : Wave) (r : Nat) (x : W64) : (v.setSreg r x).ackcnt = v.ackcnt := rfl
@[simp] theorem Wave.setSreg_posted (v : Wave) (r : Nat) (x : W64) : (v.setSreg r x).posted = v.posted := rfl
@[simp] theorem Wave.setSreg_streams (v : Wave) (r : Nat) (x : W64) : (v.setSreg r x).streams = v.streams := rfl
@[simp] theorem Wave.setSreg_tokens (v : Wave) (r : Nat) (x : W64) : (v.setSreg r x).tokens = v.tokens := rfl
@[simp] theorem Wave.setSreg_pend (v : Wave) (r : Nat) (x : W64) : (v.setSreg r x).pend = v.pend := rfl
@[simp] theorem Wave.setSreg_arriving (v : Wave) (r : Nat) (x : W64) : (v.setSreg r x).arriving = v.arriving := rfl
@[simp] theorem Wave.setSreg_run (v : Wave) (r : Nat) (x : W64) : (v.setSreg r x).run = v.run := rfl
@[simp] theorem Wave.setSreg_lastStart (v : Wave) (r : Nat) (x : W64) : (v.setSreg r x).lastStart = v.lastStart := rfl
@[simp] theorem Wave.setSreg_held (v : Wave) (r : Nat) (x : W64) : (v.setSreg r x).held = v.held := rfl
@[simp] theorem Wave.setSreg_instances (v : Wave) (r : Nat) (x : W64) : (v.setSreg r x).instances = v.instances := rfl
@[simp] theorem Wave.setSreg_inTrap (v : Wave) (r : Nat) (x : W64) : (v.setSreg r x).inTrap = v.inTrap := rfl
@[simp] theorem Wave.setSreg_frame (v : Wave) (r : Nat) (x : W64) : (v.setSreg r x).frame = v.frame := rfl
@[simp] theorem Wave.setSreg_trapMask (v : Wave) (r : Nat) (x : W64) : (v.setSreg r x).trapMask = v.trapMask := rfl
@[simp] theorem Wave.setSreg_frozen (v : Wave) (r : Nat) (x : W64) : (v.setSreg r x).frozen = v.frozen := rfl
@[simp] theorem Wave.setSreg_resume (v : Wave) (r : Nat) (x : W64) : (v.setSreg r x).resume = v.resume := rfl
@[simp] theorem Wave.setSreg_dbg (v : Wave) (r : Nat) (x : W64) : (v.setSreg r x).dbg = v.dbg := rfl
@[simp] theorem Wave.setSreg_rfeMask (v : Wave) (r : Nat) (x : W64) : (v.setSreg r x).rfeMask = v.rfeMask := rfl
@[simp] theorem Wave.setSreg_refusals (v : Wave) (r : Nat) (x : W64) : (v.setSreg r x).refusals = v.refusals := rfl
@[simp] theorem Wave.setSreg_wait (v : Wave) (r : Nat) (x : W64) : (v.setSreg r x).wait = v.wait := rfl
@[simp] theorem Wave.setSreg_blockedAt (v : Wave) (r : Nat) (x : W64) : (v.setSreg r x).blockedAt = v.blockedAt := rfl
@[simp] theorem Wave.setSreg_suspended (v : Wave) (r : Nat) (x : W64) : (v.setSreg r x).suspended = v.suspended := rfl
@[simp] theorem Wave.setSreg_undelivered (v : Wave) (r : Nat) (x : W64) : (v.setSreg r x).undelivered = v.undelivered := rfl
@[simp] theorem Wave.setSreg_stopped (v : Wave) (r : Nat) (x : W64) : (v.setSreg r x).stopped = v.stopped := rfl
@[simp] theorem Wave.setSreg_heldLocks (v : Wave) (r : Nat) (x : W64) : (v.setSreg r x).heldLocks = v.heldLocks := rfl
@[simp] theorem Wave.setSreg_lockReqs (v : Wave) (r : Nat) (x : W64) : (v.setSreg r x).lockReqs = v.lockReqs := rfl
@[simp] theorem Wave.setSreg_lkPending (v : Wave) (r : Nat) (x : W64) : (v.setSreg r x).lkPending = v.lkPending := rfl
@[simp] theorem Wave.setSreg_polls (v : Wave) (r : Nat) (x : W64) : (v.setSreg r x).polls = v.polls := rfl
@[simp] theorem Wave.setSreg_issues (v : Wave) (r : Nat) (x : W64) : (v.setSreg r x).issues = v.issues := rfl
@[simp] theorem Wave.setSreg_lastMask (v : Wave) (r : Nat) (x : W64) : (v.setSreg r x).lastMask = v.lastMask := rfl
@[simp] theorem Wave.setSreg_lastPc (v : Wave) (r : Nat) (x : W64) : (v.setSreg r x).lastPc = v.lastPc := rfl
@[simp] theorem Wave.setSreg_skipBpc (v : Wave) (r : Nat) (x : W64) : (v.setSreg r x).skipBpc = v.skipBpc := rfl
@[simp] theorem Wave.setSreg_stepState (v : Wave) (r : Nat) (x : W64) : (v.setSreg r x).stepState = v.stepState := rfl
@[simp] theorem Wave.setSreg_dead (v : Wave) (r : Nat) (x : W64) : (v.setSreg r x).dead = v.dead := rfl
@[simp] theorem Wave.setSreg_killed (v : Wave) (r : Nat) (x : W64) : (v.setSreg r x).killed = v.killed := rfl
@[simp] theorem Wave.setSreg_homeWait (v : Wave) (r : Nat) (x : W64) : (v.setSreg r x).homeWait = v.homeWait := rfl
@[simp] theorem Wave.setSreg_pull (v : Wave) (r : Nat) (x : W64) : (v.setSreg r x).pull = v.pull := rfl

/-! ## Wave.setMask -/

@[simp] theorem Wave.setMask_proc (v : Wave) (k : Nat) (x : W64) : (v.setMask k x).proc = v.proc := rfl
@[simp] theorem Wave.setMask_crew (v : Wave) (k : Nat) (x : W64) : (v.setMask k x).crew = v.crew := rfl
@[simp] theorem Wave.setMask_member (v : Wave) (k : Nat) (x : W64) : (v.setMask k x).member = v.member := rfl
@[simp] theorem Wave.setMask_die (v : Wave) (k : Nat) (x : W64) : (v.setMask k x).die = v.die := rfl
@[simp] theorem Wave.setMask_width (v : Wave) (k : Nat) (x : W64) : (v.setMask k x).width = v.width := rfl
@[simp] theorem Wave.setMask_nvregs (v : Wave) (k : Nat) (x : W64) : (v.setMask k x).nvregs = v.nvregs := rfl
@[simp] theorem Wave.setMask_priv (v : Wave) (k : Nat) (x : W64) : (v.setMask k x).priv = v.priv := rfl
@[simp] theorem Wave.setMask_prio (v : Wave) (k : Nat) (x : W64) : (v.setMask k x).prio = v.prio := rfl
@[simp] theorem Wave.setMask_boost (v : Wave) (k : Nat) (x : W64) : (v.setMask k x).boost = v.boost := rfl
@[simp] theorem Wave.setMask_wslot (v : Wave) (k : Nat) (x : W64) : (v.setMask k x).wslot = v.wslot := rfl
@[simp] theorem Wave.setMask_firstRow (v : Wave) (k : Nat) (x : W64) : (v.setMask k x).firstRow = v.firstRow := rfl
@[simp] theorem Wave.setMask_firstQuad (v : Wave) (k : Nat) (x : W64) : (v.setMask k x).firstQuad = v.firstQuad := rfl
@[simp] theorem Wave.setMask_launch (v : Wave) (k : Nat) (x : W64) : (v.setMask k x).launch = v.launch := rfl
@[simp] theorem Wave.setMask_block (v : Wave) (k : Nat) (x : W64) : (v.setMask k x).block = v.block := rfl
@[simp] theorem Wave.setMask_tbase (v : Wave) (k : Nat) (x : W64) : (v.setMask k x).tbase = v.tbase := rfl
@[simp] theorem Wave.setMask_sregs (v : Wave) (k : Nat) (x : W64) : (v.setMask k x).sregs = v.sregs := rfl
@[simp] theorem Wave.setMask_masks (v : Wave) (k : Nat) (x : W64) : (v.setMask k x).masks = Tab.set v.masks k (x &&& laneMask v.width) := rfl
@[simp] theorem Wave.setMask_vregs (v : Wave) (k : Nat) (x : W64) : (v.setMask k x).vregs = v.vregs := rfl
@[simp] theorem Wave.setMask_vpoison (v : Wave) (k : Nat) (x : W64) : (v.setMask k x).vpoison = v.vpoison := rfl
@[simp] theorem Wave.setMask_fibres (v : Wave) (k : Nat) (x : W64) : (v.setMask k x).fibres = v.fibres := rfl
@[simp] theorem Wave.setMask_fpflags (v : Wave) (k : Nat) (x : W64) : (v.setMask k x).fpflags = v.fpflags := rfl
@[simp] theorem Wave.setMask_pwinflags (v : Wave) (k : Nat) (x : W64) : (v.setMask k x).pwinflags = v.pwinflags := rfl
@[simp] theorem Wave.setMask_srseed (v : Wave) (k : Nat) (x : W64) : (v.setMask k x).srseed = v.srseed := rfl
@[simp] theorem Wave.setMask_gens (v : Wave) (k : Nat) (x : W64) : (v.setMask k x).gens = v.gens := rfl
@[simp] theorem Wave.setMask_pwin (v : Wave) (k : Nat) (x : W64) : (v.setMask k x).pwin = v.pwin := rfl
@[simp] theorem Wave.setMask_privMem (v : Wave) (k : Nat) (x : W64) : (v.setMask k x).privMem = v.privMem := rfl
@[simp] theorem Wave.setMask_ackcnt (v : Wave) (k : Nat) (x : W64) : (v.setMask k x).ackcnt = v.ackcnt := rfl
@[simp] theorem Wave.setMask_posted (v : Wave) (k : Nat) (x : W64) : (v.setMask k x).posted = v.posted := rfl
@[simp] theorem Wave.setMask_streams (v : Wave) (k : Nat) (x : W64) : (v.setMask k x).streams = v.streams := rfl
@[simp] theorem Wave.setMask_tokens (v : Wave) (k : Nat) (x : W64) : (v.setMask k x).tokens = v.tokens := rfl
@[simp] theorem Wave.setMask_pend (v : Wave) (k : Nat) (x : W64) : (v.setMask k x).pend = v.pend := rfl
@[simp] theorem Wave.setMask_arriving (v : Wave) (k : Nat) (x : W64) : (v.setMask k x).arriving = v.arriving := rfl
@[simp] theorem Wave.setMask_run (v : Wave) (k : Nat) (x : W64) : (v.setMask k x).run = v.run := rfl
@[simp] theorem Wave.setMask_lastStart (v : Wave) (k : Nat) (x : W64) : (v.setMask k x).lastStart = v.lastStart := rfl
@[simp] theorem Wave.setMask_held (v : Wave) (k : Nat) (x : W64) : (v.setMask k x).held = v.held := rfl
@[simp] theorem Wave.setMask_instances (v : Wave) (k : Nat) (x : W64) : (v.setMask k x).instances = v.instances := rfl
@[simp] theorem Wave.setMask_inTrap (v : Wave) (k : Nat) (x : W64) : (v.setMask k x).inTrap = v.inTrap := rfl
@[simp] theorem Wave.setMask_frame (v : Wave) (k : Nat) (x : W64) : (v.setMask k x).frame = v.frame := rfl
@[simp] theorem Wave.setMask_trapMask (v : Wave) (k : Nat) (x : W64) : (v.setMask k x).trapMask = v.trapMask := rfl
@[simp] theorem Wave.setMask_frozen (v : Wave) (k : Nat) (x : W64) : (v.setMask k x).frozen = v.frozen := rfl
@[simp] theorem Wave.setMask_resume (v : Wave) (k : Nat) (x : W64) : (v.setMask k x).resume = v.resume := rfl
@[simp] theorem Wave.setMask_dbg (v : Wave) (k : Nat) (x : W64) : (v.setMask k x).dbg = v.dbg := rfl
@[simp] theorem Wave.setMask_rfeMask (v : Wave) (k : Nat) (x : W64) : (v.setMask k x).rfeMask = v.rfeMask := rfl
@[simp] theorem Wave.setMask_refusals (v : Wave) (k : Nat) (x : W64) : (v.setMask k x).refusals = v.refusals := rfl
@[simp] theorem Wave.setMask_wait (v : Wave) (k : Nat) (x : W64) : (v.setMask k x).wait = v.wait := rfl
@[simp] theorem Wave.setMask_blockedAt (v : Wave) (k : Nat) (x : W64) : (v.setMask k x).blockedAt = v.blockedAt := rfl
@[simp] theorem Wave.setMask_suspended (v : Wave) (k : Nat) (x : W64) : (v.setMask k x).suspended = v.suspended := rfl
@[simp] theorem Wave.setMask_undelivered (v : Wave) (k : Nat) (x : W64) : (v.setMask k x).undelivered = v.undelivered := rfl
@[simp] theorem Wave.setMask_stopped (v : Wave) (k : Nat) (x : W64) : (v.setMask k x).stopped = v.stopped := rfl
@[simp] theorem Wave.setMask_heldLocks (v : Wave) (k : Nat) (x : W64) : (v.setMask k x).heldLocks = v.heldLocks := rfl
@[simp] theorem Wave.setMask_lockReqs (v : Wave) (k : Nat) (x : W64) : (v.setMask k x).lockReqs = v.lockReqs := rfl
@[simp] theorem Wave.setMask_lkPending (v : Wave) (k : Nat) (x : W64) : (v.setMask k x).lkPending = v.lkPending := rfl
@[simp] theorem Wave.setMask_polls (v : Wave) (k : Nat) (x : W64) : (v.setMask k x).polls = v.polls := rfl
@[simp] theorem Wave.setMask_issues (v : Wave) (k : Nat) (x : W64) : (v.setMask k x).issues = v.issues := rfl
@[simp] theorem Wave.setMask_lastMask (v : Wave) (k : Nat) (x : W64) : (v.setMask k x).lastMask = v.lastMask := rfl
@[simp] theorem Wave.setMask_lastPc (v : Wave) (k : Nat) (x : W64) : (v.setMask k x).lastPc = v.lastPc := rfl
@[simp] theorem Wave.setMask_skipBpc (v : Wave) (k : Nat) (x : W64) : (v.setMask k x).skipBpc = v.skipBpc := rfl
@[simp] theorem Wave.setMask_stepState (v : Wave) (k : Nat) (x : W64) : (v.setMask k x).stepState = v.stepState := rfl
@[simp] theorem Wave.setMask_dead (v : Wave) (k : Nat) (x : W64) : (v.setMask k x).dead = v.dead := rfl
@[simp] theorem Wave.setMask_killed (v : Wave) (k : Nat) (x : W64) : (v.setMask k x).killed = v.killed := rfl
@[simp] theorem Wave.setMask_homeWait (v : Wave) (k : Nat) (x : W64) : (v.setMask k x).homeWait = v.homeWait := rfl
@[simp] theorem Wave.setMask_pull (v : Wave) (k : Nat) (x : W64) : (v.setMask k x).pull = v.pull := rfl

/-! ## Wave.setRow -/

@[simp] theorem Wave.setRow_proc (v : Wave) (l r : Nat) (x : W32) : (v.setRow l r x).proc = v.proc := rfl
@[simp] theorem Wave.setRow_crew (v : Wave) (l r : Nat) (x : W32) : (v.setRow l r x).crew = v.crew := rfl
@[simp] theorem Wave.setRow_member (v : Wave) (l r : Nat) (x : W32) : (v.setRow l r x).member = v.member := rfl
@[simp] theorem Wave.setRow_die (v : Wave) (l r : Nat) (x : W32) : (v.setRow l r x).die = v.die := rfl
@[simp] theorem Wave.setRow_width (v : Wave) (l r : Nat) (x : W32) : (v.setRow l r x).width = v.width := rfl
@[simp] theorem Wave.setRow_nvregs (v : Wave) (l r : Nat) (x : W32) : (v.setRow l r x).nvregs = v.nvregs := rfl
@[simp] theorem Wave.setRow_priv (v : Wave) (l r : Nat) (x : W32) : (v.setRow l r x).priv = v.priv := rfl
@[simp] theorem Wave.setRow_prio (v : Wave) (l r : Nat) (x : W32) : (v.setRow l r x).prio = v.prio := rfl
@[simp] theorem Wave.setRow_boost (v : Wave) (l r : Nat) (x : W32) : (v.setRow l r x).boost = v.boost := rfl
@[simp] theorem Wave.setRow_wslot (v : Wave) (l r : Nat) (x : W32) : (v.setRow l r x).wslot = v.wslot := rfl
@[simp] theorem Wave.setRow_firstRow (v : Wave) (l r : Nat) (x : W32) : (v.setRow l r x).firstRow = v.firstRow := rfl
@[simp] theorem Wave.setRow_firstQuad (v : Wave) (l r : Nat) (x : W32) : (v.setRow l r x).firstQuad = v.firstQuad := rfl
@[simp] theorem Wave.setRow_launch (v : Wave) (l r : Nat) (x : W32) : (v.setRow l r x).launch = v.launch := rfl
@[simp] theorem Wave.setRow_block (v : Wave) (l r : Nat) (x : W32) : (v.setRow l r x).block = v.block := rfl
@[simp] theorem Wave.setRow_tbase (v : Wave) (l r : Nat) (x : W32) : (v.setRow l r x).tbase = v.tbase := rfl
@[simp] theorem Wave.setRow_sregs (v : Wave) (l r : Nat) (x : W32) : (v.setRow l r x).sregs = v.sregs := rfl
@[simp] theorem Wave.setRow_masks (v : Wave) (l r : Nat) (x : W32) : (v.setRow l r x).masks = v.masks := rfl
@[simp] theorem Wave.setRow_vregs (v : Wave) (l r : Nat) (x : W32) : (v.setRow l r x).vregs = Tab.modD v.vregs l [] (fun t => Tab.set t r x) := rfl
@[simp] theorem Wave.setRow_vpoison (v : Wave) (l r : Nat) (x : W32) : (v.setRow l r x).vpoison = v.vpoison.filter (fun n => n != l * 256 + r) := rfl
@[simp] theorem Wave.setRow_fibres (v : Wave) (l r : Nat) (x : W32) : (v.setRow l r x).fibres = v.fibres := rfl
@[simp] theorem Wave.setRow_fpflags (v : Wave) (l r : Nat) (x : W32) : (v.setRow l r x).fpflags = v.fpflags := rfl
@[simp] theorem Wave.setRow_pwinflags (v : Wave) (l r : Nat) (x : W32) : (v.setRow l r x).pwinflags = v.pwinflags := rfl
@[simp] theorem Wave.setRow_srseed (v : Wave) (l r : Nat) (x : W32) : (v.setRow l r x).srseed = v.srseed := rfl
@[simp] theorem Wave.setRow_gens (v : Wave) (l r : Nat) (x : W32) : (v.setRow l r x).gens = v.gens := rfl
@[simp] theorem Wave.setRow_pwin (v : Wave) (l r : Nat) (x : W32) : (v.setRow l r x).pwin = v.pwin := rfl
@[simp] theorem Wave.setRow_privMem (v : Wave) (l r : Nat) (x : W32) : (v.setRow l r x).privMem = v.privMem := rfl
@[simp] theorem Wave.setRow_ackcnt (v : Wave) (l r : Nat) (x : W32) : (v.setRow l r x).ackcnt = v.ackcnt := rfl
@[simp] theorem Wave.setRow_posted (v : Wave) (l r : Nat) (x : W32) : (v.setRow l r x).posted = v.posted := rfl
@[simp] theorem Wave.setRow_streams (v : Wave) (l r : Nat) (x : W32) : (v.setRow l r x).streams = v.streams := rfl
@[simp] theorem Wave.setRow_tokens (v : Wave) (l r : Nat) (x : W32) : (v.setRow l r x).tokens = v.tokens := rfl
@[simp] theorem Wave.setRow_pend (v : Wave) (l r : Nat) (x : W32) : (v.setRow l r x).pend = v.pend := rfl
@[simp] theorem Wave.setRow_arriving (v : Wave) (l r : Nat) (x : W32) : (v.setRow l r x).arriving = v.arriving := rfl
@[simp] theorem Wave.setRow_run (v : Wave) (l r : Nat) (x : W32) : (v.setRow l r x).run = v.run := rfl
@[simp] theorem Wave.setRow_lastStart (v : Wave) (l r : Nat) (x : W32) : (v.setRow l r x).lastStart = v.lastStart := rfl
@[simp] theorem Wave.setRow_held (v : Wave) (l r : Nat) (x : W32) : (v.setRow l r x).held = v.held := rfl
@[simp] theorem Wave.setRow_instances (v : Wave) (l r : Nat) (x : W32) : (v.setRow l r x).instances = v.instances := rfl
@[simp] theorem Wave.setRow_inTrap (v : Wave) (l r : Nat) (x : W32) : (v.setRow l r x).inTrap = v.inTrap := rfl
@[simp] theorem Wave.setRow_frame (v : Wave) (l r : Nat) (x : W32) : (v.setRow l r x).frame = v.frame := rfl
@[simp] theorem Wave.setRow_trapMask (v : Wave) (l r : Nat) (x : W32) : (v.setRow l r x).trapMask = v.trapMask := rfl
@[simp] theorem Wave.setRow_frozen (v : Wave) (l r : Nat) (x : W32) : (v.setRow l r x).frozen = v.frozen := rfl
@[simp] theorem Wave.setRow_resume (v : Wave) (l r : Nat) (x : W32) : (v.setRow l r x).resume = v.resume := rfl
@[simp] theorem Wave.setRow_dbg (v : Wave) (l r : Nat) (x : W32) : (v.setRow l r x).dbg = v.dbg := rfl
@[simp] theorem Wave.setRow_rfeMask (v : Wave) (l r : Nat) (x : W32) : (v.setRow l r x).rfeMask = v.rfeMask := rfl
@[simp] theorem Wave.setRow_refusals (v : Wave) (l r : Nat) (x : W32) : (v.setRow l r x).refusals = v.refusals := rfl
@[simp] theorem Wave.setRow_wait (v : Wave) (l r : Nat) (x : W32) : (v.setRow l r x).wait = v.wait := rfl
@[simp] theorem Wave.setRow_blockedAt (v : Wave) (l r : Nat) (x : W32) : (v.setRow l r x).blockedAt = v.blockedAt := rfl
@[simp] theorem Wave.setRow_suspended (v : Wave) (l r : Nat) (x : W32) : (v.setRow l r x).suspended = v.suspended := rfl
@[simp] theorem Wave.setRow_undelivered (v : Wave) (l r : Nat) (x : W32) : (v.setRow l r x).undelivered = v.undelivered := rfl
@[simp] theorem Wave.setRow_stopped (v : Wave) (l r : Nat) (x : W32) : (v.setRow l r x).stopped = v.stopped := rfl
@[simp] theorem Wave.setRow_heldLocks (v : Wave) (l r : Nat) (x : W32) : (v.setRow l r x).heldLocks = v.heldLocks := rfl
@[simp] theorem Wave.setRow_lockReqs (v : Wave) (l r : Nat) (x : W32) : (v.setRow l r x).lockReqs = v.lockReqs := rfl
@[simp] theorem Wave.setRow_lkPending (v : Wave) (l r : Nat) (x : W32) : (v.setRow l r x).lkPending = v.lkPending := rfl
@[simp] theorem Wave.setRow_polls (v : Wave) (l r : Nat) (x : W32) : (v.setRow l r x).polls = v.polls := rfl
@[simp] theorem Wave.setRow_issues (v : Wave) (l r : Nat) (x : W32) : (v.setRow l r x).issues = v.issues := rfl
@[simp] theorem Wave.setRow_lastMask (v : Wave) (l r : Nat) (x : W32) : (v.setRow l r x).lastMask = v.lastMask := rfl
@[simp] theorem Wave.setRow_lastPc (v : Wave) (l r : Nat) (x : W32) : (v.setRow l r x).lastPc = v.lastPc := rfl
@[simp] theorem Wave.setRow_skipBpc (v : Wave) (l r : Nat) (x : W32) : (v.setRow l r x).skipBpc = v.skipBpc := rfl
@[simp] theorem Wave.setRow_stepState (v : Wave) (l r : Nat) (x : W32) : (v.setRow l r x).stepState = v.stepState := rfl
@[simp] theorem Wave.setRow_dead (v : Wave) (l r : Nat) (x : W32) : (v.setRow l r x).dead = v.dead := rfl
@[simp] theorem Wave.setRow_killed (v : Wave) (l r : Nat) (x : W32) : (v.setRow l r x).killed = v.killed := rfl
@[simp] theorem Wave.setRow_homeWait (v : Wave) (l r : Nat) (x : W32) : (v.setRow l r x).homeWait = v.homeWait := rfl
@[simp] theorem Wave.setRow_pull (v : Wave) (l r : Nat) (x : W32) : (v.setRow l r x).pull = v.pull := rfl

/-! ## Wave.modFibre -/

@[simp] theorem Wave.modFibre_proc (v : Wave) (l : Nat) (f : Fibre → Fibre) : (v.modFibre l f).proc = v.proc := rfl
@[simp] theorem Wave.modFibre_crew (v : Wave) (l : Nat) (f : Fibre → Fibre) : (v.modFibre l f).crew = v.crew := rfl
@[simp] theorem Wave.modFibre_member (v : Wave) (l : Nat) (f : Fibre → Fibre) : (v.modFibre l f).member = v.member := rfl
@[simp] theorem Wave.modFibre_die (v : Wave) (l : Nat) (f : Fibre → Fibre) : (v.modFibre l f).die = v.die := rfl
@[simp] theorem Wave.modFibre_width (v : Wave) (l : Nat) (f : Fibre → Fibre) : (v.modFibre l f).width = v.width := rfl
@[simp] theorem Wave.modFibre_nvregs (v : Wave) (l : Nat) (f : Fibre → Fibre) : (v.modFibre l f).nvregs = v.nvregs := rfl
@[simp] theorem Wave.modFibre_priv (v : Wave) (l : Nat) (f : Fibre → Fibre) : (v.modFibre l f).priv = v.priv := rfl
@[simp] theorem Wave.modFibre_prio (v : Wave) (l : Nat) (f : Fibre → Fibre) : (v.modFibre l f).prio = v.prio := rfl
@[simp] theorem Wave.modFibre_boost (v : Wave) (l : Nat) (f : Fibre → Fibre) : (v.modFibre l f).boost = v.boost := rfl
@[simp] theorem Wave.modFibre_wslot (v : Wave) (l : Nat) (f : Fibre → Fibre) : (v.modFibre l f).wslot = v.wslot := rfl
@[simp] theorem Wave.modFibre_firstRow (v : Wave) (l : Nat) (f : Fibre → Fibre) : (v.modFibre l f).firstRow = v.firstRow := rfl
@[simp] theorem Wave.modFibre_firstQuad (v : Wave) (l : Nat) (f : Fibre → Fibre) : (v.modFibre l f).firstQuad = v.firstQuad := rfl
@[simp] theorem Wave.modFibre_launch (v : Wave) (l : Nat) (f : Fibre → Fibre) : (v.modFibre l f).launch = v.launch := rfl
@[simp] theorem Wave.modFibre_block (v : Wave) (l : Nat) (f : Fibre → Fibre) : (v.modFibre l f).block = v.block := rfl
@[simp] theorem Wave.modFibre_tbase (v : Wave) (l : Nat) (f : Fibre → Fibre) : (v.modFibre l f).tbase = v.tbase := rfl
@[simp] theorem Wave.modFibre_sregs (v : Wave) (l : Nat) (f : Fibre → Fibre) : (v.modFibre l f).sregs = v.sregs := rfl
@[simp] theorem Wave.modFibre_masks (v : Wave) (l : Nat) (f : Fibre → Fibre) : (v.modFibre l f).masks = v.masks := rfl
@[simp] theorem Wave.modFibre_vregs (v : Wave) (l : Nat) (f : Fibre → Fibre) : (v.modFibre l f).vregs = v.vregs := rfl
@[simp] theorem Wave.modFibre_vpoison (v : Wave) (l : Nat) (f : Fibre → Fibre) : (v.modFibre l f).vpoison = v.vpoison := rfl
@[simp] theorem Wave.modFibre_fibres (v : Wave) (l : Nat) (f : Fibre → Fibre) : (v.modFibre l f).fibres = Tab.mod v.fibres l f := rfl
@[simp] theorem Wave.modFibre_fpflags (v : Wave) (l : Nat) (f : Fibre → Fibre) : (v.modFibre l f).fpflags = v.fpflags := rfl
@[simp] theorem Wave.modFibre_pwinflags (v : Wave) (l : Nat) (f : Fibre → Fibre) : (v.modFibre l f).pwinflags = v.pwinflags := rfl
@[simp] theorem Wave.modFibre_srseed (v : Wave) (l : Nat) (f : Fibre → Fibre) : (v.modFibre l f).srseed = v.srseed := rfl
@[simp] theorem Wave.modFibre_gens (v : Wave) (l : Nat) (f : Fibre → Fibre) : (v.modFibre l f).gens = v.gens := rfl
@[simp] theorem Wave.modFibre_pwin (v : Wave) (l : Nat) (f : Fibre → Fibre) : (v.modFibre l f).pwin = v.pwin := rfl
@[simp] theorem Wave.modFibre_privMem (v : Wave) (l : Nat) (f : Fibre → Fibre) : (v.modFibre l f).privMem = v.privMem := rfl
@[simp] theorem Wave.modFibre_ackcnt (v : Wave) (l : Nat) (f : Fibre → Fibre) : (v.modFibre l f).ackcnt = v.ackcnt := rfl
@[simp] theorem Wave.modFibre_posted (v : Wave) (l : Nat) (f : Fibre → Fibre) : (v.modFibre l f).posted = v.posted := rfl
@[simp] theorem Wave.modFibre_streams (v : Wave) (l : Nat) (f : Fibre → Fibre) : (v.modFibre l f).streams = v.streams := rfl
@[simp] theorem Wave.modFibre_tokens (v : Wave) (l : Nat) (f : Fibre → Fibre) : (v.modFibre l f).tokens = v.tokens := rfl
@[simp] theorem Wave.modFibre_pend (v : Wave) (l : Nat) (f : Fibre → Fibre) : (v.modFibre l f).pend = v.pend := rfl
@[simp] theorem Wave.modFibre_arriving (v : Wave) (l : Nat) (f : Fibre → Fibre) : (v.modFibre l f).arriving = v.arriving := rfl
@[simp] theorem Wave.modFibre_run (v : Wave) (l : Nat) (f : Fibre → Fibre) : (v.modFibre l f).run = v.run := rfl
@[simp] theorem Wave.modFibre_lastStart (v : Wave) (l : Nat) (f : Fibre → Fibre) : (v.modFibre l f).lastStart = v.lastStart := rfl
@[simp] theorem Wave.modFibre_held (v : Wave) (l : Nat) (f : Fibre → Fibre) : (v.modFibre l f).held = v.held := rfl
@[simp] theorem Wave.modFibre_instances (v : Wave) (l : Nat) (f : Fibre → Fibre) : (v.modFibre l f).instances = v.instances := rfl
@[simp] theorem Wave.modFibre_inTrap (v : Wave) (l : Nat) (f : Fibre → Fibre) : (v.modFibre l f).inTrap = v.inTrap := rfl
@[simp] theorem Wave.modFibre_frame (v : Wave) (l : Nat) (f : Fibre → Fibre) : (v.modFibre l f).frame = v.frame := rfl
@[simp] theorem Wave.modFibre_trapMask (v : Wave) (l : Nat) (f : Fibre → Fibre) : (v.modFibre l f).trapMask = v.trapMask := rfl
@[simp] theorem Wave.modFibre_frozen (v : Wave) (l : Nat) (f : Fibre → Fibre) : (v.modFibre l f).frozen = v.frozen := rfl
@[simp] theorem Wave.modFibre_resume (v : Wave) (l : Nat) (f : Fibre → Fibre) : (v.modFibre l f).resume = v.resume := rfl
@[simp] theorem Wave.modFibre_dbg (v : Wave) (l : Nat) (f : Fibre → Fibre) : (v.modFibre l f).dbg = v.dbg := rfl
@[simp] theorem Wave.modFibre_rfeMask (v : Wave) (l : Nat) (f : Fibre → Fibre) : (v.modFibre l f).rfeMask = v.rfeMask := rfl
@[simp] theorem Wave.modFibre_refusals (v : Wave) (l : Nat) (f : Fibre → Fibre) : (v.modFibre l f).refusals = v.refusals := rfl
@[simp] theorem Wave.modFibre_wait (v : Wave) (l : Nat) (f : Fibre → Fibre) : (v.modFibre l f).wait = v.wait := rfl
@[simp] theorem Wave.modFibre_blockedAt (v : Wave) (l : Nat) (f : Fibre → Fibre) : (v.modFibre l f).blockedAt = v.blockedAt := rfl
@[simp] theorem Wave.modFibre_suspended (v : Wave) (l : Nat) (f : Fibre → Fibre) : (v.modFibre l f).suspended = v.suspended := rfl
@[simp] theorem Wave.modFibre_undelivered (v : Wave) (l : Nat) (f : Fibre → Fibre) : (v.modFibre l f).undelivered = v.undelivered := rfl
@[simp] theorem Wave.modFibre_stopped (v : Wave) (l : Nat) (f : Fibre → Fibre) : (v.modFibre l f).stopped = v.stopped := rfl
@[simp] theorem Wave.modFibre_heldLocks (v : Wave) (l : Nat) (f : Fibre → Fibre) : (v.modFibre l f).heldLocks = v.heldLocks := rfl
@[simp] theorem Wave.modFibre_lockReqs (v : Wave) (l : Nat) (f : Fibre → Fibre) : (v.modFibre l f).lockReqs = v.lockReqs := rfl
@[simp] theorem Wave.modFibre_lkPending (v : Wave) (l : Nat) (f : Fibre → Fibre) : (v.modFibre l f).lkPending = v.lkPending := rfl
@[simp] theorem Wave.modFibre_polls (v : Wave) (l : Nat) (f : Fibre → Fibre) : (v.modFibre l f).polls = v.polls := rfl
@[simp] theorem Wave.modFibre_issues (v : Wave) (l : Nat) (f : Fibre → Fibre) : (v.modFibre l f).issues = v.issues := rfl
@[simp] theorem Wave.modFibre_lastMask (v : Wave) (l : Nat) (f : Fibre → Fibre) : (v.modFibre l f).lastMask = v.lastMask := rfl
@[simp] theorem Wave.modFibre_lastPc (v : Wave) (l : Nat) (f : Fibre → Fibre) : (v.modFibre l f).lastPc = v.lastPc := rfl
@[simp] theorem Wave.modFibre_skipBpc (v : Wave) (l : Nat) (f : Fibre → Fibre) : (v.modFibre l f).skipBpc = v.skipBpc := rfl
@[simp] theorem Wave.modFibre_stepState (v : Wave) (l : Nat) (f : Fibre → Fibre) : (v.modFibre l f).stepState = v.stepState := rfl
@[simp] theorem Wave.modFibre_dead (v : Wave) (l : Nat) (f : Fibre → Fibre) : (v.modFibre l f).dead = v.dead := rfl
@[simp] theorem Wave.modFibre_killed (v : Wave) (l : Nat) (f : Fibre → Fibre) : (v.modFibre l f).killed = v.killed := rfl
@[simp] theorem Wave.modFibre_homeWait (v : Wave) (l : Nat) (f : Fibre → Fibre) : (v.modFibre l f).homeWait = v.homeWait := rfl
@[simp] theorem Wave.modFibre_pull (v : Wave) (l : Nat) (f : Fibre → Fibre) : (v.modFibre l f).pull = v.pull := rfl

/-! ## Reading after an update -/

@[simp] theorem State.wave?_setWave_self (s : State) (w : Nat) (v : Wave) : (s.setWave w v).wave? w = some v := by simp [State.wave?]
theorem State.wave?_setWave (s : State) (w x : Nat) (v : Wave) : (s.setWave w v).wave? x = if w = x then some v else s.wave? x := by
  simp [State.wave?, Tab.get?_set]
@[simp] theorem State.wave?_modWave_self (s : State) (w : Nat) (f : Wave → Wave) : (s.modWave w f).wave? w = (s.wave? w).map f := by
  simp [State.wave?]
theorem State.wave?_modWave (s : State) (w x : Nat) (f : Wave → Wave) :
    (s.modWave w f).wave? x = if w = x then (s.wave? w).map f else s.wave? x := by simp [State.wave?, Tab.get?_mod]
theorem State.crew?_modCrew (s : State) (c x : Nat) (f : Crew → Crew) :
    (s.modCrew c f).crew? x = if c = x then (s.crew? c).map f else s.crew? x := by simp [State.crew?, Tab.get?_mod]
theorem State.proc?_modProc (s : State) (p x : Nat) (f : Proc → Proc) :
    (s.modProc p f).proc? x = if p = x then (s.proc? p).map f else s.proc? x := by simp [State.proc?, Tab.get?_mod]
theorem State.core_modCore (s : State) (c x : Nat) (f : Core → Core) :
    (s.modCore c f).core x = if c = x then f (s.core c) else s.core x := by simp [State.core, Tab.getD_modD]
theorem State.die_modDie (s : State) (d x : Nat) (f : Die → Die) :
    (s.modDie d f).die x = if d = x then f (s.die d) else s.die x := by simp [State.die, Tab.getD_modD]
theorem State.obj_modObj (s : State) (i x : Nat) (f : Obj → Obj) :
    (s.modObj i f).obj x = if i = x then f (s.obj i) else s.obj x := by simp [State.obj, Tab.getD_modD]

@[simp] theorem State.crew?_setWave (s : State) (w : Nat) (v : Wave) (x : Nat) : (s.setWave w v).crew? x = s.crew? x := rfl
@[simp] theorem State.proc?_setWave (s : State) (w : Nat) (v : Wave) (x : Nat) : (s.setWave w v).proc? x = s.proc? x := rfl
@[simp] theorem State.core_setWave (s : State) (w : Nat) (v : Wave) (x : Nat) : (s.setWave w v).core x = s.core x := rfl
@[simp] theorem State.die_setWave (s : State) (w : Nat) (v : Wave) (x : Nat) : (s.setWave w v).die x = s.die x := rfl
@[simp] theorem State.obj_setWave (s : State) (w : Nat) (v : Wave) (x : Nat) : (s.setWave w v).obj x = s.obj x := rfl
@[simp] theorem State.crew?_modWave (s : State) (w : Nat) (f : Wave → Wave) (x : Nat) : (s.modWave w f).crew? x = s.crew? x := rfl
@[simp] theorem State.proc?_modWave (s : State) (w : Nat) (f : Wave → Wave) (x : Nat) : (s.modWave w f).proc? x = s.proc? x := rfl
@[simp] theorem State.core_modWave (s : State) (w : Nat) (f : Wave → Wave) (x : Nat) : (s.modWave w f).core x = s.core x := rfl
@[simp] theorem State.die_modWave (s : State) (w : Nat) (f : Wave → Wave) (x : Nat) : (s.modWave w f).die x = s.die x := rfl
@[simp] theorem State.obj_modWave (s : State) (w : Nat) (f : Wave → Wave) (x : Nat) : (s.modWave w f).obj x = s.obj x := rfl
@[simp] theorem State.wave?_setCrew (s : State) (c : Nat) (k : Crew) (x : Nat) : (s.setCrew c k).wave? x = s.wave? x := rfl
@[simp] theorem State.proc?_setCrew (s : State) (c : Nat) (k : Crew) (x : Nat) : (s.setCrew c k).proc? x = s.proc? x := rfl
@[simp] theorem State.core_setCrew (s : State) (c : Nat) (k : Crew) (x : Nat) : (s.setCrew c k).core x = s.core x := rfl
@[simp] theorem State.die_setCrew (s : State) (c : Nat) (k : Crew) (x : Nat) : (s.setCrew c k).die x = s.die x := rfl
@[simp] theorem State.obj_setCrew (s : State) (c : Nat) (k : Crew) (x : Nat) : (s.setCrew c k).obj x = s.obj x := rfl
@[simp] theorem State.wave?_modCrew (s : State) (c : Nat) (f : Crew → Crew) (x : Nat) : (s.modCrew c f).wave? x = s.wave? x := rfl
@[simp] theorem State.proc?_modCrew (s : State) (c : Nat) (f : Crew → Crew) (x : Nat) : (s.modCrew c f).proc? x = s.proc? x := rfl
@[simp] theorem State.core_modCrew (s : State) (c : Nat) (f : Crew → Crew) (x : Nat) : (s.modCrew c f).core x = s.core x := rfl
@[simp] theorem State.die_modCrew (s : State) (c : Nat) (f : Crew → Crew) (x : Nat) : (s.modCrew c f).die x = s.die x := rfl
@[simp] theorem State.obj_modCrew (s : State) (c : Nat) (f : Crew → Crew) (x : Nat) : (s.modCrew c f).obj x = s.obj x := rfl
@[simp] theorem State.wave?_modProc (s : State) (p : Nat) (f : Proc → Proc) (x : Nat) : (s.modProc p f).wave? x = s.wave? x := rfl
@[simp] theorem State.crew?_modProc (s : State) (p : Nat) (f : Proc → Proc) (x : Nat) : (s.modProc p f).crew? x = s.crew? x := rfl
@[simp] theorem State.core_modProc (s : State) (p : Nat) (f : Proc → Proc) (x : Nat) : (s.modProc p f).core x = s.core x := rfl
@[simp] theorem State.die_modProc (s : State) (p : Nat) (f : Proc → Proc) (x : Nat) : (s.modProc p f).die x = s.die x := rfl
@[simp] theorem State.obj_modProc (s : State) (p : Nat) (f : Proc → Proc) (x : Nat) : (s.modProc p f).obj x = s.obj x := rfl
@[simp] theorem State.wave?_modCore (s : State) (c : Nat) (f : Core → Core) (x : Nat) : (s.modCore c f).wave? x = s.wave? x := rfl
@[simp] theorem State.crew?_modCore (s : State) (c : Nat) (f : Core → Core) (x : Nat) : (s.modCore c f).crew? x = s.crew? x := rfl
@[simp] theorem State.proc?_modCore (s : State) (c : Nat) (f : Core → Core) (x : Nat) : (s.modCore c f).proc? x = s.proc? x := rfl
@[simp] theorem State.die_modCore (s : State) (c : Nat) (f : Core → Core) (x : Nat) : (s.modCore c f).die x = s.die x := rfl
@[simp] theorem State.obj_modCore (s : State) (c : Nat) (f : Core → Core) (x : Nat) : (s.modCore c f).obj x = s.obj x := rfl
@[simp] theorem State.wave?_modDie (s : State) (d : Nat) (f : Die → Die) (x : Nat) : (s.modDie d f).wave? x = s.wave? x := rfl
@[simp] theorem State.crew?_modDie (s : State) (d : Nat) (f : Die → Die) (x : Nat) : (s.modDie d f).crew? x = s.crew? x := rfl
@[simp] theorem State.proc?_modDie (s : State) (d : Nat) (f : Die → Die) (x : Nat) : (s.modDie d f).proc? x = s.proc? x := rfl
@[simp] theorem State.core_modDie (s : State) (d : Nat) (f : Die → Die) (x : Nat) : (s.modDie d f).core x = s.core x := rfl
@[simp] theorem State.obj_modDie (s : State) (d : Nat) (f : Die → Die) (x : Nat) : (s.modDie d f).obj x = s.obj x := rfl
@[simp] theorem State.wave?_modObj (s : State) (i : Nat) (f : Obj → Obj) (x : Nat) : (s.modObj i f).wave? x = s.wave? x := rfl
@[simp] theorem State.crew?_modObj (s : State) (i : Nat) (f : Obj → Obj) (x : Nat) : (s.modObj i f).crew? x = s.crew? x := rfl
@[simp] theorem State.proc?_modObj (s : State) (i : Nat) (f : Obj → Obj) (x : Nat) : (s.modObj i f).proc? x = s.proc? x := rfl
@[simp] theorem State.core_modObj (s : State) (i : Nat) (f : Obj → Obj) (x : Nat) : (s.modObj i f).core x = s.core x := rfl
@[simp] theorem State.die_modObj (s : State) (i : Nat) (f : Obj → Obj) (x : Nat) : (s.modObj i f).die x = s.die x := rfl
@[simp] theorem State.wave?_modPort (s : State) (i : Nat) (f : Port → Port) (x : Nat) : (s.modPort i f).wave? x = s.wave? x := rfl
@[simp] theorem State.crew?_modPort (s : State) (i : Nat) (f : Port → Port) (x : Nat) : (s.modPort i f).crew? x = s.crew? x := rfl
@[simp] theorem State.proc?_modPort (s : State) (i : Nat) (f : Port → Port) (x : Nat) : (s.modPort i f).proc? x = s.proc? x := rfl
@[simp] theorem State.core_modPort (s : State) (i : Nat) (f : Port → Port) (x : Nat) : (s.modPort i f).core x = s.core x := rfl
@[simp] theorem State.die_modPort (s : State) (i : Nat) (f : Port → Port) (x : Nat) : (s.modPort i f).die x = s.die x := rfl
@[simp] theorem State.obj_modPort (s : State) (i : Nat) (f : Port → Port) (x : Nat) : (s.modPort i f).obj x = s.obj x := rfl
@[simp] theorem State.wave?_send (s : State) (l : List Instr) (x : Nat) : (s.send l).wave? x = s.wave? x := rfl
@[simp] theorem State.crew?_send (s : State) (l : List Instr) (x : Nat) : (s.send l).crew? x = s.crew? x := rfl
@[simp] theorem State.proc?_send (s : State) (l : List Instr) (x : Nat) : (s.send l).proc? x = s.proc? x := rfl
@[simp] theorem State.core_send (s : State) (l : List Instr) (x : Nat) : (s.send l).core x = s.core x := rfl
@[simp] theorem State.die_send (s : State) (l : List Instr) (x : Nat) : (s.send l).die x = s.die x := rfl
@[simp] theorem State.obj_send (s : State) (l : List Instr) (x : Nat) : (s.send l).obj x = s.obj x := rfl
@[simp] theorem State.wave?_wr8 (s : State) (k : Nat) (b : Byte) (x : Nat) : (s.wr8 k b).wave? x = s.wave? x := rfl
@[simp] theorem State.crew?_wr8 (s : State) (k : Nat) (b : Byte) (x : Nat) : (s.wr8 k b).crew? x = s.crew? x := rfl
@[simp] theorem State.proc?_wr8 (s : State) (k : Nat) (b : Byte) (x : Nat) : (s.wr8 k b).proc? x = s.proc? x := rfl
@[simp] theorem State.core_wr8 (s : State) (k : Nat) (b : Byte) (x : Nat) : (s.wr8 k b).core x = s.core x := rfl
@[simp] theorem State.die_wr8 (s : State) (k : Nat) (b : Byte) (x : Nat) : (s.wr8 k b).die x = s.die x := rfl
@[simp] theorem State.obj_wr8 (s : State) (k : Nat) (b : Byte) (x : Nat) : (s.wr8 k b).obj x = s.obj x := rfl
@[simp] theorem State.wave?_wrN (s : State) (k n v : Nat) (x : Nat) : (s.wrN k n v).wave? x = s.wave? x := rfl
@[simp] theorem State.crew?_wrN (s : State) (k n v : Nat) (x : Nat) : (s.wrN k n v).crew? x = s.crew? x := rfl
@[simp] theorem State.proc?_wrN (s : State) (k n v : Nat) (x : Nat) : (s.wrN k n v).proc? x = s.proc? x := rfl
@[simp] theorem State.core_wrN (s : State) (k n v : Nat) (x : Nat) : (s.wrN k n v).core x = s.core x := rfl
@[simp] theorem State.die_wrN (s : State) (k n v : Nat) (x : Nat) : (s.wrN k n v).die x = s.die x := rfl
@[simp] theorem State.obj_wrN (s : State) (k n v : Nat) (x : Nat) : (s.wrN k n v).obj x = s.obj x := rfl

@[simp] theorem State.rd8_setWave (s : State) (w : Nat) (v : Wave) (k : Nat) : (s.setWave w v).rd8 k = s.rd8 k := rfl
@[simp] theorem State.rd8_modWave (s : State) (w : Nat) (f : Wave → Wave) (k : Nat) : (s.modWave w f).rd8 k = s.rd8 k := rfl

/-! ## Registers of a wave -/

@[simp] theorem Wave.sreg_setSreg_self (v : Wave) (r : Nat) (x : W64) : (v.setSreg r x).sreg r = x := by simp [Wave.sreg]
theorem Wave.sreg_setSreg (v : Wave) (r q : Nat) (x : W64) : (v.setSreg r x).sreg q = if r = q then x else v.sreg q := by
  simp [Wave.sreg, Tab.getD_set]
theorem Wave.mask_setMask (v : Wave) (k q : Nat) (x : W64) :
    (v.setMask k x).mask q = if k = q then x &&& laneMask v.width else v.mask q := by simp [Wave.mask, Tab.getD_set]
theorem Wave.row_setRow (v : Wave) (l r m q : Nat) (x : W32) :
    (v.setRow l r x).row m q = if l = m ∧ r = q then x else v.row m q := by
  simp only [Wave.row, Wave.setRow_vregs, Tab.getD_modD]
  by_cases h : l = m
  · subst h; simp [Tab.getD_set]
  · simp [h]
@[simp] theorem Wave.pred_zero (v : Wave) (l : Nat) : v.pred l 0 = true := by simp [Wave.pred]
@[simp] theorem Wave.setPred_zero (v : Wave) (l : Nat) (b : Bool) : v.setPred l 0 b = v := by simp [Wave.setPred]

end Sys2Proof.Machine
end

