-- ==== Sys2Proof/Laws/Issue.lean ====
section
/-!
SUPPORT. Sys2Proof/Laws/Issue.lean: what the issue of an instruction can do, said once: it has no issuer, it ends a run before a V = 1 word, it
traps, it stalls, or it retires with its effect.
-/

namespace Sys2Proof.Machine

theorem pickTrap_nil : pickTrap [] = none := rfl

theorem shapeTraps_nil (c : Ctx) (v1 s : Bool) (h1 : v1 = false → c.run.issued < 24)
    (h2 : (!(endsRun c.raw) || s || v1) = true) : shapeTraps c v1 s = [] := by
  cases v1 with
  | true => rfl
  | false =>
    have h24 : ¬ c.run.issued ≥ 24 := by have := h1 rfl; omega
    cases s <;> simp_all [shapeTraps]

theorem outsideTraps_nil (c : Ctx) (us : List Use) (h : ∀ u ∈ us, ∀ l ∈ c.act, useOutside c.v u l = false) :
    outsideTraps c us = [] := by
  have : c.act.filterMap (fun l => (us.find? (fun u => useOutside c.v u l)).map (fun u => (l, u))) = [] := by
    rw [List.filterMap_eq_nil_iff]
    intro l hl
    have : us.find? (fun u => useOutside c.v u l) = none := by
      rw [List.find?_eq_none]; intro u hu; simp [h u hu l hl]
    simp [this]
  simp [outsideTraps, this]

theorem poisonTraps_nil (c : Ctx) (us : List Use) (h : ∀ u ∈ us, ∀ l ∈ c.act, usePoison c.v u l = none) :
    poisonTraps c us = [] := by
  have : c.act.filterMap (fun l => ((us.filterMap (fun u => (usePoison c.v u l).map (fun i => (l, u, i)))).head?)) = [] := by
    rw [List.filterMap_eq_nil_iff]
    intro l hl
    have : us.filterMap (fun u => (usePoison c.v u l).map (fun i => (l, u, i))) = [] := by
      rw [List.filterMap_eq_nil_iff]; intro u hu; simp [h u hu l hl]
    simp [this]
  unfold poisonTraps
  rw [this]

/-- The checks before an instruction's own are passed. -/
theorem Issues.clear {i : Instr} {s : State} {v : Wave} {r : Run} (h : Issues i s v r) :
    pickTrap ((checkRaw (mkCtx s.turn v r i).raw).map (fun f => f.toTrap (maskOf (mkCtx s.turn v r i).lanes))
      ++ shapeTraps (mkCtx s.turn v r i) i.v1 i.sBit ++ outsideTraps (mkCtx s.turn v r i) (usesOf (mkCtx s.turn v r i).raw)) = none := by
  obtain ⟨_, ⟨_, hc, hs, _⟩, _, h24, hu⟩ := h
  have e1 : (mkCtx s.turn v r i).raw = i.raw := rfl
  have e2 : shapeTraps (mkCtx s.turn v r i) i.v1 i.sBit = [] := shapeTraps_nil _ _ _ h24 hs
  have e3 : outsideTraps (mkCtx s.turn v r i) (usesOf i.raw) = [] := outsideTraps_nil _ _ (fun u hu' l hl => (hu u hu' l hl).1)
  rw [e1, hc, e2, e3]; rfl

theorem Issues.clean {i : Instr} {s : State} {v : Wave} {r : Run} (h : Issues i s v r) :
    pickTrap (poisonTraps (mkCtx s.turn v r i) (usesOf (mkCtx s.turn v r i).raw)) = none := by
  obtain ⟨_, _, _, _, hu⟩ := h
  have e : poisonTraps (mkCtx s.turn v r i) (usesOf i.raw) = [] := poisonTraps_nil _ _ (fun u hu' l hl => (hu u hu' l hl).2)
  show pickTrap (poisonTraps (mkCtx s.turn v r i) (usesOf i.raw)) = none
  rw [e]; rfl

theorem Issues.fresh {i : Instr} {s : State} {v : Wave} {r : Run} (h : Issues i s v r) : (i.v1 && r.issued != 0) = false := by
  obtain ⟨_, _, h1, _, _⟩ := h
  cases hv : i.v1 with
  | false => rfl
  | true => simp [h1 hv]

/-- An instruction whose checks pass and whose body has an effect retires with it. -/
theorem issue_ok {i : Instr} {s : State} {v : Wave} {r : Run} {body : Ctx → State → Iss} {e : Eff} (h : Issues i s v r)
    (hb : body (mkCtx s.turn v r i) s = .ok e) : issue i body s = .next (retire (mkCtx s.turn v r i) i.v1 i.sBit e) := by
  have hi := h.1
  unfold issue
  simp only [hi, h.fresh, Bool.false_eq_true, if_false, h.clear, hb, h.clean]

/-- An instruction whose checks pass and whose body traps enters the handler. -/
theorem issue_trap {i : Instr} {s : State} {v : Wave} {r : Run} {body : Ctx → State → Iss} {ts : List Trap} {st : Option State}
    (h : Issues i s v r) (hb : body (mkCtx s.turn v r i) s = .trap ts st) :
    issue i body s = .next ((st.getD s).issueTrap s.turn v r ((pickTrap ts).getD { cause := 0, sub := 0 }) (mkCtx s.turn v r i).site) := by
  have hi := h.1
  unfold issue
  simp only [hi, h.fresh, Bool.false_eq_true, if_false, h.clear, hb]

/-- An instruction whose checks pass and whose body stalls stays the next instruction. -/
theorem issue_stall {i : Instr} {s s' : State} {v : Wave} {r : Run} {body : Ctx → State → Iss} (h : Issues i s v r)
    (hb : body (mkCtx s.turn v r i) s = .stall s') : issue i body s = .next s' := by
  have hi := h.1
  unfold issue
  simp only [hi, h.fresh, Bool.false_eq_true, if_false, h.clear, hb]

/-- An issue answers a next state, or the fault that no wave issues. -/
theorem issue_total (i : Instr) (body : Ctx → State → Iss) (s : State) :
    (∃ t, issue i body s = .next t) ∨ (s.issuer = none ∧ issue i body s = .fault .noIssuer) := by
  unfold issue
  split
  · rename_i h; exact .inr ⟨h, rfl⟩
  · refine .inl ?_
    split
    · exact ⟨_, rfl⟩
    · simp only []
      split
      · exact ⟨_, rfl⟩
      · split
        · exact ⟨_, rfl⟩
        · exact ⟨_, rfl⟩
        · split <;> exact ⟨_, rfl⟩

/-- With a wave to issue it an instruction answers a next state. -/
theorem issue_next (i : Instr) (body : Ctx → State → Iss) (s : State) (h : s.issuer ≠ none) : ∃ t, issue i body s = .next t := by
  rcases issue_total i body s with h1 | ⟨h1, _⟩
  · exact h1
  · exact absurd h1 h

theorem retire_mem (c : Ctx) (v1 s : Bool) (e : Eff) : (retire c v1 s e).mem = e.s.mem := rfl

theorem retire_wave (c : Ctx) (v1 s : Bool) (e : Eff) : (retire c v1 s e).wave? c.w = (e.s.wave? c.w).map (fun v => retireWave c v v1 s e) := by
  simp [retire]

theorem retire_other (c : Ctx) (v1 s : Bool) (e : Eff) (w : Nat) (h : c.w ≠ w) : (retire c v1 s e).wave? w = e.s.wave? w := by
  simp [retire, State.wave?_modWave, h]

/-- The wave that issues stands in the table. -/
theorem State.issuer_wave {s : State} {v : Wave} {r : Run} (h : s.issuer = some (v, r)) : s.wave? s.turn = some v ∧ v.run = some r := by
  unfold State.issuer at h
  split at h
  · cases h
  · rename_i v' hv
    split at h
    · cases h
    · rename_i r' hr
      split at h
      · cases h
      · cases h; exact ⟨hv, hr⟩

end Sys2Proof.Machine
end

