-- ==== Sys2Proof/Laws/Trap.lean ====
section
/-!
SUPPORT. Sys2Proof/Laws/Trap.lean: what commits, the end of a run, and the entry into and the return from a handler do to a wave: the fields they
leave alone, and the fibres they move.
-/

namespace Sys2Proof.Machine

/-! ## Changes of fibres over a list of lanes -/

/-- Changing the fibres of listed lanes changes fibres alone. -/
theorem foldl_modFibre_eq (l : List Nat) (v : Wave) (f : Nat → Fibre → Fibre) :
    l.foldl (fun v l => v.modFibre l (f l)) v = { v with fibres := (l.foldl (fun v l => v.modFibre l (f l)) v).fibres } := by
  induction l generalizing v with
  | nil => rfl
  | cons a t ih => rw [List.foldl_cons, ih]; rfl

theorem Wave.modFibre_fibre? (v : Wave) (n m : Nat) (f : Fibre → Fibre) :
    (v.modFibre n f).fibre? m = if n = m then (v.fibre? m).map f else v.fibre? m := by
  simp only [Wave.fibre?, Wave.modFibre_fibres, Tab.get?_mod]
  split
  · rename_i h; rw [h]
  · rfl

/-- A lane's fibre after the listed lanes have changed. -/
theorem foldl_modFibre_fibre? (l : List Nat) (hn : l.Nodup) (v : Wave) (f : Nat → Fibre → Fibre) (n : Nat) :
    (l.foldl (fun v l => v.modFibre l (f l)) v).fibre? n = if n ∈ l then (v.fibre? n).map (f n) else v.fibre? n := by
  induction l generalizing v with
  | nil => simp
  | cons a t ih =>
    rw [List.nodup_cons] at hn
    rw [List.foldl_cons, ih hn.2, Wave.modFibre_fibre?]
    by_cases h : a = n
    · subst h; simp [hn.1]
    · have : ¬ n = a := fun e => h e.symm
      simp [h, this]

theorem lanesOf_nodup (m : W64) (w : Nat) : (lanesOf m w).Nodup := List.Pairwise.filter _ List.nodup_range

/-- The lanes that hold a fibre are the same after a change of fibres. -/
theorem Wave.modFibre_live (v : Wave) (n : Nat) (f : Fibre → Fibre) : (v.modFibre n f).live = v.live := by
  unfold Wave.live Wave.modFibre
  have : Tab.keys (Tab.mod v.fibres n f) = Tab.keys v.fibres := by
    unfold Tab.mod
    split
    · rfl
    · rename_i x hx
      generalize f x = y
      have hs : ∀ t : Tab Fibre, (∃ z, Tab.get? t n = some z) → Tab.keys (Tab.set t n y) = Tab.keys t := by
        intro t
        induction t with
        | nil => intro h; obtain ⟨z, hz⟩ := h; cases hz
        | cons e t ih =>
          intro h
          obtain ⟨k, u⟩ := e
          by_cases hk : k = n
          · subst hk; simp [Tab.set, Tab.keys]
          · have h' : ∃ z, Tab.get? t n = some z := by simpa [Tab.get?, hk] using h
            have := ih h'
            simpa [Tab.set, Tab.keys, hk] using this
      exact hs _ ⟨x, hx⟩
  rw [this]

theorem foldl_modFibre_live (l : List Nat) (v : Wave) (f : Nat → Fibre → Fibre) : (l.foldl (fun v l => v.modFibre l (f l)) v).live = v.live := by
  induction l generalizing v with
  | nil => rfl
  | cons a t ih => rw [List.foldl_cons, ih, Wave.modFibre_live]

/-- Entering at an address changes fibres alone, and no lane gains or loses one. -/
theorem Wave.enterAt_eq (v : Wave) (m : W64) (pc : BitVec 48) : v.enterAt m pc = { v with fibres := (v.enterAt m pc).fibres } :=
  foldl_modFibre_eq _ _ (fun _ f => { f with pc := pc })

theorem Wave.enterAt_live (v : Wave) (m : W64) (pc : BitVec 48) : (v.enterAt m pc).live = v.live :=
  foldl_modFibre_live _ _ (fun _ f => { f with pc := pc })

/-- A fibre after an entry: those of the entering lanes stand at the address. -/
theorem Wave.enterAt_fibre? (v : Wave) (m : W64) (pc : BitVec 48) (n : Nat) :
    (v.enterAt m pc).fibre? n = if n < v.width ∧ m.getLsbD n = true then (v.fibre? n).map (fun f => { f with pc := pc }) else v.fibre? n := by
  have := foldl_modFibre_fibre? (lanesOf m v.width) (lanesOf_nodup m v.width) v (fun _ f => { f with pc := pc }) n
  simp only [mem_lanesOf] at this
  exact this

/-! ## Commits -/

/-- Releasing a mask's holds changes the held batches alone (R35). -/
theorem Wave.settleMask_eq (v : Wave) (k : Nat) : v.settleMask k = { v with held := (v.settleMask k).held } := by
  unfold Wave.settleMask
  split <;> rfl

/-- A commit changes registers, predicates, masks and flags, the holds on a mask (R139) and the temporaries of a frozen run (R124), and nothing
else of the wave. -/
theorem Wave.put_eq (v : Wave) (l : Loc) (x : W64) :
    v.put l x = { v with sregs := (v.put l x).sregs, masks := (v.put l x).masks, vregs := (v.put l x).vregs, vpoison := (v.put l x).vpoison,
                         fibres := (v.put l x).fibres, held := (v.put l x).held, frozen := (v.put l x).frozen, dbg := (v.put l x).dbg } := by
  cases l with
  | k n =>
    have h := Wave.settleMask_eq (v.setMask n x) n
    simp only [Wave.put]
    generalize (v.setMask n x).settleMask n = y at h ⊢
    rw [h]
    rfl
  | f a i => simp only [Wave.put, Wave.setFrozenTemp]; split <;> rfl
  | p a i => simp only [Wave.put, Wave.setPred]; split <;> rfl
  | _ => rfl

theorem commitWrite_eq (q : Nat) (vr : Wave × Run) (w : Write) :
    (commitWrite q vr w).1 = { vr.1 with
      sregs := (commitWrite q vr w).1.sregs, masks := (commitWrite q vr w).1.masks, vregs := (commitWrite q vr w).1.vregs,
      vpoison := (commitWrite q vr w).1.vpoison, fibres := (commitWrite q vr w).1.fibres, held := (commitWrite q vr w).1.held, frozen := (commitWrite q vr w).1.frozen, dbg := (commitWrite q vr w).1.dbg } := by
  unfold commitWrite
  split
  · exact Wave.put_eq _ _ _
  · rfl

/-- A commit changes the temporaries and the note of the last writers, and nothing else of the run. -/
theorem commitWrite_run (q : Nat) (vr : Wave × Run) (w : Write) :
    (commitWrite q vr w).2 = { vr.2 with temps := (commitWrite q vr w).2.temps, wrote := (commitWrite q vr w).2.wrote } := by
  unfold commitWrite
  split
  · cases h : w.loc <;> rfl
  · rfl

theorem foldl_commitWrite_eq (q : Nat) (l : List Write) (vr : Wave × Run) :
    (l.foldl (commitWrite q) vr).1 = { vr.1 with
      sregs := (l.foldl (commitWrite q) vr).1.sregs, masks := (l.foldl (commitWrite q) vr).1.masks, vregs := (l.foldl (commitWrite q) vr).1.vregs,
      vpoison := (l.foldl (commitWrite q) vr).1.vpoison, fibres := (l.foldl (commitWrite q) vr).1.fibres, held := (l.foldl (commitWrite q) vr).1.held, frozen := (l.foldl (commitWrite q) vr).1.frozen, dbg := (l.foldl (commitWrite q) vr).1.dbg } := by
  induction l generalizing vr with
  | nil => rfl
  | cons a t ih => rw [List.foldl_cons, ih, commitWrite_eq]

theorem foldl_commitWrite_run (q : Nat) (l : List Write) (vr : Wave × Run) :
    (l.foldl (commitWrite q) vr).2 = { vr.2 with temps := (l.foldl (commitWrite q) vr).2.temps, wrote := (l.foldl (commitWrite q) vr).2.wrote } := by
  induction l generalizing vr with
  | nil => rfl
  | cons a t ih => rw [List.foldl_cons, ih, commitWrite_run]

theorem commitRes_eq (vr : Wave × Run) (x : Res) :
    (commitRes vr x).1 = { vr.1 with
      sregs := (commitRes vr x).1.sregs, masks := (commitRes vr x).1.masks, vregs := (commitRes vr x).1.vregs,
      vpoison := (commitRes vr x).1.vpoison, fibres := (commitRes vr x).1.fibres, held := (commitRes vr x).1.held, frozen := (commitRes vr x).1.frozen, dbg := (commitRes vr x).1.dbg, fpflags := (commitRes vr x).1.fpflags,
      pwinflags := (commitRes vr x).1.pwinflags } := by
  have h := foldl_commitWrite_eq x.seq x.writes vr
  have e1 : (commitRes vr x).1.fpflags = vr.1.fpflags ||| x.flags := by
    show (x.writes.foldl (commitWrite x.seq) vr).1.fpflags ||| x.flags = _
    rw [h]
  have e2 : (commitRes vr x).1.pwinflags = vr.1.pwinflags ||| x.oob := by
    show (x.writes.foldl (commitWrite x.seq) vr).1.pwinflags ||| x.oob = _
    rw [h]
  rw [e1, e2]
  show ((x.writes.foldl (commitWrite x.seq) vr).1.orFlags x.flags).orOob x.oob = _
  conv => lhs; rw [foldl_commitWrite_eq]
  rfl

theorem commitRes_run (vr : Wave × Run) (x : Res) :
    (commitRes vr x).2 = { vr.2 with temps := (commitRes vr x).2.temps, wrote := (commitRes vr x).2.wrote } :=
  foldl_commitWrite_run _ _ _

theorem foldl_commitRes_eq (l : List Res) (vr : Wave × Run) :
    (l.foldl commitRes vr).1 = { vr.1 with
      sregs := (l.foldl commitRes vr).1.sregs, masks := (l.foldl commitRes vr).1.masks, vregs := (l.foldl commitRes vr).1.vregs,
      vpoison := (l.foldl commitRes vr).1.vpoison, fibres := (l.foldl commitRes vr).1.fibres, held := (l.foldl commitRes vr).1.held, frozen := (l.foldl commitRes vr).1.frozen, dbg := (l.foldl commitRes vr).1.dbg, fpflags := (l.foldl commitRes vr).1.fpflags,
      pwinflags := (l.foldl commitRes vr).1.pwinflags } := by
  induction l generalizing vr with
  | nil => rfl
  | cons a t ih => rw [List.foldl_cons, ih, commitRes_eq]

theorem foldl_commitRes_run (l : List Res) (vr : Wave × Run) :
    (l.foldl commitRes vr).2 = { vr.2 with temps := (l.foldl commitRes vr).2.temps, wrote := (l.foldl commitRes vr).2.wrote } := by
  induction l generalizing vr with
  | nil => rfl
  | cons a t ih => rw [List.foldl_cons, ih, commitRes_run]

/-- The end of a run commits everything; of the wave nothing but registers, masks, fibres and flags changes, of the run its pending results go. -/
theorem commitAll_eq (v : Wave) (r : Run) :
    (commitAll v r).1 = { v with
      sregs := (commitAll v r).1.sregs, masks := (commitAll v r).1.masks, vregs := (commitAll v r).1.vregs, vpoison := (commitAll v r).1.vpoison,
      fibres := (commitAll v r).1.fibres, held := (commitAll v r).1.held, frozen := (commitAll v r).1.frozen, dbg := (commitAll v r).1.dbg, fpflags := (commitAll v r).1.fpflags, pwinflags := (commitAll v r).1.pwinflags } :=
  foldl_commitRes_eq _ _

theorem commitAll_run (v : Wave) (r : Run) :
    (commitAll v r).2 = { r with temps := (commitAll v r).2.temps, wrote := (commitAll v r).2.wrote, pending := [] } := by
  show ({ (r.pending.foldl commitRes (v, r)).2 with pending := [] } : Run) = _
  conv => lhs; rw [foldl_commitRes_run]
  rfl

/-- One more issue of the run: the same. -/
theorem countIssue_eq (v : Wave) (r : Run) :
    (countIssue v r).1 = { v with
      sregs := (countIssue v r).1.sregs, masks := (countIssue v r).1.masks, vregs := (countIssue v r).1.vregs, vpoison := (countIssue v r).1.vpoison,
      fibres := (countIssue v r).1.fibres, held := (countIssue v r).1.held, frozen := (countIssue v r).1.frozen, dbg := (countIssue v r).1.dbg, fpflags := (countIssue v r).1.fpflags, pwinflags := (countIssue v r).1.pwinflags } :=
  foldl_commitRes_eq _ _

theorem countIssue_run (v : Wave) (r : Run) :
    (countIssue v r).2 = { r with
      temps := (countIssue v r).2.temps, wrote := (countIssue v r).2.wrote, pending := (r.pending.map Res.tick).filter (fun x => !x.due) } := by
  show ({ ((((r.pending.map Res.tick)).filter Res.due).foldl commitRes (v, r)).2 with pending := (r.pending.map Res.tick).filter (fun x => !x.due) } : Run) = _
  conv => lhs; rw [foldl_commitRes_run]
  rfl

/-- With nothing pending an issue commits nothing. -/
theorem countIssue_nil (v : Wave) (r : Run) (h : r.pending = []) : countIssue v r = (v, r) := by
  unfold countIssue
  rw [h]
  show (v, ({ r with pending := [] } : Run)) = (v, r)
  rw [← h]

/-- A lane's fibre at the end of a run. -/
theorem Wave.finishRun_fibre? (v : Wave) (r : Run) (l : Nat) :
    (v.finishRun r).fibre? l =
      if l < v.width ∧ (r.mask &&& (commitAll v r).1.live).getLsbD l = true then
        ((commitAll v r).1.fibre? l).map (fun f => { f with pc := Tab.getD r.targets l r.pc, winBase := Tab.getD r.winNext l f.winBase })
      else (commitAll v r).1.fibre? l := by
  have hw : (commitAll v r).1.width = v.width := by rw [commitAll_eq]
  have hm : (commitAll v r).2.mask = r.mask := by rw [commitAll_run]
  have ht : (commitAll v r).2.targets = r.targets := by rw [commitAll_run]
  have hp : (commitAll v r).2.pc = r.pc := by rw [commitAll_run]
  have hn : (commitAll v r).2.winNext = r.winNext := by rw [commitAll_run]
  have := foldl_modFibre_fibre? (lanesOf ((commitAll v r).2.mask &&& (commitAll v r).1.live) (commitAll v r).1.width) (lanesOf_nodup _ _)
    (commitAll v r).1 (fun l f => { f with pc := Tab.getD (commitAll v r).2.targets l (commitAll v r).2.pc, winBase := Tab.getD (commitAll v r).2.winNext l f.winBase }) l
  simp only [mem_lanesOf, hw, hm, ht, hp, hn] at this
  refine Eq.trans ?_ this
  rw [← hw, ← hm, ← ht, ← hp, ← hn]
  rfl

/-- A key that is found is among the keys; a fibre that is there is live. -/
theorem keys_get (t : Tab Fibre) (l : Nat) (f : Fibre) (h : Tab.get? t l = some f) : l ∈ Tab.keys t := by
  induction t with
  | nil => cases h
  | cons e t ih =>
    obtain ⟨k, u⟩ := e
    by_cases hk : k = l
    · simp [Tab.keys, hk]
    · simp [Tab.get?, hk] at h
      have := ih h
      simp [Tab.keys] at this ⊢
      exact .inr this

theorem live_of (v : Wave) (l : Nat) (f : Fibre) (hl : l < 64) (h : v.fibre? l = some f) : v.live.getLsbD l = true := by
  have hk := keys_get v.fibres l f h
  unfold Wave.live
  suffices ∀ (ks : List Nat) (m : W64), (l ∈ ks ∨ m.getLsbD l = true) → (ks.foldl setBit64 m).getLsbD l = true from this _ _ (.inl hk)
  intro ks
  induction ks with
  | nil => intro m h; simpa using h
  | cons a t ih =>
    intro m h
    rw [List.foldl_cons]
    apply ih
    rcases h with h | h
    · rcases List.mem_cons.1 h with h | h
      · right; subst h; simp [setBit64, hl]
      · exact .inl h
    · right; simp [setBit64, h]

end Sys2Proof.Machine
end

