-- ==== Sys2Proof/Laws/Lane.lean ====
section
/-!
SUPPORT. Sys2Proof/Laws/Lane.lean: what each shared shape of a lane or uniform instruction answers where the instruction issues: one lemma per shape.
-/

namespace Sys2Proof.Machine

variable {i : Instr} {s : State} {v : Wave} {r : Run}

/-- The effect of writing n registers of the destination in every active lane. -/
def laneEff (c : Ctx) (f : LR) (n : Nat) (g : Nat → Nat) (s : State) : Eff :=
  { s := s, writes := c.act.flatMap (fun l => laneWrites c f.v1 l f.d.toNat n (g l)) }

/-- The same with flags. -/
def laneEffF (c : Ctx) (f : LR) (n : Nat) (g : Nat → Nat × FFlags) (s : State) : Eff :=
  { s := s, writes := c.act.flatMap (fun l => laneWrites c f.v1 l f.d.toNat n (g l).1), flags := flagBits (c.act.map (fun l => (g l).2)) }

theorem lane32_ok (f : LR) (op : W32 → W32 → W32) (h : Issues i s v r) :
    lane32 i f op s = .next (retire (s.ctx v r i) i.v1 i.sBit (laneEff (s.ctx v r i) f 1
      (fun l => (op (readLane (s.ctx v r i) f.ow l f.a.toNat) (readLane (s.ctx v r i) f.ow l f.b.toNat)).toNat) s)) :=
  issue_ok (body := fun c st => laneOut c f 1 (fun l => (op (readLane c f.ow l f.a.toNat) (readLane c f.ow l f.b.toNat)).toNat) st) h rfl

theorem lane32u_ok (f : LR) (op : W32 → W32) (h : Issues i s v r) :
    lane32u i f op s = .next (retire (s.ctx v r i) i.v1 i.sBit (laneEff (s.ctx v r i) f 1
      (fun l => (op (readLane (s.ctx v r i) f.ow l f.a.toNat)).toNat) s)) :=
  issue_ok (body := fun c st => laneOut c f 1 (fun l => (op (readLane c f.ow l f.a.toNat)).toNat) st) h rfl

theorem lane32t_ok (f : LR) (op : W32 → W32 → W32 → W32) (h : Issues i s v r) :
    lane32t i f op s = .next (retire (s.ctx v r i) i.v1 i.sBit (laneEff (s.ctx v r i) f 1
      (fun l => (op (readLane (s.ctx v r i) f.ow l f.a.toNat) (readLane (s.ctx v r i) f.ow l f.b.toNat)
        (readLane (s.ctx v r i) f.ow l (f.x.toNat % 64))).toNat) s)) :=
  issue_ok (body := fun c st => laneOut c f 1 (fun l => (op (readLane c f.ow l f.a.toNat) (readLane c f.ow l f.b.toNat)
    (readLane c f.ow l (f.x.toNat % 64))).toNat) st) h rfl

theorem lane64_ok (f : LR) (op : W64 → W64 → W64) (h : Issues i s v r) :
    lane64 i f op s = .next (retire (s.ctx v r i) i.v1 i.sBit (laneEff (s.ctx v r i) f 2
      (fun l => (op (readPair (s.ctx v r i) f.ow l f.a.toNat) (readPair (s.ctx v r i) f.ow l f.b.toNat)).toNat) s)) :=
  issue_ok (body := fun c st => laneOut c f 2 (fun l => (op (readPair c f.ow l f.a.toNat) (readPair c f.ow l f.b.toNat)).toNat) st) h rfl

theorem laneWide_ok (f : LR) (op : W32 → W32 → W64) (h : Issues i s v r) :
    laneWide i f op s = .next (retire (s.ctx v r i) i.v1 i.sBit (laneEff (s.ctx v r i) f 2
      (fun l => (op (readLane (s.ctx v r i) f.ow l f.a.toNat) (readLane (s.ctx v r i) f.ow l f.b.toNat)).toNat) s)) :=
  issue_ok (body := fun c st => laneOut c f 2 (fun l => (op (readLane c f.ow l f.a.toNat) (readLane c f.ow l f.b.toNat)).toNat) st) h rfl

theorem fp32_ok (f : LR) (op : Nat → Nat → Nat × FFlags) (h : Issues i s v r) :
    fp32 i f op s = .next (retire (s.ctx v r i) i.v1 i.sBit (laneEffF (s.ctx v r i) f 1
      (fun l => op (readLane (s.ctx v r i) f.ow l f.a.toNat).toNat (readLane (s.ctx v r i) f.ow l f.b.toNat).toNat) s)) :=
  issue_ok (body := fun c st => laneOutF c f 1 (fun l => op (readLane c f.ow l f.a.toNat).toNat (readLane c f.ow l f.b.toNat).toNat) st) h rfl

theorem fp32u_ok (f : LR) (op : Nat → Nat × FFlags) (h : Issues i s v r) :
    fp32u i f op s = .next (retire (s.ctx v r i) i.v1 i.sBit (laneEffF (s.ctx v r i) f 1
      (fun l => op (readLane (s.ctx v r i) f.ow l f.a.toNat).toNat) s)) :=
  issue_ok (body := fun c st => laneOutF c f 1 (fun l => op (readLane c f.ow l f.a.toNat).toNat) st) h rfl

theorem fp32t_ok (f : LR) (op : Nat → Nat → Nat → Nat × FFlags) (h : Issues i s v r) :
    fp32t i f op s = .next (retire (s.ctx v r i) i.v1 i.sBit (laneEffF (s.ctx v r i) f 1
      (fun l => op (readLane (s.ctx v r i) f.ow l f.a.toNat).toNat (readLane (s.ctx v r i) f.ow l f.b.toNat).toNat
        (readLane (s.ctx v r i) f.ow l (f.x.toNat % 64)).toNat) s)) :=
  issue_ok (body := fun c st => laneOutF c f 1 (fun l => op (readLane c f.ow l f.a.toNat).toNat (readLane c f.ow l f.b.toNat).toNat
    (readLane c f.ow l (f.x.toNat % 64)).toNat) st) h rfl

theorem fp64_ok (f : LR) (op : Nat → Nat → Nat × FFlags) (h : Issues i s v r) :
    fp64 i f op s = .next (retire (s.ctx v r i) i.v1 i.sBit (laneEffF (s.ctx v r i) f 2
      (fun l => op (readF64 (s.ctx v r i) f.ow l f.a.toNat).toNat (readF64 (s.ctx v r i) f.ow l f.b.toNat).toNat) s)) :=
  issue_ok (body := fun c st => laneOutF c f 2 (fun l => op (readF64 c f.ow l f.a.toNat).toNat (readF64 c f.ow l f.b.toNat).toNat) st) h rfl

/-- A uniform operation on A and B writes D. -/
theorem uni_ok (f : GR) (op : W64 → W64 → W64) (h : Issues i s v r) :
    uni i f op s = .next (retire (s.ctx v r i) i.v1 i.sBit
      { s := s, writes := [{ loc := .s f.d.toNat, val := op (readA (s.ctx v r i) f) (readB (s.ctx v r i) f) }] }) :=
  issue_ok (body := fun c st => uniOut f (op (readA c f) (readB c f)) st) h rfl

/-- A conditional branch goes to its target where the test holds. -/
theorem condBranch_ok (f : GC) (test : W64 → Bool) (h : Issues i s v r) :
    condBranch i f test s = .next (retire (s.ctx v r i) i.v1 i.sBit
      { s := s, goto := if test (v.sreg f.a.toNat) then some (branchTarget (s.ctx v r i) f.off.toNat 15) else none }) :=
  issue_ok (body := fun c st => .ok { s := st, goto := if test (c.v.sreg f.a.toNat) then some (branchTarget c f.off.toNat 15) else none }) h rfl

end Sys2Proof.Machine
end

