-- ==== Sys2Proof/Laws/Memory.lean ====
section
/-!
SUPPORT. Sys2Proof/Laws/Memory.lean: the memory list: a read after a write, and the canonical form kept by every operation on it.
-/

namespace Sys2Proof.Machine

theorem memRead_memWrite (m : List Host.Cell) (lo : Option Nat) (k n : Nat) (b : Byte) (h : memWfFrom lo m = true) :
    memRead (memWrite m k b) n = if n = k then b else memRead m n := by
  induction m generalizing lo with
  | nil =>
    by_cases hb : b = memDefault
    · simp [memWrite, hb, memRead]
    · by_cases hn : n = k
      · subst hn; simp [memWrite, hb, memRead]
      · simp [memWrite, hb, memRead, hn, Ne.symm hn]
  | cons e t ih =>
    obtain ⟨q, c⟩ := e
    have ht : memWfFrom (some q) t = true := by simp [memWfFrom] at h; exact h.2
    have above : ∀ (l : List Host.Cell) (q0 : Nat), memWfFrom (some q0) l = true → ∀ x, x ≤ q0 → memRead l x = memDefault := by
      intro l
      induction l with
      | nil => intros; rfl
      | cons e l ihl =>
        obtain ⟨p, d⟩ := e
        intro q0 hw x hx
        simp [memWfFrom] at hw
        have hp : p ≠ x := by omega
        simp [memRead, hp, ihl p hw.2 x (by omega)]
    by_cases h1 : k < q
    · by_cases hb : b = memDefault
      · by_cases hn : n = k
        · subst hn
          have h2 : q ≠ n := by omega
          simp [memWrite, h1, hb, memRead, h2, above t q ht n (by omega)]
        · simp [memWrite, h1, hb, hn]
      · by_cases hn : n = k
        · subst hn; simp [memWrite, h1, hb, memRead]
        · simp [memWrite, h1, hb, memRead, hn, Ne.symm hn]
    · by_cases h2 : k = q
      · subst h2
        by_cases hb : b = memDefault
        · by_cases hn : n = k
          · subst hn; simp [memWrite, hb, above t n ht n (by omega)]
          · simp [memWrite, hb, memRead, hn, Ne.symm hn]
        · by_cases hn : n = k
          · subst hn; simp [memWrite, hb, memRead]
          · simp [memWrite, hb, memRead, hn, Ne.symm hn]
      · by_cases hq : q = n
        · subst hq
          have : q ≠ k := Ne.symm h2
          simp [memWrite, h1, h2, memRead, this]
        · simp [memWrite, h1, h2, memRead, hq, ih _ ht]

theorem memWfFrom_memWrite (m : List Host.Cell) (lo : Option Nat) (k : Nat) (b : Byte) (h : memWfFrom lo m = true)
    (hk : ∀ n, lo = some n → n < k) : memWfFrom lo (memWrite m k b) = true := by
  induction m generalizing lo with
  | nil =>
    by_cases hb : b = memDefault
    · simp [memWrite, hb, memWfFrom]
    · cases lo with
      | none => simp [memWrite, hb, memWfFrom]
      | some n => simp [memWrite, hb, memWfFrom, hk n rfl]
  | cons e t ih =>
    obtain ⟨q, c⟩ := e
    have weaken : ∀ (l : List Host.Cell) (x y : Nat), x ≤ y → memWfFrom (some y) l = true → memWfFrom (some x) l = true := by
      intro l x y hxy hw
      cases l with
      | nil => rfl
      | cons e l => obtain ⟨p, d⟩ := e; simp [memWfFrom] at hw ⊢; exact ⟨⟨by omega, hw.1.2⟩, hw.2⟩
    have ht : memWfFrom (some q) t = true := by simp [memWfFrom] at h; exact h.2
    have hc : (c != memDefault) = true := by simp [memWfFrom] at h ⊢; exact h.1.2
    by_cases h1 : k < q
    · by_cases hb : b = memDefault
      · simp only [memWrite, h1, hb, if_true]; exact h
      · cases lo with
        | none => simp [memWrite, h1, hb, memWfFrom, ht]; simpa using hc
        | some n => simp [memWrite, h1, hb, memWfFrom, ht, hk n rfl]; simpa using hc
    · by_cases h2 : k = q
      · subst h2
        by_cases hb : b = memDefault
        · simp only [memWrite, Nat.lt_irrefl, if_false, hb, if_true]
          cases lo with
          | none =>
            cases t with
            | nil => rfl
            | cons e l => obtain ⟨p, d⟩ := e; simp [memWfFrom] at ht ⊢; exact ⟨ht.1.2, ht.2⟩
          | some n => exact weaken t n k (by have := hk n rfl; omega) ht
        · cases lo with
          | none => simp [memWrite, hb, memWfFrom, ht]
          | some n => simp [memWrite, hb, memWfFrom, ht, hk n rfl]
      · have hqk : q < k := by omega
        have hrec := ih (some q) ht (fun n hn => by cases hn; exact hqk)
        cases lo with
        | none => simp [memWrite, h1, h2, memWfFrom, hrec]; simpa using hc
        | some n =>
          have hn : n < q := by simp [memWfFrom] at h; exact h.1.1
          simp [memWrite, h1, h2, memWfFrom, hrec, hn]; simpa using hc

/-- A write keeps the canonical form. -/
theorem memWrite_wf (m : List Host.Cell) (k : Nat) (b : Byte) (h : Memory.wf m = true) : Memory.wf (memWrite m k b) = true :=
  memWfFrom_memWrite m none k b h (fun _ hn => nomatch hn)

/-- A write of several bytes keeps the canonical form. -/
theorem memWriteBytes_wf (m : List Host.Cell) (k : Nat) (l : List Byte) (h : Memory.wf m = true) :
    Memory.wf (memWriteBytes m k l) = true := by
  induction l generalizing m k with
  | nil => exact h
  | cons b t ih => exact ih _ _ (memWrite_wf m k b h)

/-- A byte reads as it was last written; every other byte reads as before. -/
theorem memRead_write (m : List Host.Cell) (k n : Nat) (b : Byte) (h : Memory.wf m = true) :
    memRead (memWrite m k b) n = if n = k then b else memRead m n := memRead_memWrite m none k n b h

/-- The bytes of a write of several, and every other byte. -/
theorem memRead_writeBytes (m : List Host.Cell) (k n : Nat) (l : List Byte) (h : Memory.wf m = true) :
    memRead (memWriteBytes m k l) n = if k ≤ n ∧ n < k + l.length then l.getD (n - k) 0 else memRead m n := by
  induction l generalizing m k with
  | nil =>
    have : ¬(k ≤ n ∧ n < k + ([] : List Byte).length) := by simp only [List.length_nil]; omega
    rw [if_neg this]; rfl
  | cons b t ih =>
    rw [memWriteBytes, ih _ _ (memWrite_wf m k b h), memRead_write m k n b h]
    by_cases h1 : n = k
    · subst h1
      have h2 : ¬(n + 1 ≤ n ∧ n < n + 1 + t.length) := by omega
      rw [if_neg h2]; simp
    · by_cases h2 : k + 1 ≤ n ∧ n < k + 1 + t.length
      · have h3 : k ≤ n ∧ n < k + (t.length + 1) := by omega
        have h4 : n - k = (n - (k + 1)) + 1 := by omega
        simp [h2, h3, h4, List.getD]
      · have h3 : ¬(k ≤ n ∧ n < k + (t.length + 1)) := by omega
        simp only [h1, if_false]
        rw [if_neg h2, if_neg (by simpa using h3)]

/-- One byte of the state, after one byte is written. -/
theorem State.rd8_wr8 (s : State) (k n : Nat) (b : Byte) (h : Memory.wf s.mem = true) :
    (s.wr8 k b).rd8 n = if n = k then b else s.rd8 n := memRead_write s.mem k n b h

theorem State.wr8_wf (s : State) (k : Nat) (b : Byte) (h : Memory.wf s.mem = true) : Memory.wf (s.wr8 k b).mem = true :=
  memWrite_wf s.mem k b h

theorem State.wrN_wf (s : State) (k n v : Nat) (h : Memory.wf s.mem = true) : Memory.wf (s.wrN k n v).mem = true :=
  memWriteBytes_wf s.mem k _ h

theorem bytesOf_length (v n : Nat) : (bytesOf v n).length = n := by
  induction n generalizing v with
  | zero => rfl
  | succ n ih => simp [bytesOf, ih]

/-- One byte of the state, after n bytes are written. -/
theorem State.rd8_wrN (s : State) (k n v x : Nat) (h : Memory.wf s.mem = true) :
    (s.wrN k n v).rd8 x = if k ≤ x ∧ x < k + n then (bytesOf v n).getD (x - k) 0 else s.rd8 x := by
  have := memRead_writeBytes s.mem k x (bytesOf v n) h
  rw [bytesOf_length] at this
  exact this

end Sys2Proof.Machine
end

