-- ==== Sys2Proof/Laws/PerInstr.lean ====
section
/-!
SUPPORT. Sys2Proof/Laws/PerInstr.lean: the family Words, one lemma per instruction: an instruction with an encoding has one to three words, the
first of which holds its opcode, its S bit and its V field (R45, R53); an event has none.
-/

namespace Sys2Proof.Laws.Words

/-- The words of an instruction. -/
def Statement (i : Instr) : Prop :=
  (i.encodable = true → 1 ≤ (encode i).length ∧ (encode i).length ≤ 3 ∧ wordS ((encode i).getD 0 0#32) = i.sBit
    ∧ wordV ((encode i).getD 0 0#32) = i.v1.toNat) ∧
  (i.encodable = false → encode i = [])

theorem lr (i : Instr) (op : Nat) (f : LR) (h : op < 128) (e : i.raw = .lr op f) : Statement i := by
  have e0 : (encode i).getD 0 0#32 = f.pack op := by simp [encode, e, Raw.words]
  have e1 : i.sBit = f.s := by simp [Instr.sBit, e]
  have e2 : i.v1 = f.v1 := by simp [Instr.v1, e]
  refine ⟨fun _ => ⟨?_, ?_, ?_, ?_⟩, fun hn => ?_⟩
  · simp [encode, e, Raw.words]
  · simp only [encode, e, Raw.words]; split <;> split <;> simp
  · rw [e0, e1, LR.pack_s f op h]
  · rw [e0, e2, LR.pack_v f op h]
  · simp [Instr.encodable, e] at hn

theorem gr (i : Instr) (op : Nat) (f : GR) (h : op < 128) (e : i.raw = .gr op f) : Statement i := by
  have e0 : (encode i).getD 0 0#32 = f.pack op := by simp [encode, e, Raw.words]
  have e1 : i.sBit = f.s := by simp [Instr.sBit, e]
  have e2 : i.v1 = f.v1 := by simp [Instr.v1, e]
  refine ⟨fun _ => ⟨?_, ?_, ?_, ?_⟩, fun hn => ?_⟩
  · simp [encode, e, Raw.words]
  · simp only [encode, e, Raw.words]; split <;> split <;> simp
  · rw [e0, e1, GR.pack_s f op h]
  · rw [e0, e2, GR.pack_v f op h]
  · simp [Instr.encodable, e] at hn

theorem lb_ (i : Instr) (op : Nat) (f : LB) (h : op < 128) (e : i.raw = .lb op f) : Statement i := by
  have e0 : encode i = [f.pack op] := by simp [encode, e, Raw.words]
  have e1 : i.sBit = f.s := by simp [Instr.sBit, e]
  have e2 : i.v1 = f.v1 := by simp [Instr.v1, e]
  have o : f.off.toNat < 2 ^ 18 := f.off.isLt
  have g := f.g.isLt
  have hs := toNat_le_one f.s
  have hv := toNat_le_one f.v1
  have e30 : fieldN (f.pack op) 30 1 = f.s.toNat := by simp only [fieldN, LB.pack_toNat f op h, headN]; omega
  refine ⟨fun _ => ⟨?_, ?_, ?_, ?_⟩, fun hn => ?_⟩
  · simp [e0]
  · simp [e0]
  · rw [e0, e1, List.getD_cons_zero, wordS, e30, beq_one_toNat]
  · rw [e0, e2, List.getD_cons_zero, LB.pack_v f op h]
  · simp [Instr.encodable, e] at hn

theorem gj_ (i : Instr) (op : Nat) (f : GJ) (h : op < 128) (e : i.raw = .gj op f) : Statement i := by
  have e0 : encode i = [f.pack op] := by simp [encode, e, Raw.words]
  have e1 : i.sBit = f.s := by simp [Instr.sBit, e]
  have e2 : i.v1 = f.v1 := by simp [Instr.v1, e]
  have o := f.off.isLt
  have hs := toNat_le_one f.s
  have hv := toNat_le_one f.v1
  have e30 : fieldN (f.pack op) 30 1 = f.s.toNat := by simp only [fieldN, GJ.pack_toNat f op h, headN]; omega
  refine ⟨fun _ => ⟨?_, ?_, ?_, ?_⟩, fun hn => ?_⟩
  · simp [e0]
  · simp [e0]
  · rw [e0, e1, List.getD_cons_zero, wordS, e30, beq_one_toNat]
  · rw [e0, e2, List.getD_cons_zero, GJ.pack_v f op h]
  · simp [Instr.encodable, e] at hn

theorem gc_ (i : Instr) (op : Nat) (f : GC) (h : op < 128) (e : i.raw = .gc op f) : Statement i := by
  have e0 : encode i = [f.pack op] := by simp [encode, e, Raw.words]
  have e1 : i.sBit = f.s := by simp [Instr.sBit, e]
  have e2 : i.v1 = f.v1 := by simp [Instr.v1, e]
  have o := f.off.isLt
  have a := f.a.isLt
  have hs := toNat_le_one f.s
  have hv := toNat_le_one f.v1
  have e30 : fieldN (f.pack op) 30 1 = f.s.toNat := by simp only [fieldN, GC.pack_toNat f op h, headN]; omega
  refine ⟨fun _ => ⟨?_, ?_, ?_, ?_⟩, fun hn => ?_⟩
  · simp [e0]
  · simp [e0]
  · rw [e0, e1, List.getD_cons_zero, wordS, e30, beq_one_toNat]
  · rw [e0, e2, List.getD_cons_zero, GC.pack_v f op h]
  · simp [Instr.encodable, e] at hn

theorem event_ (i : Instr) (e : i.raw = .event) : Statement i := by
  refine ⟨fun hn => ?_, fun _ => ?_⟩
  · simp [Instr.encodable, e] at hn
  · simp [encode, e, Raw.words]

theorem add (a_f : LR) : Statement (.add a_f) := lr _ _ a_f (by decide) rfl
theorem sub (a_f : LR) : Statement (.sub a_f) := lr _ _ a_f (by decide) rfl
theorem mulLo (a_f : LR) : Statement (.mulLo a_f) := lr _ _ a_f (by decide) rfl
theorem mulHiI32 (a_f : LR) : Statement (.mulHiI32 a_f) := lr _ _ a_f (by decide) rfl
theorem mulHiN32 (a_f : LR) : Statement (.mulHiN32 a_f) := lr _ _ a_f (by decide) rfl
theorem madLo (a_f : LR) : Statement (.madLo a_f) := lr _ _ a_f (by decide) rfl
theorem minI32 (a_f : LR) : Statement (.minI32 a_f) := lr _ _ a_f (by decide) rfl
theorem minN32 (a_f : LR) : Statement (.minN32 a_f) := lr _ _ a_f (by decide) rfl
theorem maxI32 (a_f : LR) : Statement (.maxI32 a_f) := lr _ _ a_f (by decide) rfl
theorem maxN32 (a_f : LR) : Statement (.maxN32 a_f) := lr _ _ a_f (by decide) rfl
theorem abs (a_f : LR) : Statement (.abs a_f) := lr _ _ a_f (by decide) rfl
theorem and (a_f : LR) : Statement (.and a_f) := lr _ _ a_f (by decide) rfl
theorem or (a_f : LR) : Statement (.or a_f) := lr _ _ a_f (by decide) rfl
theorem xor (a_f : LR) : Statement (.xor a_f) := lr _ _ a_f (by decide) rfl
theorem andn (a_f : LR) : Statement (.andn a_f) := lr _ _ a_f (by decide) rfl
theorem shl (a_f : LR) : Statement (.shl a_f) := lr _ _ a_f (by decide) rfl
theorem shr (a_f : LR) : Statement (.shr a_f) := lr _ _ a_f (by decide) rfl
theorem sra (a_f : LR) : Statement (.sra a_f) := lr _ _ a_f (by decide) rfl
theorem rot (a_f : LR) : Statement (.rot a_f) := lr _ _ a_f (by decide) rfl
theorem bfe (a_f : LR) : Statement (.bfe a_f) := lr _ _ a_f (by decide) rfl
theorem bfi (a_f : LR) : Statement (.bfi a_f) := lr _ _ a_f (by decide) rfl
theorem popc (a_f : LR) : Statement (.popc a_f) := lr _ _ a_f (by decide) rfl
theorem clz (a_f : LR) : Statement (.clz a_f) := lr _ _ a_f (by decide) rfl
theorem brev (a_f : LR) : Statement (.brev a_f) := lr _ _ a_f (by decide) rfl
theorem addI64 (a_f : LR) : Statement (.addI64 a_f) := lr _ _ a_f (by decide) rfl
theorem subI64 (a_f : LR) : Statement (.subI64 a_f) := lr _ _ a_f (by decide) rfl
theorem mulWideI32 (a_f : LR) : Statement (.mulWideI32 a_f) := lr _ _ a_f (by decide) rfl
theorem mulWideN32 (a_f : LR) : Statement (.mulWideN32 a_f) := lr _ _ a_f (by decide) rfl
theorem divI32 (a_f : LR) : Statement (.divI32 a_f) := lr _ _ a_f (by decide) rfl
theorem divN32 (a_f : LR) : Statement (.divN32 a_f) := lr _ _ a_f (by decide) rfl
theorem remI32 (a_f : LR) : Statement (.remI32 a_f) := lr _ _ a_f (by decide) rfl
theorem remN32 (a_f : LR) : Statement (.remN32 a_f) := lr _ _ a_f (by decide) rfl
theorem cmpI32 (a_f : LR) : Statement (.cmpI32 a_f) := lr _ _ a_f (by decide) rfl
theorem cmpN32 (a_f : LR) : Statement (.cmpN32 a_f) := lr _ _ a_f (by decide) rfl
theorem cmpF32 (a_f : LR) : Statement (.cmpF32 a_f) := lr _ _ a_f (by decide) rfl
theorem cmpF64 (a_f : LR) : Statement (.cmpF64 a_f) := lr _ _ a_f (by decide) rfl
theorem pr (a_f : LR) : Statement (.pr a_f) := lr _ _ a_f (by decide) rfl
theorem sel (a_f : LR) : Statement (.sel a_f) := lr _ _ a_f (by decide) rfl
theorem mov (a_f : LR) : Statement (.mov a_f) := lr _ _ a_f (by decide) rfl
theorem addF32 (a_f : LR) : Statement (.addF32 a_f) := lr _ _ a_f (by decide) rfl
theorem subF32 (a_f : LR) : Statement (.subF32 a_f) := lr _ _ a_f (by decide) rfl
theorem mulF32 (a_f : LR) : Statement (.mulF32 a_f) := lr _ _ a_f (by decide) rfl
theorem fmaF32 (a_f : LR) : Statement (.fmaF32 a_f) := lr _ _ a_f (by decide) rfl
theorem minF32 (a_f : LR) : Statement (.minF32 a_f) := lr _ _ a_f (by decide) rfl
theorem maxF32 (a_f : LR) : Statement (.maxF32 a_f) := lr _ _ a_f (by decide) rfl
theorem absF32 (a_f : LR) : Statement (.absF32 a_f) := lr _ _ a_f (by decide) rfl
theorem negF32 (a_f : LR) : Statement (.negF32 a_f) := lr _ _ a_f (by decide) rfl
theorem addF64 (a_f : LR) : Statement (.addF64 a_f) := lr _ _ a_f (by decide) rfl
theorem mulF64 (a_f : LR) : Statement (.mulF64 a_f) := lr _ _ a_f (by decide) rfl
theorem fmaF64 (a_f : LR) : Statement (.fmaF64 a_f) := lr _ _ a_f (by decide) rfl
theorem minF64 (a_f : LR) : Statement (.minF64 a_f) := lr _ _ a_f (by decide) rfl
theorem maxF64 (a_f : LR) : Statement (.maxF64 a_f) := lr _ _ a_f (by decide) rfl
theorem add2Bf16 (a_f : LR) : Statement (.add2Bf16 a_f) := lr _ _ a_f (by decide) rfl
theorem mul2Bf16 (a_f : LR) : Statement (.mul2Bf16 a_f) := lr _ _ a_f (by decide) rfl
theorem fma2Bf16 (a_f : LR) : Statement (.fma2Bf16 a_f) := lr _ _ a_f (by decide) rfl
theorem add2F16 (a_f : LR) : Statement (.add2F16 a_f) := lr _ _ a_f (by decide) rfl
theorem mul2F16 (a_f : LR) : Statement (.mul2F16 a_f) := lr _ _ a_f (by decide) rfl
theorem fma2F16 (a_f : LR) : Statement (.fma2F16 a_f) := lr _ _ a_f (by decide) rfl
theorem cvt (a_f : LR) : Statement (.cvt a_f) := lr _ _ a_f (by decide) rfl
theorem packP8 (a_f : LR) : Statement (.packP8 a_f) := lr _ _ a_f (by decide) rfl
theorem unpackP8 (a_f : LR) : Statement (.unpackP8 a_f) := lr _ _ a_f (by decide) rfl
theorem rcpF32 (a_f : LR) : Statement (.rcpF32 a_f) := lr _ _ a_f (by decide) rfl
theorem rsqF32 (a_f : LR) : Statement (.rsqF32 a_f) := lr _ _ a_f (by decide) rfl
theorem sqrtF32 (a_f : LR) : Statement (.sqrtF32 a_f) := lr _ _ a_f (by decide) rfl
theorem ex2F32 (a_f : LR) : Statement (.ex2F32 a_f) := lr _ _ a_f (by decide) rfl
theorem lg2F32 (a_f : LR) : Statement (.lg2F32 a_f) := lr _ _ a_f (by decide) rfl
theorem sinPiF32 (a_f : LR) : Statement (.sinPiF32 a_f) := lr _ _ a_f (by decide) rfl
theorem cosPiF32 (a_f : LR) : Statement (.cosPiF32 a_f) := lr _ _ a_f (by decide) rfl
theorem tanhF32 (a_f : LR) : Statement (.tanhF32 a_f) := lr _ _ a_f (by decide) rfl
theorem shflIdx (a_f : LR) : Statement (.shflIdx a_f) := lr _ _ a_f (by decide) rfl
theorem shflUp (a_f : LR) : Statement (.shflUp a_f) := lr _ _ a_f (by decide) rfl
theorem shflDown (a_f : LR) : Statement (.shflDown a_f) := lr _ _ a_f (by decide) rfl
theorem shflXor (a_f : LR) : Statement (.shflXor a_f) := lr _ _ a_f (by decide) rfl
theorem voteAny (a_f : LR) : Statement (.voteAny a_f) := lr _ _ a_f (by decide) rfl
theorem voteAll (a_f : LR) : Statement (.voteAll a_f) := lr _ _ a_f (by decide) rfl
theorem voteBallot (a_f : LR) : Statement (.voteBallot a_f) := lr _ _ a_f (by decide) rfl
theorem reduxAdd (a_f : LR) : Statement (.reduxAdd a_f) := lr _ _ a_f (by decide) rfl
theorem reduxMin (a_f : LR) : Statement (.reduxMin a_f) := lr _ _ a_f (by decide) rfl
theorem reduxMax (a_f : LR) : Statement (.reduxMax a_f) := lr _ _ a_f (by decide) rfl
theorem matchB32 (a_f : LR) : Statement (.matchB32 a_f) := lr _ _ a_f (by decide) rfl
theorem histAdd (a_f : LR) : Statement (.histAdd a_f) := lr _ _ a_f (by decide) rfl
theorem histMerge (a_f : LR) : Statement (.histMerge a_f) := lr _ _ a_f (by decide) rfl
theorem ld (a_f : LR) : Statement (.ld a_f) := lr _ _ a_f (by decide) rfl
theorem st (a_f : LR) : Statement (.st a_f) := lr _ _ a_f (by decide) rfl
theorem ldPoll (a_f : LR) : Statement (.ldPoll a_f) := lr _ _ a_f (by decide) rfl
theorem atom (a_f : LR) : Statement (.atom a_f) := lr _ _ a_f (by decide) rfl
theorem atomNr (a_f : LR) : Statement (.atomNr a_f) := lr _ _ a_f (by decide) rfl
theorem cas128 (a_f : LR) : Statement (.cas128 a_f) := lr _ _ a_f (by decide) rfl
theorem ldp (a_f : LR) : Statement (.ldp a_f) := lr _ _ a_f (by decide) rfl
theorem pf (a_f : LR) : Statement (.pf a_f) := lr _ _ a_f (by decide) rfl
theorem brp (a_f : LB) : Statement (.brp a_f) := lb_ _ _ a_f (by decide) rfl
theorem winAdv (a_f : LR) : Statement (.winAdv a_f) := lr _ _ a_f (by decide) rfl
theorem vget (a_f : LR) : Statement (.vget a_f) := lr _ _ a_f (by decide) rfl
theorem vset (a_f : LR) : Statement (.vset a_f) := lr _ _ a_f (by decide) rfl
theorem sAdd (a_f : GR) : Statement (.sAdd a_f) := gr _ _ a_f (by decide) rfl
theorem sSub (a_f : GR) : Statement (.sSub a_f) := gr _ _ a_f (by decide) rfl
theorem sMul (a_f : GR) : Statement (.sMul a_f) := gr _ _ a_f (by decide) rfl
theorem sAnd (a_f : GR) : Statement (.sAnd a_f) := gr _ _ a_f (by decide) rfl
theorem sOr (a_f : GR) : Statement (.sOr a_f) := gr _ _ a_f (by decide) rfl
theorem sXor (a_f : GR) : Statement (.sXor a_f) := gr _ _ a_f (by decide) rfl
theorem sShl (a_f : GR) : Statement (.sShl a_f) := gr _ _ a_f (by decide) rfl
theorem sShr (a_f : GR) : Statement (.sShr a_f) := gr _ _ a_f (by decide) rfl
theorem sSra (a_f : GR) : Statement (.sSra a_f) := gr _ _ a_f (by decide) rfl
theorem sMinI64 (a_f : GR) : Statement (.sMinI64 a_f) := gr _ _ a_f (by decide) rfl
theorem sMinN64 (a_f : GR) : Statement (.sMinN64 a_f) := gr _ _ a_f (by decide) rfl
theorem sMaxI64 (a_f : GR) : Statement (.sMaxI64 a_f) := gr _ _ a_f (by decide) rfl
theorem sMaxN64 (a_f : GR) : Statement (.sMaxN64 a_f) := gr _ _ a_f (by decide) rfl
theorem sMov (a_f : GR) : Statement (.sMov a_f) := gr _ _ a_f (by decide) rfl
theorem sCmpI64 (a_f : GR) : Statement (.sCmpI64 a_f) := gr _ _ a_f (by decide) rfl
theorem sCmpN64 (a_f : GR) : Statement (.sCmpN64 a_f) := gr _ _ a_f (by decide) rfl
theorem sSel (a_f : GR) : Statement (.sSel a_f) := gr _ _ a_f (by decide) rfl
theorem br (a_f : GJ) : Statement (.br a_f) := gj_ _ _ a_f (by decide) rfl
theorem bz (a_f : GC) : Statement (.bz a_f) := gc_ _ _ a_f (by decide) rfl
theorem bnz (a_f : GC) : Statement (.bnz a_f) := gc_ _ _ a_f (by decide) rfl
theorem bneg (a_f : GC) : Statement (.bneg a_f) := gc_ _ _ a_f (by decide) rfl
theorem call (a_f : GJ) : Statement (.call a_f) := gj_ _ _ a_f (by decide) rfl
theorem jmp (a_f : GR) : Statement (.jmp a_f) := gr _ _ a_f (by decide) rfl
theorem fibSpawn (a_f : GC) : Statement (.fibSpawn a_f) := gc_ _ _ a_f (by decide) rfl
theorem fibEnd (a_f : GR) : Statement (.fibEnd a_f) := gr _ _ a_f (by decide) rfl
theorem mkJoin (a_f : GR) : Statement (.mkJoin a_f) := gr _ _ a_f (by decide) rfl
theorem mkLeave (a_f : GR) : Statement (.mkLeave a_f) := gr _ _ a_f (by decide) rfl
theorem mkWait (a_f : GR) : Statement (.mkWait a_f) := gr _ _ a_f (by decide) rfl
theorem mkMovToMask (a_f : GR) : Statement (.mkMovToMask a_f) := gr _ _ a_f (by decide) rfl
theorem mkMovFromMask (a_f : GR) : Statement (.mkMovFromMask a_f) := gr _ _ a_f (by decide) rfl
theorem mkCur (a_f : GR) : Statement (.mkCur a_f) := gr _ _ a_f (by decide) rfl
theorem sld (a_f : GR) : Statement (.sld a_f) := gr _ _ a_f (by decide) rfl
theorem sst (a_f : GR) : Statement (.sst a_f) := gr _ _ a_f (by decide) rfl
theorem satom (a_f : GR) : Statement (.satom a_f) := gr _ _ a_f (by decide) rfl
theorem fenceRel (a_f : GR) : Statement (.fenceRel a_f) := gr _ _ a_f (by decide) rfl
theorem fenceAcq (a_f : GR) : Statement (.fenceAcq a_f) := gr _ _ a_f (by decide) rfl
theorem fenceAr (a_f : GR) : Statement (.fenceAr a_f) := gr _ _ a_f (by decide) rfl
theorem ecBind (a_f : GR) : Statement (.ecBind a_f) := gr _ _ a_f (by decide) rfl
theorem ecDrop (a_f : GR) : Statement (.ecDrop a_f) := gr _ _ a_f (by decide) rfl
theorem waitAddr (a_f : GR) : Statement (.waitAddr a_f) := gr _ _ a_f (by decide) rfl
theorem futInit (a_f : GR) : Statement (.futInit a_f) := gr _ _ a_f (by decide) rfl
theorem futRd (a_f : GR) : Statement (.futRd a_f) := gr _ _ a_f (by decide) rfl
theorem futWr (a_f : GR) : Statement (.futWr a_f) := gr _ _ a_f (by decide) rfl
theorem crewJoin (a_f : GR) : Statement (.crewJoin a_f) := gr _ _ a_f (by decide) rfl
theorem crewLeave (a_f : GR) : Statement (.crewLeave a_f) := gr _ _ a_f (by decide) rfl
theorem nbArrive (a_f : GR) : Statement (.nbArrive a_f) := gr _ _ a_f (by decide) rfl
theorem nbSync (a_f : GR) : Statement (.nbSync a_f) := gr _ _ a_f (by decide) rfl
theorem nbWait (a_f : GR) : Statement (.nbWait a_f) := gr _ _ a_f (by decide) rfl
theorem plCfg (a_f : GR) : Statement (.plCfg a_f) := gr _ _ a_f (by decide) rfl
theorem plJoin (a_f : GR) : Statement (.plJoin a_f) := gr _ _ a_f (by decide) rfl
theorem plJoinDrop (a_f : GR) : Statement (.plJoinDrop a_f) := gr _ _ a_f (by decide) rfl
theorem step (a_f : GR) : Statement (.step a_f) := gr _ _ a_f (by decide) rfl
theorem lkAcq (a_f : GR) : Statement (.lkAcq a_f) := gr _ _ a_f (by decide) rfl
theorem lkTry (a_f : GR) : Statement (.lkTry a_f) := gr _ _ a_f (by decide) rfl
theorem lkRel (a_f : GR) : Statement (.lkRel a_f) := gr _ _ a_f (by decide) rfl
theorem mxGang (a_f : GR) : Statement (.mxGang a_f) := gr _ _ a_f (by decide) rfl
theorem mxIssue (a_f : GR) : Statement (.mxIssue a_f) := gr _ _ a_f (by decide) rfl
theorem mxDrain (a_f : GR) : Statement (.mxDrain a_f) := gr _ _ a_f (by decide) rfl
theorem mxZero (a_f : GR) : Statement (.mxZero a_f) := gr _ _ a_f (by decide) rfl
theorem omClaim (a_f : GR) : Statement (.omClaim a_f) := gr _ _ a_f (by decide) rfl
theorem omRel (a_f : GR) : Statement (.omRel a_f) := gr _ _ a_f (by decide) rfl
theorem cpIssue (a_f : GR) : Statement (.cpIssue a_f) := gr _ _ a_f (by decide) rfl
theorem tokWait (a_f : GR) : Statement (.tokWait a_f) := gr _ _ a_f (by decide) rfl
theorem tokTest (a_f : GR) : Statement (.tokTest a_f) := gr _ _ a_f (by decide) rfl
theorem qBind (a_f : GR) : Statement (.qBind a_f) := gr _ _ a_f (by decide) rfl
theorem qPop (a_f : GR) : Statement (.qPop a_f) := gr _ _ a_f (by decide) rfl
theorem qFree (a_f : GR) : Statement (.qFree a_f) := gr _ _ a_f (by decide) rfl
theorem eqFence (a_f : GR) : Statement (.eqFence a_f) := gr _ _ a_f (by decide) rfl
theorem wvNew (a_f : GR) : Statement (.wvNew a_f) := gr _ _ a_f (by decide) rfl
theorem wvExit (a_f : GR) : Statement (.wvExit a_f) := gr _ _ a_f (by decide) rfl
theorem wvJoin (a_f : GR) : Statement (.wvJoin a_f) := gr _ _ a_f (by decide) rfl
theorem wvYield (a_f : GR) : Statement (.wvYield a_f) := gr _ _ a_f (by decide) rfl
theorem wvPrio (a_f : GR) : Statement (.wvPrio a_f) := gr _ _ a_f (by decide) rfl
theorem hDup (a_f : GR) : Statement (.hDup a_f) := gr _ _ a_f (by decide) rfl
theorem hClose (a_f : GR) : Statement (.hClose a_f) := gr _ _ a_f (by decide) rfl
theorem hInfo (a_f : GR) : Statement (.hInfo a_f) := gr _ _ a_f (by decide) rfl
theorem wsNew (a_f : GR) : Statement (.wsNew a_f) := gr _ _ a_f (by decide) rfl
theorem wsAdd (a_f : GR) : Statement (.wsAdd a_f) := gr _ _ a_f (by decide) rfl
theorem wsDel (a_f : GR) : Statement (.wsDel a_f) := gr _ _ a_f (by decide) rfl
theorem wsWait (a_f : GR) : Statement (.wsWait a_f) := gr _ _ a_f (by decide) rfl
theorem wsPoll (a_f : GR) : Statement (.wsPoll a_f) := gr _ _ a_f (by decide) rfl
theorem tmNew (a_f : GR) : Statement (.tmNew a_f) := gr _ _ a_f (by decide) rfl
theorem tmArm (a_f : GR) : Statement (.tmArm a_f) := gr _ _ a_f (by decide) rfl
theorem tmStop (a_f : GR) : Statement (.tmStop a_f) := gr _ _ a_f (by decide) rfl
theorem ptNew (a_f : GR) : Statement (.ptNew a_f) := gr _ _ a_f (by decide) rfl
theorem ptSend (a_f : GR) : Statement (.ptSend a_f) := gr _ _ a_f (by decide) rfl
theorem ptRecv (a_f : GR) : Statement (.ptRecv a_f) := gr _ _ a_f (by decide) rfl
theorem ptTry (a_f : GR) : Statement (.ptTry a_f) := gr _ _ a_f (by decide) rfl
theorem pgPull (a_f : GR) : Statement (.pgPull a_f) := gr _ _ a_f (by decide) rfl
theorem nmPub (a_f : GR) : Statement (.nmPub a_f) := gr _ _ a_f (by decide) rfl
theorem nmDrop (a_f : GR) : Statement (.nmDrop a_f) := gr _ _ a_f (by decide) rfl
theorem nmLook (a_f : GR) : Statement (.nmLook a_f) := gr _ _ a_f (by decide) rfl
theorem tqPush (a_f : GR) : Statement (.tqPush a_f) := gr _ _ a_f (by decide) rfl
theorem sysCall (a_f : GR) : Statement (.sysCall a_f) := gr _ _ a_f (by decide) rfl
theorem srRd (a_f : GR) : Statement (.srRd a_f) := gr _ _ a_f (by decide) rfl
theorem srWr (a_f : GR) : Statement (.srWr a_f) := gr _ _ a_f (by decide) rfl
theorem nop (a_f : GR) : Statement (.nop a_f) := gr _ _ a_f (by decide) rfl
theorem trap (a_f : GR) : Statement (.trap a_f) := gr _ _ a_f (by decide) rfl
theorem brk (a_f : GR) : Statement (.brk a_f) := gr _ _ a_f (by decide) rfl
theorem rfe (a_f : GR) : Statement (.rfe a_f) := gr _ _ a_f (by decide) rfl
theorem dbgRd (a_f : GR) : Statement (.dbgRd a_f) := gr _ _ a_f (by decide) rfl
theorem dbgWr (a_f : GR) : Statement (.dbgWr a_f) := gr _ _ a_f (by decide) rfl
theorem runStart (a_w : Nat) : Statement (.runStart a_w) := event_ _ rfl
theorem varResultReturn (a_w : Nat) (a_n : Nat) : Statement (.varResultReturn a_w a_n) := event_ _ rfl
theorem unassignedOpcode (a_w0 : W32) (a_w1 : W32) (a_w2 : W32) : Statement (.unassignedOpcode a_w0 a_w1 a_w2) := event_ _ rfl
theorem writeRefusalArrival (a_w : Nat) (a_run : Nat) (a_r : Refused) : Statement (.writeRefusalArrival a_w a_run a_r) := event_ _ rfl
theorem ldPollReread (a_w : Nat) (a_n : Nat) : Statement (.ldPollReread a_w a_n) := event_ _ rfl
theorem ackArrival (a_id : Nat) : Statement (.ackArrival a_id) := event_ _ rfl
theorem portMessageEnqueue (a_port : Nat) (a_gen : Nat) (a_msg : PortMsg) (a_ret : Option (Nat × Nat × Nat)) : Statement (.portMessageEnqueue a_port a_gen a_msg a_ret) := event_ _ rfl
theorem futureOpAtHome (a_w : Nat) (a_seq : Nat) (a_d : Nat) (a_op : FutOp) (a_key : Nat) (a_scope : Nat) (a_addr : Nat) (a_pc : BitVec 48) (a_word : W32) (a_x1 : W32) (a_x2 : W32) : Statement (.futureOpAtHome a_w a_seq a_d a_op a_key a_scope a_addr a_pc a_word a_x1 a_x2) := event_ _ rfl
theorem lockRequestAtHome (a_w : Nat) (a_seq : Nat) (a_d : Nat) (a_line : Nat) (a_try_ : Bool) (a_timeout : Nat) : Statement (.lockRequestAtHome a_w a_seq a_d a_line a_try_ a_timeout) := event_ _ rfl
theorem lockReleaseAtHome (a_w : Nat) (a_line : Nat) : Statement (.lockReleaseAtHome a_w a_line) := event_ _ rfl
theorem lockGrantArrival (a_w : Nat) (a_line : Nat) (a_status : Nat) : Statement (.lockGrantArrival a_w a_line a_status) := event_ _ rfl
theorem nonholderWriteAtHome (a_w : Nat) (a_key : Nat) (a_bytes : List Byte) : Statement (.nonholderWriteAtHome a_w a_key a_bytes) := event_ _ rfl
theorem nameOpAtAuthority (a_w : Nat) (a_seq : Nat) (a_d : Nat) (a_name : W64) (a_op : NameOp) : Statement (.nameOpAtAuthority a_w a_seq a_d a_name a_op) := event_ _ rfl
theorem nameCacheInvalidate (a_die : Nat) (a_name : W64) (a_tenant : Nat) : Statement (.nameCacheInvalidate a_die a_name a_tenant) := event_ _ rfl
theorem shootdownRequest (a_id : Nat) (a_die : Nat) : Statement (.shootdownRequest a_id a_die) := event_ _ rfl
theorem shootdownComplete (a_id : Nat) : Statement (.shootdownComplete a_id) := event_ _ rfl
theorem shadowSwapDone (a_crew : Nat) : Statement (.shadowSwapDone a_crew) := event_ _ rfl
theorem caveRestoreDone (a_crew : Nat) : Statement (.caveRestoreDone a_crew) := event_ _ rfl
theorem sampleRecordWrite (a_core : Nat) (a_rec_ : BitVec 512) : Statement (.sampleRecordWrite a_core a_rec_) := event_ _ rfl
theorem watchRemoteEntry (a_w : Nat) (a_index : Nat) (a_src : Nat) (a_lane : Nat) (a_addr : Nat) (a_kind : Nat) : Statement (.watchRemoteEntry a_w a_index a_src a_lane a_addr a_kind) := event_ _ rfl
theorem stopEffect (a_core : Nat) : Statement (.stopEffect a_core) := event_ _ rfl
theorem snapshotLatch (a_die : Nat) : Statement (.snapshotLatch a_die) := event_ _ rfl
theorem taskComplete (a_die : Nat) (a_kind : Nat) (a_ix : Nat) (a_node : Nat) (a_succ : Nat) (a_proc : Nat) (a_crew : Nat) : Statement (.taskComplete a_die a_kind a_ix a_node a_succ a_proc a_crew) := event_ _ rfl
theorem zeroLengthReadCompletion (a_w : Nat) (a_port : Nat) : Statement (.zeroLengthReadCompletion a_w a_port) := event_ _ rfl
theorem bisnpResponse (a_line : Nat) : Statement (.bisnpResponse a_line) := event_ _ rfl
theorem writeBack (a_die : Nat) (a_line : Nat) : Statement (.writeBack a_die a_line) := event_ _ rfl
theorem writeBackAck (a_die : Nat) (a_line : Nat) : Statement (.writeBackAck a_die a_line) := event_ _ rfl
theorem passBroadcast (a_src : Nat) (a_die : Nat) (a_pass : Bool) : Statement (.passBroadcast a_src a_die a_pass) := event_ _ rfl
theorem lapseBroadcast (a_src : Nat) (a_die : Nat) : Statement (.lapseBroadcast a_src a_die) := event_ _ rfl
theorem pgPullPageDone (a_w : Nat) : Statement (.pgPullPageDone a_w) := event_ _ rfl
theorem queueRecordTake (a_id : Nat) : Statement (.queueRecordTake a_id) := event_ _ rfl
theorem onReady (a_die : Nat) : Statement (.onReady a_die) := event_ _ rfl
theorem onSlotFree (a_die : Nat) : Statement (.onSlotFree a_die) := event_ _ rfl
theorem onPreemptRequest (a_die : Nat) (a_crew : Nat) (a_reason : Nat) : Statement (.onPreemptRequest a_die a_crew a_reason) := event_ _ rfl
theorem onBalance (a_die : Nat) : Statement (.onBalance a_die) := event_ _ rfl
theorem launchPortRecordLaunch (a_port : Nat) : Statement (.launchPortRecordLaunch a_port) := event_ _ rfl
theorem debugEntryBpc (a_w : Nat) : Statement (.debugEntryBpc a_w) := event_ _ rfl
theorem omClaimGrant (a_w : Nat) : Statement (.omClaimGrant a_w) := event_ _ rfl
theorem readForOwnership (a_die : Nat) (a_line : Nat) : Statement (.readForOwnership a_die a_line) := event_ _ rfl
theorem upgrade (a_die : Nat) (a_line : Nat) : Statement (.upgrade a_die a_line) := event_ _ rfl
theorem dieReset (a_die : Nat) : Statement (.dieReset a_die) := event_ _ rfl
theorem crewPlacement (a_core : Nat) : Statement (.crewPlacement a_core) := event_ _ rfl
theorem crewDeschedule (a_crew : Nat) : Statement (.crewDeschedule a_crew) := event_ _ rfl
theorem graphReplayStart (a_die : Nat) (a_g : Nat) : Statement (.graphReplayStart a_die a_g) := event_ _ rfl
theorem timerExpiry (a_id : Nat) : Statement (.timerExpiry a_id) := event_ _ rfl
theorem pageWalkComplete (a_core : Nat) (a_proc : Nat) (a_addr : Nat) : Statement (.pageWalkComplete a_core a_proc a_addr) := event_ _ rfl
theorem l1EarlyWriteback (a_core : Nat) (a_line : Nat) (a_evict : Bool) : Statement (.l1EarlyWriteback a_core a_line a_evict) := event_ _ rfl
theorem clusterWindowAccess (a_src : Nat) (a_core : Nat) (a_x : Nat) (a_bytes : List Byte) : Statement (.clusterWindowAccess a_src a_core a_x a_bytes) := event_ _ rfl
theorem routerAtomicArrival (a_key : Nat) (a_size : Nat) (a_op : Nat) (a_vals : List Nat) : Statement (.routerAtomicArrival a_key a_size a_op a_vals) := event_ _ rfl
theorem ackTimeout (a_id : Nat) : Statement (.ackTimeout a_id) := event_ _ rfl
theorem readShared (a_die : Nat) (a_line : Nat) : Statement (.readShared a_die a_line) := event_ _ rfl
theorem recallArrival (a_line : Nat) : Statement (.recallArrival a_line) := event_ _ rfl
theorem hostSnoop (a_die : Nat) (a_line : Nat) : Statement (.hostSnoop a_die a_line) := event_ _ rfl
theorem hostCxlMemRead (a_addr : Nat) (a_n : Nat) : Statement (.hostCxlMemRead a_addr a_n) := event_ _ rfl
theorem hostCxlMemWrite (a_addr : Nat) (a_bytes : List Byte) : Statement (.hostCxlMemWrite a_addr a_bytes) := event_ _ rfl
theorem hostBar2Read (a_port : Nat) (a_addr : Nat) (a_n : Nat) : Statement (.hostBar2Read a_port a_addr a_n) := event_ _ rfl
theorem hostBar2Write (a_port : Nat) (a_addr : Nat) (a_bytes : List Byte) : Statement (.hostBar2Write a_port a_addr a_bytes) := event_ _ rfl
theorem hostAtomicop (a_port : Nat) (a_addr : Nat) (a_op : Nat) (a_size : Nat) (a_b : Nat) (a_cmp : Nat) : Statement (.hostAtomicop a_port a_addr a_op a_size a_b a_cmp) := event_ _ rfl
theorem remotePageRead (a_node : Nat) (a_key : Nat) : Statement (.remotePageRead a_node a_key) := event_ _ rfl
theorem remotePageWrite (a_node : Nat) (a_key : Nat) (a_bytes : List Byte) : Statement (.remotePageWrite a_node a_key a_bytes) := event_ _ rfl
theorem remotePageAtomic (a_node : Nat) (a_key : Nat) (a_op : Nat) (a_size : Nat) (a_b : Nat) (a_cmp : Nat) : Statement (.remotePageAtomic a_node a_key a_op a_size a_b a_cmp) := event_ _ rfl
theorem pageInvalidate (a_node : Nat) (a_page : Nat) : Statement (.pageInvalidate a_node a_page) := event_ _ rfl
theorem pagePinWindowEnd (a_page : Nat) : Statement (.pagePinWindowEnd a_page) := event_ _ rfl
theorem pageInvalTimeout (a_node : Nat) (a_page : Nat) : Statement (.pageInvalTimeout a_node a_page) := event_ _ rfl
theorem lockTimeout (a_w : Nat) (a_line : Nat) : Statement (.lockTimeout a_w a_line) := event_ _ rfl
theorem wsWaitTimeout (a_w : Nat) : Statement (.wsWaitTimeout a_w) := event_ _ rfl
theorem starveAging (a_crew : Nat) : Statement (.starveAging a_crew) := event_ _ rfl
theorem mxOperationStart (a_core : Nat) : Statement (.mxOperationStart a_core) := event_ _ rfl
theorem mxOperationPerformed (a_core : Nat) : Statement (.mxOperationPerformed a_core) := event_ _ rfl
theorem mxZeroPerform (a_core : Nat) : Statement (.mxZeroPerform a_core) := event_ _ rfl
theorem drainStart (a_core : Nat) : Statement (.drainStart a_core) := event_ _ rfl
theorem drainPerformed (a_core : Nat) : Statement (.drainPerformed a_core) := event_ _ rfl
theorem copyCommandStart (a_core : Nat) (a_q : Nat) : Statement (.copyCommandStart a_core a_q) := event_ _ rfl
theorem copyCommandPerformed (a_core : Nat) (a_q : Nat) : Statement (.copyCommandPerformed a_core a_q) := event_ _ rfl
theorem copySignalWrite (a_core : Nat) (a_q : Nat) : Statement (.copySignalWrite a_core a_q) := event_ _ rfl
theorem place (a_die : Nat) (a_cand : Nat) (a_core : Nat) : Statement (.place a_die a_cand a_core) := event_ _ rfl
theorem migrate (a_die : Nat) (a_src : Nat) (a_dst : Nat) (a_count : Nat) : Statement (.migrate a_die a_src a_dst a_count) := event_ _ rfl
theorem preempt (a_die : Nat) (a_crew : Nat) (a_reason : Nat) : Statement (.preempt a_die a_crew a_reason) := event_ _ rfl
theorem preemptPartition (a_die : Nat) (a_cluster : Nat) (a_mask : Nat) : Statement (.preemptPartition a_die a_cluster a_mask) := event_ _ rfl
theorem distwdog (a_die : Nat) : Statement (.distwdog a_die) := event_ _ rfl
theorem distfault (a_die : Nat) (a_sub : Nat) (a_mepc : Nat) : Statement (.distfault a_die a_sub a_mepc) := event_ _ rfl
theorem microcodeInstall (a_die : Nat) (a_ok : Bool) (a_image : List Byte) : Statement (.microcodeInstall a_die a_ok a_image) := event_ _ rfl
theorem pnew (a_who : Nat) (a_die : Nat) (a_arg0 : W64) : Statement (.pnew a_who a_die a_arg0) := event_ _ rfl
theorem suspend (a_who : Nat) (a_die : Nat) (a_h : W64) : Statement (.suspend a_who a_die a_h) := event_ _ rfl
theorem resume (a_who : Nat) (a_die : Nat) (a_h : W64) : Statement (.resume a_who a_die a_h) := event_ _ rfl
theorem kill (a_who : Nat) (a_die : Nat) (a_h : W64) : Statement (.kill a_who a_die a_h) := event_ _ rfl
theorem shoot (a_who : Nat) (a_die : Nat) (a_asn : W64) (a_addr : W64) (a_pages : W64) (a_flags : W64) : Statement (.shoot a_who a_die a_asn a_addr a_pages a_flags) := event_ _ rfl
theorem readCmd (a_who : Nat) (a_die : Nat) (a_h : W64) (a_pa : W64) : Statement (.readCmd a_who a_die a_h a_pa) := event_ _ rfl
theorem pool (a_who : Nat) (a_die : Nat) (a_pa : W64) (a_n : W64) : Statement (.pool a_who a_die a_pa a_n) := event_ _ rfl
theorem orphan (a_who : Nat) (a_die : Nat) : Statement (.orphan a_who a_die) := event_ _ rfl
theorem unknownCommand (a_who : Nat) (a_die : Nat) (a_code : Nat) : Statement (.unknownCommand a_who a_die a_code) := event_ _ rfl
theorem gkick (a_who : Nat) (a_die : Nat) (a_v : W64) : Statement (.gkick a_who a_die a_v) := event_ _ rfl
theorem gload (a_who : Nat) (a_die : Nat) (a_v : W64) : Statement (.gload a_who a_die a_v) := event_ _ rfl
theorem tqreg (a_who : Nat) (a_die : Nat) (a_v : W64) : Statement (.tqreg a_who a_die a_v) := event_ _ rfl
theorem leaseTake (a_port : Nat) (a_term : Nat) : Statement (.leaseTake a_port a_term) := event_ _ rfl
theorem leaseTakeNoexp (a_port : Nat) : Statement (.leaseTakeNoexp a_port) := event_ _ rfl
theorem leaseRelease (a_port : Nat) : Statement (.leaseRelease a_port) := event_ _ rfl
theorem leaseExpiry (a_linkDown : Bool) : Statement (.leaseExpiry a_linkDown) := event_ _ rfl
theorem fmtwinWrite (a_who : Nat) (a_die : Nat) (a_off : Nat) (a_v : W64) : Statement (.fmtwinWrite a_who a_die a_off a_v) := event_ _ rfl
theorem plimitWrite (a_who : Nat) (a_die : Nat) (a_v : W64) : Statement (.plimitWrite a_who a_die a_v) := event_ _ rfl
theorem trlognWrite (a_who : Nat) (a_die : Nat) (a_v : W64) : Statement (.trlognWrite a_who a_die a_v) := event_ _ rfl
theorem dload (a_who : Nat) (a_die : Nat) (a_v : W64) : Statement (.dload a_who a_die a_v) := event_ _ rfl
theorem strokeWrite (a_who : Nat) (a_die : Nat) (a_v : W64) : Statement (.strokeWrite a_who a_die a_v) := event_ _ rfl
theorem heartbeatWrite (a_die : Nat) (a_src : Nat) (a_count : W32) : Statement (.heartbeatWrite a_die a_src a_count) := event_ _ rfl
theorem qreq (a_who : Nat) (a_die : Nat) : Statement (.qreq a_who a_die) := event_ _ rfl
theorem quoteComplete (a_die : Nat) (a_sig : List Byte) : Statement (.quoteComplete a_die a_sig) := event_ _ rfl
theorem contclr (a_who : Nat) (a_die : Nat) (a_v : W64) : Statement (.contclr a_who a_die a_v) := event_ _ rfl
theorem diereset (a_who : Nat) (a_die : Nat) (a_v : W64) : Statement (.diereset a_who a_die a_v) := event_ _ rfl
theorem sampctlWrite (a_who : Nat) (a_core : Nat) (a_v : W64) : Statement (.sampctlWrite a_who a_core a_v) := event_ _ rfl
theorem wdataAccess (a_who : Nat) (a_core : Nat) (a_write : Bool) (a_v : W64) : Statement (.wdataAccess a_who a_core a_write a_v) := event_ _ rfl
theorem stoprel (a_who : Nat) (a_core : Nat) : Statement (.stoprel a_who a_core) := event_ _ rfl
theorem dbgctlResume (a_who : Nat) (a_core : Nat) (a_v : W32) : Statement (.dbgctlResume a_who a_core a_v) := event_ _ rfl
theorem snapgo (a_who : Nat) (a_die : Nat) : Statement (.snapgo a_who a_die) := event_ _ rfl
theorem snapclr (a_who : Nat) (a_die : Nat) : Statement (.snapclr a_who a_die) := event_ _ rfl
theorem registerWrite (a_who : Nat) (a_die : Nat) (a_off : Nat) (a_v : W64) : Statement (.registerWrite a_who a_die a_off a_v) := event_ _ rfl
theorem entdaa (a_addr : Nat) : Statement (.entdaa a_addr) := event_ _ rfl
theorem snaptrig : Statement (.snaptrig) := event_ _ rfl
theorem quote (a_nonce : List Byte) : Statement (.quote a_nonce) := event_ _ rfl
theorem fundamentalReset (a_port : Nat) : Statement (.fundamentalReset a_port) := event_ _ rfl
theorem selfTestDone (a_die : Nat) (a_err : Nat) : Statement (.selfTestDone a_die a_err) := event_ _ rfl
theorem firmwareVerifyDone (a_die : Nat) (a_err : Nat) (a_body : List Byte) : Statement (.firmwareVerifyDone a_die a_err a_body) := event_ _ rfl
theorem electionTimeout (a_die : Nat) : Statement (.electionTimeout a_die) := event_ _ rfl
theorem heartbeatLapse (a_die : Nat) : Statement (.heartbeatLapse a_die) := event_ _ rfl
theorem powerStepChange (a_die : Nat) (a_step : Nat) : Statement (.powerStepChange a_die a_step) := event_ _ rfl
theorem hostLinkDown (a_port : Nat) : Statement (.hostLinkDown a_port) := event_ _ rfl
theorem scrubTick (a_die : Nat) (a_structure_ : Nat) (a_corrected : Bool) (a_addr : Nat) : Statement (.scrubTick a_die a_structure_ a_corrected a_addr) := event_ _ rfl
theorem rfpoison (a_w : Nat) (a_lane : Nat) (a_row : Nat) : Statement (.rfpoison a_w a_lane a_row) := event_ _ rfl
theorem sramue (a_die : Nat) (a_cluster : Nat) (a_structure_ : Nat) (a_bank : Nat) : Statement (.sramue a_die a_cluster a_structure_ a_bank) := event_ _ rfl
theorem lockstep (a_die : Nat) (a_sub : Nat) : Statement (.lockstep a_die a_sub) := event_ _ rfl
theorem linkdown (a_die : Nat) (a_link : Nat) : Statement (.linkdown a_die a_link) := event_ _ rfl
theorem meshEdgeFailure (a_die : Nat) (a_edge : Nat) : Statement (.meshEdgeFailure a_die a_edge) := event_ _ rfl
theorem hbmStackFailure (a_die : Nat) (a_stack : Nat) : Statement (.hbmStackFailure a_die a_stack) := event_ _ rfl
theorem systemCallReply (a_w : Nat) (a_value : W64) : Statement (.systemCallReply a_w a_value) := event_ _ rfl
theorem linkFailure (a_link : Nat) : Statement (.linkFailure a_link) := event_ _ rfl
theorem linkBroughtUp (a_link : Nat) (a_node : Nat) : Statement (.linkBroughtUp a_link a_node) := event_ _ rfl
theorem thermalPowerAlert : Statement (.thermalPowerAlert) := event_ _ rfl

end Sys2Proof.Laws.Words
end

