-- ==== Sys2Proof/Tests/Base.lean ====
section
/-!
SUPPORT. Sys2Proof/Tests/Base.lean: a small machine for the tests: wave 7 of crew 6 of process 5 on core 3 has the turn and a run at 0x1000 with
lanes 0, 1, 2 and nothing issued; page tables at 0x10000 map 0x5000 and 0x6000 (read, write, execute), 0x7000 (read), 0x8000 (not dirty), 0x9000
(at .sys) and 0xE000 (host memory); and the test of Issues.
-/

namespace Sys2Proof.Tests

open Sys2Proof.Machine

set_option Elab.async false

/-- Memory with the page tables. -/
def mem : List Host.Cell :=
  [(65536, 1), (65537, 16), (65538, 1), (69632, 1), (69633, 32), (69634, 1), (73728, 1), (73729, 48), (73730, 1),
   (77864, 63), (77866, 32), (77872, 63), (77873, 16), (77874, 32), (77880, 51), (77881, 32), (77882, 32), (77888, 15),
   (77889, 48), (77890, 32), (77896, 127), (77897, 64), (77898, 32), (77936, 63), (77937, 2), (77939, 128)]

def run : Run := { mask := 7, start := 0x1000, pc := 0x1000 }
/-- The wave: its fibres' windows begin at rows 0, 8 and 0; fibre 1 has the predicates 7, 5, 3, fibre 2 has 6, 4, 2. -/
def wave : Wave :=
  { proc := 5, crew := 6, member := 0, die := 0, width := 16, nvregs := 64, run := some run, priv := 64
    fibres := [(0, { pc := 0x1000, thread := 0 }), (1, { pc := 0x1000, thread := 1, preds := 0xAA, winBase := 8 }), (2, { pc := 0x1000, thread := 2, preds := 0x55 })] }
def crew : Crew := { proc := 5, core := 3, slot := 0, members := [(0, 7)], grans := 3, base := 2 }
def proc : Proc := { die := 0, trapbase := 0x9000, ptroot := 0x10, asn := 7 }
def mach : State := { mem := mem, waves := [(7, wave)], crews := [(6, crew)], procs := [(5, proc)], turn := 7 }

/-- The machine with another wave 7. -/
def on (v : Wave) : State := { mach with waves := [(7, v)] }
/-- The wave with given uniform registers, and given first registers of each lane. -/
def wS (l : List (Nat × Nat)) (v : Wave := wave) : Wave := { v with sregs := l.map (fun e => (e.1, BitVec.ofNat 64 e.2)) }
def wV (f : Nat → List (Nat × Nat)) (v : Wave := wave) : Wave :=
  { v with vregs := (List.range 3).map (fun l => (l, (f l).map (fun e => (v.winBase l + e.1, BitVec.ofNat 32 e.2)))) }

/-- Instructions of the two formats: the fields, the opcode word, the operand word. They end their run. -/
def lr (d a b : Nat) (x : Nat := 0) (ow : Nat := 0) (v1 : Bool := false) : LR :=
  { s := true, v1 := v1, g := 0, d := BitVec.ofNat 6 d, a := BitVec.ofNat 6 a, b := BitVec.ofNat 6 b, x := BitVec.ofNat 32 x, ow := BitVec.ofNat 32 ow }
def gr (d a b : Nat) (x : Nat := 0) (ow : Nat := 0) (v1 : Bool := false) : GR :=
  { s := true, v1 := v1, d := BitVec.ofNat 6 d, a := BitVec.ofNat 6 a, b := BitVec.ofNat 9 b, x := BitVec.ofNat 32 x, ow := BitVec.ofNat 32 ow }
/-- X-MEM (R54): offset, size, sign, scope, operation, window. -/
def xMem (off size : Nat) (sx scope op win : Nat := 0) : Nat := off % 65536 + size * 2 ^ 16 + sx * 2 ^ 19 + scope * 2 ^ 20 + op * 2 ^ 23 + win * 2 ^ 27

/-- Issues, computed. -/
def issuesB (i : Instr) (s : State) (v : Wave) (r : Run) : Bool :=
  decide (s.issuer = some (v, r)) && wellFormed i && (!i.v1 || r.issued == 0) && (i.v1 || decide (r.issued < 24)) &&
  (usesOf i.raw).all (fun u => (mkCtx s.turn v r i).act.all (fun l => !useOutside v u l && (usePoison v u l).isNone))

theorem issues_of {i : Instr} {s : State} {v : Wave} {r : Run} (h : issuesB i s v r = true) : Issues i s v r := by
  simp only [issuesB, Bool.and_eq_true, decide_eq_true_eq, Bool.or_eq_true, Bool.not_eq_true', beq_iff_eq, List.all_eq_true, Option.isNone_iff_eq_none] at h
  obtain ⟨⟨⟨⟨h1, h2⟩, h3⟩, h4⟩, h5⟩ := h
  simp only [wellFormed, Bool.and_eq_true, List.isEmpty_iff] at h2
  obtain ⟨⟨⟨a, b⟩, c⟩, d⟩ := h2
  refine ⟨h1, ⟨a, b, c, d⟩, fun e => ?_, fun e => ?_, fun u hu l hl => h5 u hu l hl⟩
  · rcases h3 with h3 | h3
    · rw [h3] at e; cases e
    · exact h3
  · rcases h4 with h4 | h4
    · rw [h4] at e; cases e
    · exact h4

/-- Every instruction of a list issues, by one evaluation. -/
theorem issues_all {l : List Instr} {s : State} {v : Wave} {r : Run} (h : l.all (fun i => issuesB i s v r) = true) : ∀ i ∈ l, Issues i s v r :=
  fun i hi => issues_of (List.all_eq_true.mp h i hi)

/-- The next state of an outcome satisfies p. -/
def nextIs (o : Host.Outcome State Fault Refusal) (p : State → Bool) : Bool := match o with | .next t => p t | _ => false

/-- What an instruction writes when it issues on wave 7: place and value of each pending write; a lane's row is lane * 256 + row, a temporary
10000 + lane * 8 + number, a predicate 20000 + lane * 8 + number, a uniform register 30000 + number, a mask 40000 + number, a frozen temporary 50000 + lane * 8 + number. -/
def place : Loc → Nat
  | .v l n => l * 256 + n
  | .t l n => 10000 + l * 8 + n
  | .p l n => 20000 + l * 8 + n
  | .s n => 30000 + n
  | .k n => 40000 + n
  | .f l n => 50000 + l * 8 + n
def writes (i : Instr) (s : State) : List (Nat × Nat) :=
  match exec i s with
  | .next t => (((t.wave? 7).bind (·.run)).map (fun r => r.pending.flatMap (fun x => x.writes.map (fun w => (place w.loc, w.val.toNat))))).getD []
  | _ => []
/-- The cause and SUB of the trap that an instruction takes on wave 7. -/
def traps (i : Instr) (s : State) : Option (Nat × Nat) :=
  match exec i s with
  | .next t => (t.wave? 7).bind (fun v => if v.inTrap then some (v.frame.cause.toNat, v.frame.sub.toNat) else none)
  | _ => none

end Sys2Proof.Tests
end

