-- ==== Sys2Proof/Tests/Control.lean ====
section
/-!
SUPPORT. Sys2Proof/Tests/Control.lean: the debug block, stops and snapshots, registers and who writes them, the lease, boot, heartbeat, measurement:
states that meet the hypotheses of the statements about them, and results computed by hand from spec/18_debug_and_profiling.md, spec/17_external_interfaces_and_bringup.md
and spec/23_memory_lock_plane_and_engine_faults.md.
-/

namespace Sys2Proof.Tests

open Sys2Proof.Machine

set_option Elab.async false

/-! ## Debug -/

def dbgV (a : Nat) (on_ : Bool) : Wave := { wS [(1, 0x123456789ABCDEF0), (3, a)] with dbg := if on_ then some { mask := 7, retPc := 0x1000, s60 := 0, s61 := 0, s62 := 0, s63 := 0 } else none }
def dbgS (v : Wave) : State := { on v with cores := [(3, { dreg := [(0, 1), (8, 0x1234), (0x29, 0x400000 + 3 * 2 ^ 52), (0x2A, 77)] })] }
/-- In debug mode and not; registers that no write changes and registers of one; their ends. -/
theorem witness_DebugBlock :
    (∀ a ∈ [0, 0x28, 0x39, 0xFF], ∀ b ∈ [true, false], ∀ i ∈ [Instr.dbgRd (gr 9 3 0), .dbgWr (gr 0 3 1)], Issues i (dbgS (dbgV a b)) (dbgV a b) run) ∧ ((dbgV 0 true).dbg.isSome = true ∧ (dbgV 0 false).dbg = none) ∧
    ((2 : Nat) ≠ 0x39 ∧ Spec.debugMask 2 = 0 ∧ Spec.debugMask 0x100 = 0 ∧ Spec.debugMask 1 ≠ 0 ∧ Spec.debugMask 0x38 ≠ 0) ∧ (0 < (dbgV 0 false).nvregs ∧ 63 < (dbgV 0 false).nvregs ∧ ((dbgV 0 false).fibre? 2).isSome = true) := by
  refine ⟨fun a ha b hb i hi => ?_, by decide, by decide, by decide⟩
  have h : [0, 0x28, 0x39, 0xFF].all (fun a => [true, false].all (fun b => [Instr.dbgRd (gr 9 3 0), .dbgWr (gr 0 3 1)].all (fun i => issuesB i (dbgS (dbgV a b)) (dbgV a b) run))) = true := by decide +kernel
  exact issues_all (List.all_eq_true.mp (List.all_eq_true.mp h a ha) b hb) i hi
/-- A selected wave and none; a service core may write, a host without the lease may not. -/
def stopS : State := { dbgS (dbgV 0 false) with waves := [(7, { dbgV 0 false with stopped := true })], cores := [(3, { dreg := [(0, 1), (0x38, 5 * 256)], stopped := true })] }
theorem witness_DebugBlock_outside : ((stopS.selected 3).any (fun e => e.1 == 7) = true ∧ (dbgS (dbgV 0 false)).selected 5 = none) ∧ stopS.mayWrite 2 (3 / 256) .h = true ∧ stopS.mayWrite 1 (3 / 256) .h = false ∧
    stopS.waves.any (fun e => e.2.stopped && stopS.coreOf e.2 == 3) = true := by decide +kernel
/-- R362, R363: DBGCTL keeps three bits, a breakpoint address 48 without bit 1; outside debug mode both instructions trap with MODE. -/
theorem test_debug : ((dbgS (dbgV 0 true)).writeDbg 3 0 0xFFFFFFFFFFFFFFFF).readDbg 3 0 = 7 ∧ ((dbgS (dbgV 0 true)).writeDbg 3 1 0xFFFFFFFFFFFFFFFF).readDbg 3 1 = BitVec.ofNat 64 (2 ^ 48 - 3) ∧
    writes (.dbgRd (gr 9 3 0)) (dbgS (dbgV 8 true)) = [(30009, 0x1234)] ∧ traps (.dbgRd (gr 9 3 0)) (dbgS (dbgV 8 false)) = some (6, 1) := by decide +kernel

/-- A stop of all crews and one of crew 6, on a core with a wave of each kind. -/
def stopQ (c : Option Nat) : State :=
  { dbgS (dbgV 0 false) with
    waves := [(7, dbgV 0 false), (9, { dbgV 0 false with crew := 8 }), (10, { dbgV 0 false with dead := true }), (11, dbgV 0 true)], crews := [(6, crew), (8, { crew with core := 20 })]
    cores := [(3, { dreg := [(0x29, 0x400000 + 3 * 2 ^ 52), (0x2A, 77)], stop := some { crew := c, base := [(7, 0)], limit := 3, here := true } })] }
theorem witness_StopsAndSnapshots_stop : [none, some 6].all (fun c => ((stopQ c).core 3).stop.any (fun q => q.crew == c) && ((stopQ c).core 20).stop.isNone && (stopQ c).isResident (dbgV 0 false) && (stopQ c).coreOf (dbgV 0 false) == 3) = true ∧ (Tab.keys (stopQ none).waves).Nodup := by decide +kernel
theorem witness_StopsAndSnapshots_sample :
    let s := stopQ none; let a := Spec.fld (s.dreg 3 0x29).toNat 6 46 * 64 % 2 ^ 48 + 64 * ((s.dreg 3 0x2A).toNat % 2 ^ (Spec.fld (s.dreg 3 0x29).toNat 52 5))
    Memory.wf s.mem = true ∧ a + 64 ≤ 2 ^ 40 ∧ (0x55AA#512).toNat / 2 ^ 288 % 2 ^ 64 = 0 ∧ (List.range 64).all (fun i => tracked (a + i) && (Tab.get? s.pages ((a + i) / 4096)).isNone && (s.dirOf ((a + i) / 128)).state != 2#2 && s.winAt (a + i) == none && keyDie (a + i) == 3 / 256) = true := by
  decide +kernel
def snapS (h : Bool) (m : Nat) : State := { dbgS (dbgV 0 false) with dies := [(0, { snap := { held := h, miss := m } })] }
theorem witness_StopsAndSnapshots_latch : ((snapS true 255).die 0).snap.held = true ∧ ((snapS false 0).die 0).snap.held = false ∧ (snapS true 4).mayWrite 2 0 .h = true ∧ (snapS true 4).mayWrite 0 0 .h = false := by decide
/-- R375: the 256th miss wraps, a latch holds the block; R374: the record's TAIL becomes 78. -/
theorem test_snapshots : nextIs (execSnapshotLatch 0 (snapS true 255)) (fun t => (t.die 0).snap.miss == 0) = true ∧ nextIs (execSnapshotLatch 0 (snapS false 3)) (fun t => (t.die 0).snap.held && (t.die 0).snap.miss == 3) = true ∧
    nextIs (execSnapclr 2 0 (snapS true 4)) (fun t => !(t.die 0).snap.held) = true := by decide +kernel

/-! ## Registers and the lease -/

def bootstat (st : Nat) (pass : Bool) (er : Nat := 0) : Nat × W64 := (8, BitVec.ofNat 64 (st + (if pass then 16 else 0) + er * 2 ^ 16))
def lease (valid : Bool) (holder : Nat) (noexp : Bool := false) (down : List Nat := []) : HostSide := { valid := valid, holder := holder, noexp := noexp, expiry := 1000, down := down, pendingVec := [3, 1] }
def leaseS (h : HostSide) (ticks : Nat := 500) : State := { mach with host := h, ticks := ticks, dies := [(0, { regs := [bootstat 4 true] }), (3, { regs := [bootstat 2 false] })] }
/-- A holder whose lease runs, one without PASS, one whose lease has run out. -/
theorem witness_Writers : (leaseS (lease true 1)).mayWrite 1 0 .h = true ∧ (leaseS (lease true 1)).mayWrite 1 3 .h = false ∧ (leaseS (lease true 1) 1000).mayWrite 1 0 .h = false ∧ (leaseS (lease true 1 true) 1000).mayWrite 1 0 .h = true ∧
    (leaseS (lease true 1)).mayWrite 0 0 .h = false ∧ (leaseS (lease true 1)).mayWrite 2 3 .h = true := by decide +kernel
/-- OVF written; a window whose format is legal with its bounds (FMT 0x24), and one whose bounds are not. -/
theorem witness_RegisterWrites : (0x10000#64).getLsbD 16 = true ∧ (0, 0xFF).1 < 256 ∧ fmtOk 0 (1 + 0x24 * 8 + 0x100000 * 2 ^ 64 + 0x200000 * 2 ^ 128) = true ∧ fmtOk 0 (1 + 0x24 * 8 + 0x200000 * 2 ^ 64 + 0x100000 * 2 ^ 128) = false ∧
    fmtOk 1 (1 + 0x24 * 8 + 0x100000 * 2 ^ 64 + 0x200000 * 2 ^ 128) = false ∧ fmtOk 7 (1 + 0x24 * 8 + (7 * 2 ^ 37) * 2 ^ 64 + (2 ^ 40 - 2 ^ 20) * 2 ^ 128) = true ∧
    fmtOk 7 (1 + 0x24 * 8 + (7 * 2 ^ 37) * 2 ^ 64 + 2 ^ 40 * 2 ^ 128) = false := by decide +kernel
/-- R344, R347, R348: TRLOGN is clamped to 4 and 20; PLIMIT to 1500; a 16-bit register keeps 16 bits; a refused window leaves ERR 0x31. -/
theorem test_registers : nextIs (execTrlognWrite 2 0 30 (leaseS {})) (fun t => t.reg 0 0x6008 == 20) = true ∧ nextIs (execTrlognWrite 2 0 0 (leaseS {})) (fun t => t.reg 0 0x6008 == 4) = true ∧
    nextIs (execPlimitWrite 2 0 5 (leaseS {})) (fun t => t.host.plimit == 1500) = true ∧ nextIs (execRegisterWrite 2 0 0x20 0x12345678 (leaseS {})) (fun t => t.reg 0 0x20 == 0x5678) = true ∧
    nextIs (execFmtwinWrite 2 0 0x5000 (1 + 0x24 * 8) (leaseS {})) (fun t => Spec.err t 0 == 0x31) = true ∧ nextIs (execTrlognWrite 1 0 30 (leaseS {})) (fun t => t.reg 0 0x6008 == 4) = true := by decide +kernel
/-- A free lease and a term of 65535; the other port's; the own; the other link down and up; a lease that has run out; one whose link is lost. -/
theorem witness_Lease :
    (Spec.pass (leaseS (lease false 0)) 0 = true ∧ (lease false 0).valid = false ∧ (leaseS (lease false 0)).tickOf 0 + 10000 * (65535 % 2 ^ 16) < 2 ^ 48) ∧ ((leaseS (lease true 1)).leased = true ∧ (lease true 1).holder ≠ 0) ∧
    (1 - 0 ∈ (lease false 0 false [1]).down ∧ 1 - 0 ∉ (lease false 0 false [0]).down) ∧ ((lease true 1).expiry ≤ (leaseS (lease true 1) 1000).tickOf 0) ∧ ((lease true 1 true [1]).noexp = true ∧ (lease true 1 true [1]).holder ∈ (lease true 1 true [1]).down) := by decide +kernel
/-- R350: a term of 2 at tick 500 ends at 20500, and the waiting vectors go to the new holder. -/
theorem test_lease : nextIs (execLeaseTake 1 2 (leaseS (lease false 0))) (fun t => t.host.expiry == 20500 && t.host.holder == 1 && t.host.raised == [(1, 3), (1, 1)]) = true ∧
    nextIs (execLeaseTake 0 2 (leaseS (lease true 1))) (fun t => t.host.holder == 1) = true ∧ nextIs (execLeaseExpiry false (leaseS (lease true 1) 1000)) (fun t => !t.host.valid) = true := by decide +kernel

/-! ## Boot, heartbeat, measurement -/

def bootS (x : Nat → Die) (ticks : Nat := 500) : State := { mach with ticks := ticks, dies := (List.range 8).map (fun k => (k, x k)) }
def booted (st : Nat) (pass : Bool) (stroke : Nat := 0) : Die := { regs := [bootstat st pass 5, (0x10, BitVec.ofNat 64 stroke)] }
/-- Stages 0, 1 and 2; a die whose election is open and one whose is closed; before the wait ends, and after it, for the lowest die that passed and for a higher one. -/
theorem witness_BootAndHeartbeat_boot :
    (Spec.stage (bootS (fun _ => booted 1 false)) 7 ≤ 1 ∧ Spec.stage (bootS (fun _ => booted 2 false)) 7 = 2 ∧ ((bootS (fun _ => booted 2 false)).die 7).elected = false ∧ ((bootS (fun _ => booted 2 false)).die 7).passes = [] ∧ ((bootS (fun _ => booted 2 false)).die 7).log.length < 256) ∧
    ((booted 2 true).passes.length < 7 ∧ ∀ e ∈ (booted 2 true).passes, e.1 ≠ 5) ∧ (bootS (fun _ => booted 3 true) 1999999).tickOf 7 < 2000000 ∧
    (let s := bootS (fun k => { booted 3 (k == 1 || k == 7) with passes := [(1, true), (0, false), (7, true)] }) 2000000
     (s.die 1).elected = false ∧ 2000000 ≤ s.tickOf 1 ∧ Spec.pass s 1 = true ∧ Spec.pass s 7 = true ∧ Spec.stage s 7 = 3 ∧ (∀ k < 8, (s.reg k 0x10).testBit 3 = false) ∧ (1, true) ∈ (s.die 1).passes ∧ (∀ e ∈ (s.die 1).passes, e.2 = true → 1 ≤ e.1) ∧ (1, true) ∈ (s.die 7).passes ∧
       ∀ e ∈ (s.die 7).passes, e.2 = true → 1 ≤ e.1) := by decide +kernel
def beatS (ls : List Nat) (lapse : Option Nat) (ticks : Nat) : State := bootS (fun k => { booted 3 true 11 with lapses := if k = 5 then ls else [], hbAt := 100, lapseAt := if k = 5 then lapse else none, lostDie := k == 6, regs := [bootstat 3 true 5, (0x10, 11), (0xC0028, 300000)] }) ticks
/-- The office is die 3's: a heartbeat of die 3 and of die 2; before the limit, and at it; the report of die 2 to die 5, before its lapse and as the last it waits for. -/
theorem witness_BootAndHeartbeat_beat :
    ((beatS [] none 500).reg 5 0x10 = 8 + 3 ∧ (beatS [] none 500).reg 5 0x10 ≠ 8 + 2 ∧ (beatS [] none 500).reg 5 0x18 % 2 ^ 32 ≠ (1#32).toNat) ∧ ((beatS [] none 300099).tickOf 5 < ((beatS [] none 300099).die 5).hbAt + (beatS [] none 300099).reg 5 0xC0028) ∧
    (((beatS [1] none 300100).die 5).hbAt + (beatS [1] none 300100).reg 5 0xC0028 ≤ (beatS [1] none 300100).tickOf 5 ∧ (∃ x < 8, x ≠ 3 ∧ x ≠ 5 ∧ ((beatS [1] none 300100).die x).lostDie = false ∧ x ∉ ((beatS [1] none 300100).die 5).lapses)) ∧
    (let s := beatS [0, 1, 4, 7] (some 77) 300200
     (s.die 5).lapseAt = some 77 ∧ (s.die 5).lostDie = false ∧ (∀ x < 8, x ≠ 3 → x ≠ 5 → (s.die x).lostDie = true ∨ x ∈ (s.die 5).lapses ∨ x = 2) ∧ (∀ k < 5, (s.die k).lapseAt = none) ∧ (s.die 3).lostDie = false) := by
  refine ⟨by decide +kernel, by decide +kernel, ⟨by decide +kernel, ⟨2, by decide, by decide, by decide, by decide, by decide⟩⟩, by decide +kernel⟩
/-- R353, R357: self-test failure 5 leaves stage 1 with ERR 5; the lowest die that passed takes the office; STROKE keeps four bits; the last report makes die 5 the stroke die. -/
theorem test_boot : nextIs (execSelfTestDone 7 5 (bootS (fun _ => booted 0 false))) (fun t => Spec.stage t 7 == 1 && Spec.err t 7 == 5) = true ∧
    nextIs (execElectionTimeout 1 (bootS (fun k => { booted 3 (k == 1 || k == 7) with passes := [(1, true), (0, false), (7, true)] }) 2000000)) (fun t => Spec.stage t 1 == 4 && t.reg 7 0x10 == 9) = true ∧
    nextIs (execStrokeWrite 2 5 0xFFF5 (bootS (fun _ => booted 3 true))) (fun t => t.reg 5 0x10 == 5) = true ∧ nextIs (execLapseBroadcast 2 5 (beatS [0, 1, 4, 7] (some 77) 300200)) (fun t => t.reg 5 0x10 == 13 && Spec.err t 3 == 0x20) = true := by decide +kernel
/-- An image asked for, accepted; refused, and with a full log; a quote asked for. -/
theorem witness_MeasurementAndSideband :
    (({ booted 3 true with dload := some 0x1000 } : Die).dload = some 0x1000 ∧ ({ booted 3 true with dload := some 0x1000 } : Die).log.length < 256) ∧ (256 ≤ ({ booted 3 true with log := List.replicate 256 [] } : Die).log.length) ∧ (booted 3 true).dload = none ∧
    (({ booted 3 true with qreq := true } : Die).qreq = true ∧ (booted 3 true).qreq = false ∧ (List.replicate 384 (7 : Byte)).length = 384 ∧ (List.replicate 32 (7 : Byte)).length = 32) := by decide +kernel
theorem test_measurement : nextIs (execMicrocodeInstall 1 false [5] (bootS (fun _ => { booted 3 true with dload := some 0x1000 }))) (fun t => t.reg 1 0x40008 == 0x25 && Spec.err t 1 == 0x30) = true ∧
    nextIs (execPowerStepChange 3 8 (bootS (fun _ => booted 3 true))) (fun t => (t.die 3).pstate == 0) = true := by decide +kernel

end Sys2Proof.Tests
end

