-- ==== Sys2Proof/Tests/Crews.lean ====
section
/-!
SUPPORT. Sys2Proof/Tests/Crews.lean: barriers, step regions, crew moves, handle slots and line locks: states that meet the hypotheses of the statements
about them, and results computed by hand from spec/11_crews_step_planes_line_locks.md.
-/

namespace Sys2Proof.Tests

open Sys2Proof.Machine

set_option Elab.async false

/-! ## Barriers and step regions -/

def crewV : Wave := wS [(1, 0), (2, 65536), (3, 65535), (4, 3), (5, 1 + 2 * 4 + 8 * 256 + 2 ^ 20), (6, 1), (7, 2), (8, 1 + 2 ^ 63), (9, 4)]
/-- The crew with a barrier and regions. -/
def crewS (b : Nat × Barrier) (rs : Tab Region := []) : State := { on crewV with crews := [(6, { crew with barriers := [b], regions := rs })] }
def crewC (s : State) : Ctx := s.ctx crewV run (.nbArrive (gr 15 0 1))
/-- A count of 0 and of 65536; the first arrival of 65535; the third of 3; an arrival with another count under way. -/
theorem witness_Barriers :
    (∀ i ∈ [1, 2, 3, 4].flatMap (fun b => [Instr.nbArrive (gr 15 0 b), .nbSync (gr 15 0 b)]) ++ [Instr.nbWait (gr 15 0 0)], Issues i (crewS (15, {})) crewV run ∧ Issues i (crewS (15, { expected := 3, arrived := 2, phase := 1 })) crewV run) ∧
    (crewS (15, {})).crew? crewV.crew = some { crew with barriers := [(15, {})] } ∧
    (let b : Barrier := {}; (Spec.uB (gr 15 0 1) (crewC (crewS (15, b))) = 0 ∧ 65535 < Spec.uB (gr 15 0 2) (crewC (crewS (15, b)))) ∧ (Spec.uB (gr 15 0 3) (crewC (crewS (15, b))) = 65535 ∧ b.arrived = 0 ∧ b.arrived + 1 ≠ 65535)) ∧
    (let b : Barrier := { expected := 3, arrived := 2, phase := 1 }; (Spec.uB (gr 15 0 4) (crewC (crewS (15, b))) = 3 ∧ b.expected = 3 ∧ b.arrived + 1 = 3) ∧ (0 < b.arrived ∧ b.expected ≠ Spec.uB (gr 15 0 3) (crewC (crewS (15, b))))) := by
  refine ⟨fun i hi => ?_, by decide +kernel⟩
  have h : ∀ s ∈ [crewS (15, {}), crewS (15, { expected := 3, arrived := 2, phase := 1 })],
      ([1, 2, 3, 4].flatMap (fun b => [Instr.nbArrive (gr 15 0 b), .nbSync (gr 15 0 b)]) ++ [Instr.nbWait (gr 15 0 0)]).all (fun i => issuesB i s crewV run) = true := by decide +kernel
  exact ⟨issues_all (h _ (by simp)) i hi, issues_all (h _ (by simp)) i hi⟩
/-- Nothing of the wave is on its way; a write of it that waits at a locked line, and wave 9 that has arrived. -/
def behindS : State := { crewS (15, { expected := 3, arrived := 2, arrset := [9, 7] }) with locks := [(0x4000, { holder := some 9, writes := [{ wave := 7, key := 0x200000, bytes := [1] }] })] }
theorem witness_Barriers_now : ((crewS (15, {})).writesDone 7 = true ∧ crewV.arriving = [] ∧ (Tab.keys (crewS (15, {})).waves).Nodup) ∧
    ((∀ i ∈ [Instr.nbArrive (gr 15 0 4), .nbSync (gr 15 0 4)], Issues i behindS crewV run) ∧ behindS.crew? crewV.crew ≠ none ∧ behindS.inflight = [] ∧ behindS.writesDone 7 = false ∧ behindS.wave? behindS.turn = some crewV) :=
  ⟨by decide +kernel, issues_all (by decide +kernel), by decide +kernel⟩
/-- R231: the barrier after an arrival of 65535, and after the third of 3: phase 0, none counted. -/
def barrierAfter (i : Instr) (b : Barrier) : Option Barrier := match exec i (crewS (15, b)) with | .next t => (t.crew? 6).bind (fun k => Tab.get? k.barriers 15) | _ => none
theorem test_barriers : barrierAfter (.nbArrive (gr 15 0 3)) {} = some { expected := 65535, arrived := 1, arrset := [7] } ∧
    barrierAfter (.nbSync (gr 15 0 4)) { expected := 3, arrived := 2, phase := 1 } = some { expected := 3, arrived := 0, phase := 0 } ∧
    traps (.nbArrive (gr 15 0 1)) (crewS (15, {})) = some (4, 7) := by decide +kernel

def reg (g : List Nat) : Region := { rule := 0, off := 1024, n := 128, group := g }
/-- pl.cfg of a region with a group (BUSY), with a reserved bit, of size 0 with and without a region, and of a new region; a region that is not there. -/
theorem witness_StepRegions :
    (∀ i ∈ [Instr.plCfg (gr 9 5 0), .plCfg (gr 9 6 0), .plCfg (gr 9 7 0), .plCfg (gr 9 8 0), .plJoin (gr 0 0 0x101), .plJoin (gr 0 0 0x103), .plJoinDrop (gr 0 0 0x105), .step (gr 0 0 0x101), .step (gr 0 0 0x103)],
      Issues i (crewS (0, {}) [(1, reg [7])]) crewV run ∧ Issues i (crewS (0, {}) [(1, reg [])]) crewV run) ∧
    (reg [7]).group ≠ [] ∧ plBad (crewS (0, {}) [(1, reg [])]) 6 { crew with barriers := [(0, {})], regions := [(1, reg [])] } (1 + 2 ^ 63) = true ∧
    plBad (crewS (0, {}) [(1, reg [])]) 6 { crew with barriers := [(0, {})], regions := [(1, reg [])] } (1 + 2 * 4 + 8 * 256 + 2 ^ 20) = false ∧
    (crewS (0, {}) [(1, reg [7])]).waves.all (fun e => e.2.held.isEmpty) = true ∧ Tab.get? [(1, reg [])] 2 = none ∧ Tab.get? [(1, reg [])] 3 = none ∧ 7 ∈ (reg [7]).group ∧ 7 ∉ (reg []).group := by
  refine ⟨fun i hi => ?_, by decide +kernel⟩
  have h : ∀ s ∈ [crewS (0, {}) [(1, reg [7])], crewS (0, {}) [(1, reg [])]], [Instr.plCfg (gr 9 5 0), .plCfg (gr 9 6 0), .plCfg (gr 9 7 0), .plCfg (gr 9 8 0), .plJoin (gr 0 0 0x101), .plJoin (gr 0 0 0x103), .plJoinDrop (gr 0 0 0x105),
      .step (gr 0 0 0x101), .step (gr 0 0 0x103)].all (fun i => issuesB i s crewV run) = true := by decide +kernel
  exact ⟨issues_all (h _ (by simp)) i hi, issues_all (h _ (by simp)) i hi⟩
def planes : Region := { reg [7] with next := [(0, 9), (2, 11)], tags := [(0, 3), (2, 4)] }
theorem witness_StepCommit : (Tab.keys planes.next).Nodup ∧ Tab.get? planes.next 2 = some 11 ∧ Tab.get? planes.next 1 = none := by decide +kernel
/-- R233, R234: a region with a group is BUSY, a reserved bit BADDESC, size 0 with no region EMPTY; R236: the commit moves word 2 of the region at byte 1024 to word 258. -/
theorem test_regions : writes (.plCfg (gr 9 5 0)) (crewS (0, {}) [(1, reg [7])]) = [(30009, 7)] ∧ writes (.plCfg (gr 9 8 0)) (crewS (0, {})) = [(30009, 0x25)] ∧ writes (.plCfg (gr 9 7 0)) (crewS (0, {})) = [(30009, 3)] ∧
    writes (.plCfg (gr 9 5 0)) (crewS (0, {})) = [(30009, 0)] ∧ Tab.get? ({ crew with scratch := [(258, 1), (257, 2)] }.commitRegion 1 planes).scratch 258 = some 11 ∧
    Tab.get? ({ crew with scratch := [(258, 1), (257, 2)] }.commitRegion 1 planes).scratch 257 = some 2 ∧ traps (.step (gr 0 0 0x103)) (crewS (0, {})) = some (4, 6) := by decide +kernel

/-! ## Handles and crew moves -/

/-- A process with handles: slot, object, kind, generation, rights, node. -/
def handles (l : List (Nat × Nat × Nat × Nat × Nat × Nat)) : Proc :=
  { proc with handles := l.map (fun (n, o, k, g, r, d) => (n, { handle := mkHandle d o k g, rights := BitVec.ofNat 8 r })) }
def slots : Proc := handles [(0, 8, 3, 2, 0xFF, 0), (1, 8, 3, 2, 0xFF, 0), (2, 6, 3, 0, 0xFF, 0), (3, 8, 3, 1, 0xFF, 0), (4, 8, 4, 2, 0xFF, 0), (5, 8, 3, 2, 0, 0), (6, 8, 3, 2, 0xFF, 1)]
/-- Crew 8 with n members beside crew 6. -/
def movesS (v : Wave) (n : Nat := 1) (p : Proc := slots) : State :=
  { on v with crews := [(6, crew), (8, { crew with slot := 1, base := 9, members := (List.range n).map (fun m => (m, 100 + m)) })], procs := [(5, p)], objs := [(6, { kind := 3 }), (8, { kind := 3, gen := 2 })] }
theorem witness_SlotChecks : (movesS wave).slot? 5 7 = none ∧ (movesS wave).slot? 5 0 ≠ none ∧ (movesS wave).slot? 5 1 = some { handle := mkHandle 0 8 3 2, rights := 0xFF } := by decide +kernel
def slotStatus (s : State) (n : Nat) : Nat := match s.checkSlot 5 n [3] 5 with | .ok _ => 0 | .error e => e
/-- R426: slot 0, the handle, a crew's own, a stale one, another kind, no right, another package, an empty slot. -/
theorem test_slots : (List.range 8).map (slotStatus (movesS wave)) = [3, 0, 0, 0x20, 0x25, 0x21, 0x25, 3] := by decide +kernel
def moveV : Wave := { wS [(0, 0), (1, 1), (2, 4097), (3, 3), (4, 0x80), (5, 0x7F)] with member := 31 }
/-- A table whose 4,095 slots are in use. -/
def fullProc : Proc := { proc with handles := (List.range 4095).map (fun n => (n + 1, { handle := mkHandle 0 9 2 2, rights := 0xFF })) }
theorem get_mem {α : Type} : ∀ (t : Tab α) (n : Nat), n ∈ t.map (·.1) → (Tab.get? t n).isSome = true
  | (k, a) :: t, n, h => by
    simp only [List.map_cons, List.mem_cons] at h
    by_cases hk : k = n
    · simp [Tab.get?, hk]
    · rw [Tab.get?, if_neg hk]; exact get_mem t n (by rcases h with h | h; exact absurd h.symm hk; exact h)
theorem lowest_none (p : Nat → Bool) : ∀ (k n : Nat), (∀ i, i < n → p (k + i) = false) → lowest k p n = none
  | _, 0, _ => rfl
  | k, n + 1, h => by
    rw [lowest, show p k = false from h 0 (by omega)]
    exact lowest_none p (k + 1) n (fun i hi => by rw [Nat.add_right_comm, Nat.add_assoc]; exact h (i + 1) (by omega))
theorem full_table (s : State) (h : s.proc? 5 = some fullProc) : s.emptySlot 5 = none := by
  unfold State.emptySlot
  rw [h]
  refine lowest_none _ 1 4095 (fun i hi => ?_)
  have : (Tab.get? fullProc.handles (1 + i)).isSome = true := get_mem _ _ (by
    simp only [fullProc, List.map_map, List.mem_map, List.mem_range]; exact ⟨i, hi, by simp [Nat.add_comm]⟩)
  simpa using this
theorem witness_CrewMoves :
    (∀ i ∈ [Instr.crewJoin (gr 9 1 4), .crewJoin (gr 9 0 5), .crewJoin (gr 9 2 5), .crewJoin (gr 9 3 5), .crewLeave (gr 0 0 0)], Issues i (movesS moveV) moveV run) ∧
    ((movesS moveV).wave? (movesS moveV).turn = some moveV ∧ (movesS moveV).crew? moveV.crew = some crew) ∧
    ((0x80).testBit 7 = true ∧ (0x7F).testBit 7 = false ∧ slotStatus (movesS moveV) (4097 % 4096) = 0 ∧ slotStatus (movesS moveV) 3 ≠ 0) ∧
    (((movesS moveV 32).crew? 8).any (fun k => decide (32 ≤ k.members.length)) = true ∧ 8 ≠ moveV.crew) ∧ (movesS moveV 1 fullProc).emptySlot moveV.proc = none :=
  ⟨issues_all (by decide +kernel), by decide +kernel, by decide +kernel, by decide +kernel, full_table _ rfl⟩
/-- R227: the report of member 31 at granule 2 of three: status 0, 31 in [12:8], 2 in [21:16], 3 in [29:23]. -/
theorem test_report : writes (.crewJoin (gr 9 1 4)) (movesS moveV) = [(30009, 31 * 256 + 2 * 2 ^ 16 + 3 * 2 ^ 23)] ∧ writes (.crewJoin (gr 9 3 5)) (movesS moveV) = [(30009, 0x20 + 31 * 256 + 2 * 2 ^ 16 + 3 * 2 ^ 23)] := by decide +kernel

/-! ## Locks -/

def lockV (a : Nat) (held : List Nat := []) (reqs : Nat := 0) : Wave := { wS [(0, a), (2, 100)] with heldLocks := held, lockReqs := reqs }
def lockIs (f : GR) (v : Wave) : Option Nat := match (lockLine ((on v).ctx v run (.lkAcq f)) f (on v)).1 with | .ok l => some l | _ => none
/-- The last byte of a line with three locks held, a fourth asked for; a release of a line held and not held; addresses outside. -/
theorem witness_LockInstructions :
    (∀ i ∈ [Instr.lkAcq (gr 9 0 2), .lkTry (gr 9 0 0), .lkRel (gr 0 0 0)], Issues i (on (lockV 0x507F [1, 2, 3])) (lockV 0x507F [1, 2, 3]) run ∧ Issues i (on (lockV 0x507F [1, 2, 0x4000] 1)) (lockV 0x507F [1, 2, 0x4000] 1) run) ∧
    lockIs (gr 9 0 2) (lockV 0x507F [1, 2, 3]) = some 0x4000 ∧ lockIs (gr 9 0 2) (lockV 0x507F [1, 2, 0x4000] 1) = some 0x4000 ∧
    (0x4000 ∈ (lockV 0x507F [1, 2, 0x4000] 1).heldLocks ∧ (on (lockV 0x507F [1, 2, 0x4000] 1)).lockIdents 5 0x4000 = [] ∧ 0x4000 ∉ (lockV 0x507F [1, 2, 3]).heldLocks) ∧
    (2 ^ 48 ≤ ((lockV (2 ^ 48)).sreg 0).toNat ∧ 0xFC0000000000 ≤ ((lockV (2 ^ 48 - 1)).sreg 0).toNat ∧ ((lockV (2 ^ 48 - 1)).sreg 0).toNat < 2 ^ 48 ∧ ((lockV 0xFBFFFFFFFFFF).sreg 0).toNat < 0xFC0000000000) := by
  refine ⟨fun i hi => ?_, by decide +kernel⟩
  have h : [lockV 0x507F [1, 2, 3], lockV 0x507F [1, 2, 0x4000] 1].all (fun v => [Instr.lkAcq (gr 9 0 2), .lkTry (gr 9 0 0), .lkRel (gr 0 0 0)].all (fun i => issuesB i (on v) v run)) = true := by decide +kernel
  have h' := List.all_eq_true.mp h
  exact ⟨issues_all (h' _ (by simp)) i hi, issues_all (h' _ (by simp)) i hi⟩
/-- lk.try of a line that is held, that the hand-off has not freed, that no entry names with room and without, and that a broken or a whole entry names. -/
def tryS (l : Tab Lock) : State := { on (lockV 0x507F) with locks := l }
def trySees (l : Tab Lock) (p : State → Bool) : Bool :=
  let r := lockLine ((tryS l).ctx (lockV 0x507F) run (.lkTry (gr 9 0 0))) (gr 9 0 0) (tryS l)
  issuesB (.lkTry (gr 9 0 0)) (tryS l) (lockV 0x507F) run && (match r.1 with | .ok n => n == 0x4000 | _ => false) && r.2.wave? 7 == some (lockV 0x507F) && p r.2
theorem witness_LockInstructions_try :
    trySees [(0x4000, { holder := some 9 })] (fun t => (Tab.get? t.locks 0x4000).any (·.holder.isSome)) = true ∧
    trySees [(0x4000, { holder := none, releasing := true })] (fun t => (Tab.get? t.locks 0x4000).any (·.releasing)) = true ∧
    trySees [(5, { holder := some 9 })] (fun t => (Tab.get? t.locks 0x4000).isNone && decide (t.lockLines (lineDie 0x4000) < 4096)) = true ∧
    trySees ((List.range 4096).map (fun n => (n, { holder := some 9 }))) (fun t => (Tab.get? t.locks 0x4000).isNone && decide (4096 ≤ t.lockLines (lineDie 0x4000))) = true ∧
    [false, true].all (fun b => trySees [(0x4000, { holder := none, broken := b })] (fun t => (Tab.get? t.locks 0x4000).any (fun l => l.holder.isNone && !l.releasing && l.broken == b))) = true ∧
    (lockV 0x507F).heldLocks.length + (lockV 0x507F).lockReqs < 4 := by decide +kernel
/-- A release with no write of the wave on its way. -/
theorem witness_LockInstructions_release :
    let v := lockV 0x507F [0x4000]; let t := ((on v).landWrites 7 (fun _ => true)).tagWrites 7 (2 ^ 64 + 0x4000)
    (lockIs (gr 9 0 2) v = some 0x4000 ∧ t.lockIdents 5 0x4000 = []) := by decide +kernel
theorem test_locks : traps (.lkAcq (gr 9 0 2)) (on (lockV 0x507F [1, 2, 3] 1)) = some (0x31, 0) ∧ traps (.lkRel (gr 0 0 0)) (on (lockV 0x507F)) = some (0x30, 0) ∧
    traps (.lkTry (gr 9 0 0)) (on (lockV (2 ^ 48))) = some (0x32, 1) := by decide +kernel

def askV : Wave := { wave with run := some { run with pending := [{ seq := 4, left := none, back := false, ready := false, writes := [] }] }, lkPending := [(0x4000, 4, 9)], lockReqs := 1 }
def waiting (line : Nat) : Wave := { wave with member := 1, run := none, wait := some (.lock line 2 3) }
/-- Wave 7 has asked for line 0x4000; wave 9 waits for another, wave 10 is suspended. -/
def homeS (l : Tab Lock) (line : Nat := 0x4000) : State := { mach with locks := l, waves := [(7, askV), (9, waiting line), (10, { waiting line with suspended := true })] }
def acks : State := { homeS [(0x4000, { holder := none, releasing := true })] with waves := [(7, { askV with ackcnt := 1 })], acks := [(3, { wave := 7, node := 0, die := 0, key := 0, atomic := false })] }
theorem witness_LocksAtHome :
    ((homeS []).wave? 7 = some askV ∧ askV.dead = false ∧ Tab.get? (homeS [(5, { holder := some 9 })]).locks 0x4000 = none ∧ (homeS [(5, { holder := some 9 })]).lockLines (lineDie 0x4000) < 4096) ∧
    (({ holder := none, broken := true } : Lock).holder = none) ∧ (({ holder := some 9 } : Lock).holder.isSome = true ∧ ({ holder := none, releasing := true } : Lock).releasing = true) ∧
    ((homeS [(0x4000, { holder := some 9 }), (77, { holder := some 7 })] 77).lockWaiters (lineDie 0x4000) < 16384 ∧ (homeS [(0x4000, { holder := some 9 }), (77, { holder := some 7 })] 77).cycleFrom 7 9 3 = true) ∧
    (homeS [(0x4000, { holder := some 9 }), (77, { holder := some 10 })] 77).cycleFrom 7 9 3 = false ∧
    ((homeS [(0x4000, { holder := none, releasing := true })]).acked 7 = true ∧ (homeS [(0x4000, { holder := none, releasing := true })]).tagged 7 (2 ^ 64 + 0x4000) = false ∧ (Tab.keys (homeS [(0x4000, { holder := none, releasing := true })]).locks).Nodup) ∧
    (Spec.nextHolder (homeS []) { holder := none, releasing := true, queue := [{ wave := 10, deadline := none }, { wave := 9, deadline := some 4 }] }).map (·.wave) = some 9 ∧
    acks.acked 7 = false ∧ (homeS []).cores = [] ∧ ((homeS []).lockIdents askV.proc 0x4000 = [] ∧ (askV.lkPending.find? (fun x => x.1 == 0x4000)) = some (0x4000, 4, 9) ∧ askV.wait = none) ∧
    ((homeS [(0x4000, { holder := some 9 })]).lockOf 0x20007F).isSome = true ∧ ((homeS [(0x4000, { holder := some 7 })]).lockOf 0x20007F).map (·.holder) = some (some 7) ∧
    (askV.arriving = [] ∧ (homeS []).crew? askV.crew = some crew ∧ crew.regions = []) ∧ ((homeS []).lockOf 0x20007F).isNone = true ∧ tracked 0x20007F = true ∧ Memory.wf (homeS []).mem = true := by decide +kernel
theorem witness_LocksAtHome_timeout :
    let l : Lock := { holder := some 10, queue := [{ wave := 9, deadline := some 50 }] }
    (l.queue.find? (fun q => q.wave == 9)).map (·.deadline) = some (some 50) ∧ (waiting 0x4000).wait = some (.lock 0x4000 2 3) ∧ 50 ≤ ({ homeS [(0x4000, l)] with ticks := 50 } : State).tickOf (lineDie 0x4000) ∧
    ({ homeS [(0x4000, l)] with ticks := 49 } : State).tickOf (lineDie 0x4000) < 50 := by decide +kernel

end Sys2Proof.Tests
end

