-- ==== Sys2Proof/Tests/Muhan.lean ====
section
/-!
SUPPORT. Sys2Proof/Tests/Muhan.lean: waves, handles, wait sets, timers, system calls, and what the hardware does for a wave by itself: states that meet
the hypotheses of the statements about them, and results computed by hand from spec/14_muhan_hardware_kernel.md.
-/

namespace Sys2Proof.Tests

open Sys2Proof.Machine

set_option Elab.async false

/-- Memory with a block of 64 bytes at 0x5000. -/
def block (n : Nat) : List Host.Cell := (bytesOf n 64).zipIdx.filterMap (fun e => if e.1 = 0 then none else some (0x200000 + e.2, e.1))
/-- A die whose tenant 0 may have priority 5 and 100 entries. -/
def die5 : Die := { regs := [(0x11000, BitVec.ofNat 64 (2 ^ 16 + 5 * 2 ^ 17 + 0xFFFF * 2 ^ 20 + 100 * 2 ^ 36))] }
/-- s2 names a slot or the block's address, s4 is a number. -/
def kerV (a b : Nat) : Wave := wS [(2, a), (4, b), (5, 4)]
/-- Objects: waves 9 (dead) and 10, port 20, timer 21, wait set 22. -/
def kerProc : Proc :=
  handles [(1, 22, 5, 0, 0xFF, 0), (2, 21, 6, 0, 0xFF, 0), (3, 20, 4, 0, 0xFF, 0), (4, 22, 5, 1, 0xFF, 0), (5, 22, 5, 0, 0, 0), (6, 22, 5, 0, 0xFF, 1), (7, 10, 2, 0, 0xFF, 0), (8, 9, 2, 2, 0xFF, 0), (9, 6, 3, 0, 0xFF, 0)]
def kerS (v : Wave) (p : Proc := kerProc) (n : Nat := 0) (ws : WaitSet := {}) (t : Timer := { armed := true, count := 3, deadline := 50, period := 7 }) (q : Nat := 0) : State :=
  { mach with
    mem := mem.filter (fun e => decide (e.1 < 2 ^ 40)) ++ block n
    procs := [(5, p)], dies := [(0, die5)], waves := [(7, v), (9, { wave with member := 1, run := none, dead := true }), (10, { wave with member := 2, run := none })]
    ports := [(20, { proc := 5, depth := 4, launch := false, queue := (List.range q).map (fun i => ({ inl := [], proc := 5 }, i)) })], timers := [(21, t)], wsets := [(22, ws)], futures := [(0x200100, [])]
    objs := [(5, { kind := 1 }), (6, { kind := 3, refs := 2 }), (7, { kind := 2 }), (9, { kind := 2, gen := 2, refs := 2 }), (10, { kind := 2, refs := 3 }), (20, { kind := 4, refs := 2 }), (21, { kind := 6, refs := 2 }), (22, { kind := 5, refs := 2 })] }
/-- The block that an instruction reads. -/
def blockAt (i : Instr) (s : State) (v : Wave) (a : W64) (strict : Bool) : Option (Nat × State) :=
  match s.readBlock (s.ctx v run i) a 64 64 strict with
  | (.ok n, s1) => some (n, s1)
  | _ => none

/-! ## Waves -/

/-- A store of wave 7 waits at a line that wave 9 has locked. -/
def heldWrite (s : State) : State := { s with locks := [(0x4100, { holder := some 9, writes := [{ wave := 7, key := 0x208000, bytes := [1] }] })] }
def desc (entry w nv priv susp : Nat) (x : Nat := 0) : Nat := entry + w * 2 ^ 48 + nv * 2 ^ 56 + 0x1234 * 2 ^ 64 + 3 * 2 ^ 140 + susp * 2 ^ 143 + 2 ^ 144 + priv * 2 ^ 208 + 0x111 * 2 ^ 224 + 0x222 * 2 ^ 256 + x
theorem witness_okDescriptor : Spec.okDescriptor (desc 0x6000 16 8 4096 0) ∧ Spec.okDescriptor (desc 0xFFFFFFFFFFFC 64 192 0 1) ∧ ¬ Spec.okDescriptor (desc 0x6001 16 64 0 0) ∧ ¬ Spec.okDescriptor (desc 0x6000 16 64 4097 0) ∧
    ¬ Spec.okDescriptor (desc 0x6000 16 64 0 0 (2 ^ 511)) := by unfold Spec.okDescriptor; decide +kernel
/-- wv.new with an accepted block of the widest wave, with one that is refused, with a full table, and with an unacknowledged write. -/
theorem witness_WaveInstructions_new :
    (let v := kerV 0x5000 0; let s := kerS v kerProc (desc 0x6000 64 192 4096 1)
     issuesB (.wvNew (gr 9 2 0)) s v run && s.relReady 7 && (blockAt (.wvNew (gr 9 2 0)) s v 0x5000 false).any (fun r => decide (r.1 = desc 0x6000 64 192 4096 1) && r.2.emptySlot 5 == some 10 && !r.2.quota 0 5 true &&
       (match r.2.freeEntry 0 with
        | some id => ((Spec.made r.2 5 0 2 id 10 0xF3).freeEntry 0).isSome && (r.2.wave? id).isNone
        | none => false))) = true ∧
    (let v := kerV 0x5000 0; let s := kerS v kerProc (desc 0x6000 48 64 0 0)
     issuesB (.wvNew (gr 9 2 0)) s v run && (blockAt (.wvNew (gr 9 2 0)) s v 0x5000 false).any (fun r => decide (r.1 = desc 0x6000 48 64 0 0))) = true ∧
    (let v := { kerV 0x5000 0 with ackcnt := 1 }; let s := { kerS v with acks := [(3, { wave := 7, node := 0, die := 0, key := 0, atomic := false })] }
     issuesB (.wvNew (gr 9 2 0)) s v run && !s.relReady 7) = true := by decide +kernel
/-- A block in the wave's own scratchpad, its words all written. -/
theorem readBlock_scratch {s : State} {c : Ctx} (k : Crew) (hk : s.crew? c.v.crew = some k) (hb : 64 ≤ k.bytes)
    (ht : blockTrap k { kind := aREAD, size := 64, align := 64, desc := true, noCluster := true, noPriv := true } 0 0xFE0000000000 = none) (hp : k.poisoned 0 64 = false) (hu : k.unwritten 0 64 = []) :
    s.readBlock c 0xFE0000000000#64 64 64 false = (.ok (k.read 0 64), s) := by
  have h : s.resolve c.v 0 { kind := aREAD, size := 64, align := 64, desc := true, globalOnly := false, noCluster := true, noPriv := true } false 0xFE0000000000 = (.ok (.scratch c.v.crew 0 false), s) := by
    simp [State.resolve, globalTop, privBase, scratchBase, clusterBase, hk, ht, show ¬ k.bytes < 64 from by omega]
  show (match s.resolve c.v 0 { kind := aREAD, size := 64, align := 64, desc := true, globalOnly := false, noCluster := true, noPriv := true } false 0xFE0000000000 with
    | (.error t, s1) => (Block.trap t, s1)
    | (.ok tgt, s1) => match s1.loadT c (lowLane (maskOf c.lanes)) 0xFE0000000000 64 tgt with
      | (.error t, s2) => (Block.late (batchTrap c t), s2)
      | (.ok v, s2) => (Block.ok v, s2)) = _
  rw [h]
  simp [State.loadT, State.scratchRead, hk, hp, hu]
/-- A crew with a block at the start of its scratchpad. -/
def blockCrew (n : Nat) : Crew := { crew with scratch := (List.range 16).map (fun i => (i, BitVec.ofNat 32 (n / 2 ^ (32 * i)))) }
def fullS (n : Nat) : State := { kerS (kerV 0xFE0000000000 1) fullProc with crews := [(6, blockCrew n)] }
theorem witness_WaveInstructions_full : issuesB (.wvNew (gr 9 2 0)) (fullS (desc 0x6000 16 64 0 0)) (kerV 0xFE0000000000 1) run = true ∧ (fullS (desc 0x6000 16 64 0 0)).relReady 7 = true ∧
    (fullS (desc 0x6000 16 64 0 0)).readBlock ((fullS (desc 0x6000 16 64 0 0)).ctx (kerV 0xFE0000000000 1) run (.wvNew (gr 9 2 0))) 0xFE0000000000#64 64 64 false = (.ok (desc 0x6000 16 64 0 0), fullS (desc 0x6000 16 64 0 0)) ∧
    (fullS (desc 0x6000 16 64 0 0)).emptySlot 5 = none := by
  refine ⟨by decide +kernel, by decide +kernel, ?_, full_table _ rfl⟩
  rw [readBlock_scratch (blockCrew (desc 0x6000 16 64 0 0)) rfl (by decide +kernel) (by decide +kernel) (by decide +kernel) (by decide +kernel),
    show (blockCrew (desc 0x6000 16 64 0 0)).read 0 64 = desc 0x6000 16 64 0 0 from by decide +kernel]
/-- The block of a descriptor in the first 64 bytes of the wave's own scratchpad. -/
theorem witness_BlockReads : let s := fullS (desc 0x6000 16 64 0 0); let k := blockCrew (desc 0x6000 16 64 0 0)
    s.crew? (s.ctx (kerV 0xFE0000000000 1) run (.wvNew (gr 9 2 0))).v.crew = some k ∧ 0 + 64 ≤ k.grans * 4096 ∧ k.grans ≤ 64 ∧ k.regions = [] ∧ k.spoison = [] ∧
    (∀ i < 16, (k.word i).2 = true) ∧ (0xFE0000000000#64).toNat = 0xFE0000000000 ∧ 0xFE0000000000 % 64 = 0 := by decide +kernel
def slotOk (s : State) (n k r : Nat) : Nat := match s.checkSlot 5 n [k] r with | .ok h => hId h | .error _ => 0
/-- Joins of a dead wave, of one that lives, of no wave; a priority above the cap of 5. -/
theorem witness_WaveInstructions_rest :
    (∀ i ∈ [Instr.wvExit (gr 0 0 0), .wvYield (gr 0 0 0), .wvJoin (gr 9 2 0), .wvPrio (gr 9 6 4)], ∀ a ∈ [8, 7, 3], Issues i (kerS (kerV a 7)) (kerV a 7) run) ∧
    (slotOk (kerS (kerV 8 7)) 8 2 1 = 9 ∧ ((kerS (kerV 8 7)).wave? 9).any (·.dead) = true) ∧ (slotOk (kerS (kerV 7 7)) 7 2 1 = 10 ∧ ((kerS (kerV 7 7)).wave? 10).any (fun x => !x.dead) = true) ∧
    slotOk (kerS (kerV 3 7)) 3 2 1 = 0 ∧ ((kerS (kerV 3 7)).wave? 7 = some (kerV 3 7) ∧ Spec.slotOf (kerV 3 7) (gr 9 6 4) = 0 ∧ ((kerS (kerV 3 7)).limit 0 0).isSome = true) := by
  refine ⟨fun i hi a ha => ?_, by decide +kernel⟩
  have h : [8, 7, 3].all (fun a => [Instr.wvExit (gr 0 0 0), .wvYield (gr 0 0 0), .wvJoin (gr 9 2 0), .wvPrio (gr 9 6 4)].all (fun i => issuesB i (kerS (kerV a 7)) (kerV a 7) run)) = true := by decide +kernel
  exact issues_all (List.all_eq_true.mp h a ha) i hi
theorem test_waves : writes (.wvPrio (gr 9 6 4)) (kerS (kerV 3 7)) = [(30009, 5 * 256)] ∧ writes (.wvJoin (gr 9 2 0)) (kerS (kerV 8 0)) = [(30009, 0)] ∧ writes (.wvJoin (gr 9 2 0)) (kerS (kerV 3 0)) = [(30009, 0x25)] := by decide +kernel

/-! ## Handles -/

theorem witness_HandleInstructions :
    (∀ i ∈ [Instr.hDup (gr 9 2 4), .hClose (gr 9 2 0), .hInfo (gr 9 2 0 1)], ∀ a ∈ [7, 1, 4, 2, 3], Issues i (kerS (kerV a 0x4F)) (kerV a 0x4F) run) ∧
    ([7, 1, 4, 2, 3].all (fun a => Spec.slotOf (kerV a 0) (gr 9 2 4) == a && ((kerS (kerV a 0)).slot? 5 a).isSome)) = true ∧
    (match (kerS (kerV 7 0)).slot? 5 7 with
      | some h => (match (kerS (kerV 7 0)).checkSlot 5 7 (List.range 32) 6 true with | .ok x => x == h.handle | _ => false) && (kerS (kerV 7 0)).emptySlot 5 == some 10 && !(kerS (kerV 7 0)).foreign h.handle &&
          !(kerS (kerV 7 0)).stale h.handle && decide (2 ≤ ((kerS (kerV 7 0)).obj (hId h.handle)).refs)
      | none => false) = true ∧
    ((kerS (kerV 4 0)).slot? 5 4).any (fun h => (kerS (kerV 4 0)).stale h.handle) = true ∧ (∀ e ∈ (kerS (kerV 4 0)).waves, e.2.wait = none) ∧
    (((kerS (kerV 7 0)).obj 10).kind = 2 ∧ ((kerS (kerV 7 0)).obj 20).kind = 4 ∧ ((kerS (kerV 7 0)).obj 21).kind = 6 ∧ ((kerS (kerV 7 0)).obj 22).kind = 5) := by
  refine ⟨fun i hi a ha => ?_, by decide +kernel⟩
  have h : [7, 1, 4, 2, 3].all (fun a => [Instr.hDup (gr 9 2 4), .hClose (gr 9 2 0), .hInfo (gr 9 2 0 1)].all (fun i => issuesB i (kerS (kerV a 0x4F)) (kerV a 0x4F) run)) = true := by decide +kernel
  exact issues_all (List.all_eq_true.mp h a ha) i hi
theorem witness_HandleInstructions_full : issuesB (.hDup (gr 9 2 4)) (kerS (kerV 1 0) fullProc) (kerV 1 0) run = true ∧ (kerS (kerV 1 0) fullProc).emptySlot 5 = none ∧
    (match (kerS (kerV 1 0) fullProc).slot? 5 1, (kerS (kerV 1 0) fullProc).checkSlot 5 1 (List.range 32) 6 true with | some h, .ok x => x == h.handle | _, _ => false) = true :=
  ⟨by decide +kernel, full_table _ rfl, by decide +kernel⟩
/-- R290, R302: a stale handle's slot is emptied with 0x20; a timer armed with count 3. -/
theorem test_handles : writes (.hDup (gr 9 2 4)) (kerS (kerV 7 0)) = [(30009, 10 * 256)] ∧ writes (.hClose (gr 9 2 0)) (kerS (kerV 4 0)) = [(30009, 0x20)] ∧
    writes (.hInfo (gr 9 2 0 1)) (kerS (kerV 2 0)) = [(30009, 6 * 2 ^ 8 + 255 * 2 ^ 17 + 2 ^ 32 + 3 * 2 ^ 33)] := by decide +kernel

/-! ## Wait sets, timers, system calls -/

/-- A member not ready, a future; a full set; a set with a ready port. -/
def members2 : Tab Member := [(0, .obj 21 6), (2, .fut 0x200100)]
def members64 : Tab Member := (List.range 64).map (fun k => (k, .fut (0x300000 + 16 * k)))
def timer0 : Timer := { armed := true, count := 0, deadline := 50, period := 7 }
/-- ws.new and tm.new with room, and in a process that is contained. -/
theorem witness_WaitSetsAndTimers_new :
    (∀ i ∈ [Instr.wsNew (gr 9 0 0), .tmNew (gr 9 0 0)], Issues i (kerS (kerV 1 1)) (kerV 1 1) run ∧ Issues i (kerS (kerV 1 1) { kerProc with contained := true }) (kerV 1 1) run) ∧
    (kerS (kerV 1 1)).emptySlot 5 = some 10 ∧ (kerS (kerV 1 1)).quota 0 5 false = false ∧ ((kerS (kerV 1 1)).freeEntry 0).isSome = true ∧ (kerS (kerV 1 1) { kerProc with contained := true }).quota 0 5 false = true := by
  refine ⟨fun i hi => ?_, by decide +kernel⟩
  have h : [kerProc, { kerProc with contained := true }].all (fun p => [Instr.wsNew (gr 9 0 0), .tmNew (gr 9 0 0)].all (fun i => issuesB i (kerS (kerV 1 1) p) (kerV 1 1) run)) = true := by decide +kernel
  have h' := List.all_eq_true.mp h
  exact ⟨issues_all (h' _ (by simp)) i hi, issues_all (h' _ (by simp)) i hi⟩
theorem witness_WaitSetsAndTimers_full : issuesB (.wsNew (gr 9 0 0)) (fullS 0) (kerV 0xFE0000000000 1) run = true ∧ issuesB (.tmNew (gr 9 0 0)) (fullS 0) (kerV 0xFE0000000000 1) run = true ∧ (fullS 0).emptySlot 5 = none :=
  ⟨by decide +kernel, by decide +kernel, full_table _ rfl⟩
/-- The six instructions on a slot that fails its checks, and on one that passes. -/
theorem witness_WaitSetsAndTimers_slots :
    (∀ i ∈ [Instr.wsAdd (gr 9 2 4), .wsDel (gr 9 2 4 1), .wsWait (gr 9 2 4), .wsPoll (gr 9 2 0 1), .tmArm (gr 9 2 4), .tmStop (gr 9 2 0 1)], ∀ a ∈ [5, 1, 2], Issues i (kerS (kerV a 3)) (kerV a 3) run) ∧
    (slotOk (kerS (kerV 5 3)) 5 5 5 = 0 ∧ slotOk (kerS (kerV 5 3)) 5 6 4 = 0 ∧ slotOk (kerS (kerV 1 3)) 1 5 5 = 22 ∧ slotOk (kerS (kerV 2 3)) 2 6 4 = 21) := by
  refine ⟨fun i hi a ha => ?_, by decide +kernel⟩
  have h : [5, 1, 2].all (fun a => [Instr.wsAdd (gr 9 2 4), .wsDel (gr 9 2 4 1), .wsWait (gr 9 2 4), .wsPoll (gr 9 2 0 1), .tmArm (gr 9 2 4), .tmStop (gr 9 2 0 1)].all (fun i => issuesB i (kerS (kerV a 3)) (kerV a 3) run)) = true := by decide +kernel
  exact issues_all (List.all_eq_true.mp h a ha) i hi
def memberOf (b : Nat) (ws : WaitSet) : Option Member := let s := kerS (kerV 1 b) kerProc 0 ws timer0; match (wsMember (s.ctx (kerV 1 b) run (.wsAdd (gr 9 2 4))) (readB (s.ctx (kerV 1 b) run (.wsAdd (gr 9 2 4))) (gr 9 2 4)) s).1 with | .ok m => some m | _ => none
/-- ws.add of a port that is no member, with key 1 the lowest free; of a 65th; of a timer that is member 0; ws.del of a future and of no member. -/
theorem witness_WaitSetsAndTimers_members :
    (memberOf 3 { members := members2 } = some (.obj 20 4) ∧ (∀ e ∈ members2, e.2 ≠ .obj 20 4) ∧ Tab.get? members2 1 = none ∧ Tab.get? members2 0 ≠ none ∧ (kerS (kerV 1 3) kerProc 0 { members := members2 } timer0).memberReady (.obj 20 4) = false) ∧
    ((∀ j < 64, Tab.get? members64 j ≠ none) ∧ ∀ e ∈ members64, e.2 ≠ .obj 20 4) ∧ (memberOf 2 { members := members2 } = some (.obj 21 6) ∧ members2.find? (fun e => e.2 == .obj 21 6) = some (0, .obj 21 6)) ∧
    (Tab.get? members2 (66 % 64) = some (.fut 0x200100) ∧ Tab.get? members2 63 = none) := by decide +kernel
def readyB (s : State) (x : WaitSet) (j : Nat) : Bool := match Tab.get? x.members j with | some m => s.memberReady m | none => false
theorem selects_of {s : State} {x : WaitSet} {k : Nat} (h : (decide (k < 64) && readyB s x k && (List.range 64).all (fun i => (x.ptr + i) % 64 != k || (List.range i).all (fun j => !readyB s x ((x.ptr + j) % 64)))) = true) : Spec.selects s x k := by
  simp only [Bool.and_eq_true, decide_eq_true_eq, List.all_eq_true, List.mem_range, Bool.or_eq_true, bne_iff_ne, Bool.not_eq_true'] at h
  have hr : ∀ j, (∃ m, Tab.get? x.members j = some m ∧ s.memberReady m = true) ↔ readyB s x j = true := fun j => by
    unfold readyB; cases Tab.get? x.members j <;> simp
  refine ⟨h.1.1, (hr k).mpr h.1.2, fun i hi e => Or.inl fun j hj hx => ?_⟩
  rcases h.2 i hi with h' | h'
  · exact h' e
  · have h1 := h' j hj
    have h2 := (hr ((x.ptr + j) % 64)).mp hx
    rw [h2] at h1; cases h1
/-- A selection past the pointer's end, key 5 from pointer 6; a set with no ready member. -/
theorem witness_WaitSetsAndTimers_select : Spec.selects (kerS (kerV 1 3) kerProc 0 {} timer0 1) { members := [(5, .obj 20 4)], ptr := 6 } 5 := selects_of (by decide +kernel)
theorem witness_WaitSetsAndTimers_none : ∀ k, ¬ Spec.selects (kerS (kerV 1 3) kerProc 0 {} timer0) { members := members2, ptr := 63 } k := by
  intro k ⟨hk, ⟨m, hm, hr⟩, _⟩
  have : (List.range 64).all (fun j => !readyB (kerS (kerV 1 3) kerProc 0 {} timer0) { members := members2, ptr := 63 } j) = true := by decide +kernel
  have := List.all_eq_true.mp this k (List.mem_range.mpr hk)
  simp only [readyB, hm, hr, Bool.not_true] at this
  cases this
/-- A deadline that has come and one that has not; a timer at its deadline, and one that is not armed. -/
theorem witness_WaitSetsAndTimers_time :
    let y := { kerV 1 1 with wait := some (.waitSet 22 1 4 9 (some 50)) }
    ({ kerS y with ticks := 50 } : State).wave? 7 = some y ∧ 50 ≤ ({ kerS y with ticks := 50 } : State).tickOf (objDie 22) ∧ ({ kerS y with ticks := 49 } : State).tickOf (objDie 22) < 50 ∧
    (Tab.get? (kerS y kerProc 0 {} timer0).timers 21 = some timer0 ∧ timer0.armed = true ∧ timer0.deadline ≤ ({ kerS y with ticks := 50 } : State).tickOf (objDie 21)) := by decide +kernel
/-- R304, R305, R306. -/
theorem test_wait : writes (.wsPoll (gr 9 2 0 1)) (kerS (kerV 1 3) kerProc 0 { members := members2 } timer0) = [(30009, 3)] ∧ writes (.wsAdd (gr 9 2 4)) (kerS (kerV 1 3) kerProc 0 { members := members2 } timer0) = [(30009, 256)] ∧
    writes (.wsPoll (gr 9 2 0 1)) (kerS (kerV 1 3) kerProc 0 { members := [(5, .obj 20 4)], ptr := 6 } timer0 1) = [(30009, 5 * 256)] ∧ writes (.tmStop (gr 9 2 0 1)) (kerS (kerV 2 3)) = [(30009, 0)] ∧
    nextIs (exec (.tmArm (gr 0 2 4)) (kerS (kerV 2 3))) (fun t => (Tab.get? t.timers 21).any (fun y => y.armed && y.deadline == 3 && y.period == 4)) = true := by decide +kernel

/-- A system call block: bits that must be zero, pointer 5 at the end of the global space, a good one. -/
def callS (n : Nat) (port : W64) (q : Nat := 0) : State := kerS { kerV 0x5000 0 with posted := [1] } { kerProc with svcport := port } n {} timer0 q
def callV : Wave := { kerV 0x5000 0 with posted := [1] }
def calls (n : Nat) (port : W64) (q : Nat := 0) : Bool :=
  issuesB (.sysCall (gr 9 2 0)) (callS n port q) callV run && (blockAt (.sysCall (gr 9 2 0)) (callS n port q) callV 0x5000 true).any (fun r => decide (r.1 = n) &&
    (((r.2.releaseWaits 7 4).2.servicePort 5).isSome == decide (port ≠ 0)))
theorem witness_SystemCalls :
    (calls (2 ^ 38) 0 && calls (2 ^ 511) 0 && calls (2 ^ 37 + 0xFC0000000000 * 2 ^ (64 + 64 * 5)) 0 && calls (2 ^ 32 + 0xFBFFFFFFFFFF * 2 ^ 64) 0 && calls 5 (mkHandle 0 20 4 0) 4 && calls 5 (mkHandle 0 20 4 0) 3) = true ∧
    (Spec.fld (2 ^ 38) 38 26 ≠ 0 ∧ Spec.fld (2 ^ 511) 448 64 ≠ 0) ∧ ((2 ^ 37 + 0xFC0000000000 * 2 ^ (64 + 64 * 5)).testBit (32 + 5) = true ∧ 0xFC0000000000 ≤ Spec.fld (2 ^ 37 + 0xFC0000000000 * 2 ^ (64 + 64 * 5)) (64 + 64 * 5) 64) ∧
    (∀ i < 6, ¬ ((2 ^ 32 + 0xFBFFFFFFFFFF * 2 ^ 64).testBit (32 + i) = true ∧ 0xFC0000000000 ≤ Spec.fld (2 ^ 32 + 0xFBFFFFFFFFFF * 2 ^ 64) (64 + 64 * i) 64)) := by decide +kernel
theorem witness_SystemCalls_reply : ({ kerV 1 1 with wait := some (.service 20 4 9) } : Wave).wait = some (.service 20 4 9) := rfl
/-- R307, R428: BADDESC, BADSPACE, STALE and FULL. -/
theorem test_calls : (writes (.sysCall (gr 9 2 0)) (callS (2 ^ 38) 0), writes (.sysCall (gr 9 2 0)) (callS (2 ^ 37 + 0xFC0000000000 * 2 ^ (64 + 64 * 5)) 0), writes (.sysCall (gr 9 2 0)) (callS 5 0),
    writes (.sysCall (gr 9 2 0)) (callS 5 (mkHandle 0 20 4 0) 4)) = ([(30009, 0x25)], [(30009, 0x22)], [(30009, 0x20)], [(30009, 4)]) := by decide +kernel

/-! ## What the hardware does for a wave -/

def idle : Wave := { wave with run := none }
theorem witness_NextBatch : idle.width ≤ 64 ∧ (idle.nextBatch = some (7, 0x1000)) ∧ (∀ l, ¬ (l < ({ idle with fibres := [] } : Wave).width ∧ ({ idle with fibres := [] } : Wave).readyLanes.getLsbD l = true)) ∧
    ({ idle with fibres := [(0, { pc := 0x1000, thread := 0 }), (15, { pc := 0x1004, thread := 1 })], lastStart := 0x1000 } : Wave).nextBatch = some (0x8000, 0x1004) := by
  refine ⟨by decide, by decide +kernel, fun l h => ?_, by decide +kernel⟩
  have : ({ idle with fibres := [] } : Wave).readyLanes = 0 := by decide +kernel
  rw [this] at h; simp at h
def pend4 : Run := { run with pending := [{ seq := 4, left := none, back := false, writes := [] }], waitZlr := [1, 1] }
def ack3 (re at_ : Bool) : Ack := { wave := 7, node := 0, die := 0, key := 0, atomic := at_, resent := re }
/-- A core in debug with comparators 0 and 1 at 0x1000, wave 9 in debug mode or not. -/
def bpS (v : Wave) (other : Bool) : State :=
  { on v with waves := [(7, v), (9, { idle with dbg := if other then some { mask := 1, retPc := 0, s60 := 0, s61 := 0, s62 := 0, s63 := 0 } else none })]
              cores := [(3, { dreg := [(0, 3), (1, 0x3001), (8, 0x1001), (9, 0x1001), (0x10, 0xFF), (0x11, 0xFF)] })] }
theorem witness_WaveEvents :
    ((on idle).wave? 7 = some idle ∧ idle.dead = false ∧ idle.stepState ≠ 2 ∧ idle.run = none ∧ idle.resume = none ∧ idle.refusals = [] ∧ (on idle).mayStart idle = true ∧ idle.nextBatch.isSome = true) ∧
    (({ idle with resume := some run } : Wave).resume = some run ∧ (on { idle with resume := some run }).mayStart { idle with resume := some run } = true) ∧
    (pend4.ended = false ∧ pend4.pending.map (·.seq) = [4] ∧ wave.frozen = none ∧ wave.resume = none ∧ wave.dbg = none) ∧
    (Tab.get? ({ on idle with acks := [(3, ack3 false false)] } : State).acks 3 = some (ack3 false false) ∧ (ack3 false false).wave = 7 ∧ (ack3 true false).resent = true ∧ (ack3 false true).atomic = true ∧ (on idle).proc? idle.proc = some proc) ∧
    ((bpS wave false).bpcHits wave run = [0, 1] ∧ otherInDebug (bpS wave true) 7 3 = true ∧ otherInDebug (bpS wave false) 7 3 = false) ∧
    ((on idle).acked 7 = true ∧ (on { idle with ackcnt := 1 }).acked 7 = false) ∧
    (({ wave with run := some { run with ended := true } } : Wave).entrant.isNone = true ∧ wave.entrant.isSome = true ∧ (bpS wave false).dbgEn 3 = true) := by decide +kernel

/-! ## Memory events and futures -/

def pollOf (old reads : Nat) : Poll := { seq := 4, lane := 1, addr := 0x5000, size := 4, scope := 2, old := old, reads := reads, last := 0, d := 8, winBase := 0 }
def pollV (p : Poll) : Wave := { wave with run := some pend4, polls := [p] }
def pollIs (p : Poll) : Option Nat :=
  match (on (pollV p)).resolve (pollV p) 1 { kind := 0, size := 4, align := 4 } false 0x5000 with
  | (.ok t, s1) => (match s1.pollRead (pollCtx 7 (pollV p) p) 1 0x5000 4 2 t with | (.ok x, _) => some x | _ => none)
  | _ => none
/-- A word that differs, one that does not with reads left and with none left. -/
theorem witness_MemoryEvents_poll : (pollIs (pollOf 5 1) = some 0 ∧ 0 ≠ 5) ∧ (pollIs (pollOf 0 14) = some 0 ∧ (crew.preempt = none)) ∧ (pollIs (pollOf 0 15) = some 0) := by decide +kernel
def dirtyS : State := { mach with mem := mem.filter (fun e => decide (e.1 < 2 ^ 40)), cores := [(3, { l1 := [(0x20007F, { val := 1, dirty := true, wave := 7 }), (0x200080, { val := 2, dirty := true, wave := 7 })] })] }
def writtenCrew : Crew := { crew with scratch := [(0, 1)] }
theorem witness_MemoryEvents :
    (Memory.wf dirtyS.mem = true ∧ (Tab.keys (dirtyS.core 3).l1).Nodup ∧ (dirtyS.core 3).l1.all (fun e => tracked e.1 && keyDie e.1 == 0 && (Tab.get? dirtyS.pages (e.1 / 4096)).isNone && (dirtyS.dirOf (e.1 / 128)).state != 2#2 && dirtyS.winAt e.1 == none) = true) ∧
    (mach.wave? 7 = some wave ∧ mach.crewAt 3 5 0x4F70 = some (6, crew) ∧ mach.crew? 6 = some crew ∧ crew.base * 4096 ≤ 0x4F70 ∧ 0x4F70 - crew.base * 4096 + 16 ≤ crew.grans * 4096 - 128 ∧ ∀ e ∈ mach.waves, e.2.held = []) ∧
    (8 ∈ [4, 8] ∧ 0x200000 % 8 = 0 ∧ (List.range 8).all (fun i => tracked (0x200000 + i) && (Tab.get? dirtyS.pages ((0x200000 + i) / 4096)).isNone && (dirtyS.dirOf ((0x200000 + i) / 128)).state != 2#2 && dirtyS.winAt (0x200000 + i) == none) = true ∧ 0x200004 % 8 ≠ 0) ∧
    ((match mach.walk 0x10 0x8008 with | .leaf e _ 12 => !e.getLsbD 11 && !e.getLsbD 4 | _ => false) = true ∧ mach.walkPoison 0x10 0x8008 = none ∧
      (∀ a ∈ [0x8008, 0x5008, 0x4000], tlbHit (mach.core 3).tlb 7 a = none ∧ tlbHit (Tab.getD (mach.die 0).clTlb 0 []) 7 a = none ∧ tlbHit (mach.die 0).llTlb 7 a = none) ∧ (mach.die 0).walkc = [] ∧
      (match mach.walk 0x10 0x8008 with
        | .leaf _ key _ => (List.range 8).all (fun i => tracked (key + i) && (Tab.get? mach.pages ((key + i) / 4096)).isNone && (mach.dirOf ((key + i) / 128)).state != 2#2 && mach.winAt (key + i) == none)
        | _ => false) = true ∧
      mach.walkPoison 0x10 0x4000 = none ∧ (match mach.walk 0x10 0x4000 with | .bad _ => true | _ => false) = true) ∧
    (({ mach with mpoison := [0x13028 / 32] } : State).walkPoison 0x10 0x5008).isSome = true := by decide +kernel
/-- A future at 0x200100: none, empty, with a reader, full. -/
def futS (l : Option (List Nat)) (full : Nat) : State :=
  { mach with mem := mem.filter (fun e => decide (e.1 < 2 ^ 40)) ++ (if full = 1 then [(0x200100, 77), (0x200108, 1)] else []), waves := [(7, pollV (pollOf 0 1)), (9, { idle with wait := some (.future 0x200100 4 9 0 0x5100) })],
              futures := match l with | none => [] | some l => [(0x200100, l)] }
theorem witness_Futures :
    (Memory.wf ((futS none 0).dropFuture 7 0x200100).mem = true ∧ 0x200100 % 16 = 0 ∧ (List.range 16).all (fun i => tracked (0x200100 + i) && (Tab.get? (futS none 0).pages ((0x200100 + i) / 4096)).isNone && (futS none 0).winAt (0x200100 + i) == none) = true) ∧
    ((futS (some [9]) 0).dropFuture 7 0x200100).futFull 0x200100 = false ∧ ((futS (some []) 1).dropFuture 7 0x200100).futFull 0x200100 = true ∧ ((futS (some []) 0).dropFuture 7 0x200100).futFull 0x200100 = false ∧
    (((futS (some []) 0).dropFuture 7 0x200100).futReleased 7 4 3 = true ∧ (({ futS (some []) 0 with waves := [(7, { wave with ackcnt := 1 })] } : State).dropFuture 7 0x200100).futReleased 7 4 3 = false) ∧
    (∃ x ∈ pend4.pending, x.seq = 4 ∧ x.left = none) := by
  refine ⟨by decide +kernel, by decide +kernel, by decide +kernel, by decide +kernel, by decide +kernel, ⟨_, List.mem_singleton.mpr rfl, rfl, rfl⟩⟩

end Sys2Proof.Tests
end

