-- ==== Sys2Proof/Tests/Dist.lean ====
section
/-!
SUPPORT. Sys2Proof/Tests/Dist.lean: crews on cores, task queues, the distributor, launches and graphs: states that meet the hypotheses of the
statements about them, and results computed by hand from spec/16_work_distribution.md and spec/14_muhan_hardware_kernel.md.
-/

namespace Sys2Proof.Tests

open Sys2Proof.Machine

set_option Elab.async false

/-! ## Crews on cores -/

def crewIn (pl : Place) : Crew := { crew with place := pl, base := 5, scratch := [(1, 5)], starved := 2 }
def runqS (pl : Place) (rq : List Nat := [6]) (v : Wave := idle) : State := { on v with crews := [(6, crewIn pl)], runq := rq, dies := [(0, die5)] }
def leaving (part : Bool) : Crew := { crewIn .resident with preempt := some 0, part := part }
/-- The crew is to leave; the shadow bank is free or holds crew 8. -/
def leaveS (part busy : Bool) : State := { runqS .resident [] with crews := [(6, leaving part)] ++ (if busy then [(8, { crewIn .shadow with slot := 1 })] else []) }
/-- Crews to place from the queue and from the cave; no crew; crews that may not leave, and may, with a free bank and without. -/
theorem witness_CrewEvents :
    [Place.queued, .cave].all (fun pl => (runqS pl).runq == [6] && (runqS pl).crew? 6 == some (crewIn pl) && (crewIn pl).core == 3 && (crewIn pl).gang == none && !(crewIn pl).floating && !(crewIn pl).moved && (crewIn pl).answer == none && ((runqS pl).fitCrew 6 []).isSome && decide ((runqS pl).crewPrio 6 < 8)) = true ∧
    (runqS .queued []).runq = [] ∧ [Place.queued, .cave, .shadow].all (fun pl => !(runqS pl).canLeave 6) = true ∧
    [(false, false), (false, true), (true, true)].all (fun (p, b) => (leaveS p b).canLeave 6 && decide ((leaving p).preempt = some 0 ∧ (leaving p).moveTo = none ∧ (leaving p).task = none ∧ (leaving p).gang = none) && (leaveS p b).crews.all (fun e => !e.2.swapIn) &&
      ((leaveS p b).membersOf 6).any (fun e => e.2.active)) = true ∧ ((leaveS false false).bankFree 3 = true ∧ (leaveS false true).bankFree 3 = false) := by decide +kernel
/-- The end of a transfer; limits that are off, not passed and reached. -/
theorem witness_CrewEvents_end :
    [Place.swapping, .restoring].all (fun pl => (runqS pl).crew? 6 == some (crewIn pl) && (crewIn pl).gang == none && (crewIn pl).saved.isEmpty && (crewIn pl).regions.isEmpty && ((runqS pl).membersOf 6).all (fun e => e.2.held.isEmpty && e.2.instances.isEmpty)) = true ∧
    (let s := fun (lim n : Nat) => ({ runqS .queued with dies := [(0, { regs := [(0xC0020, BitVec.ofNat 64 lim)] })], ticks := n } : State)
     (s 0 500).reg 0 0xC0020 = 0 ∧ (s 100 299).tickOf 0 - (crewIn .queued).runnableAt < (s 100 299).reg 0 0xC0020 * ((crewIn .queued).starved + 1) ∧ (s 100 300).reg 0 0xC0020 * ((crewIn .queued).starved + 1) ≤ (s 100 300).tickOf 0 - (crewIn .queued).runnableAt) := by decide +kernel
/-- R298: a placed crew is resident, a crew that leaves with the bank free goes there, with the bank taken to the cave. -/
theorem test_crews : nextIs (execCrewPlacement 3 (runqS .queued)) (fun t => t.runq.isEmpty && (t.crew? 6).any (fun k => k.place == .resident)) = true ∧
    nextIs (execCrewDeschedule 6 (leaveS false false)) (fun t => (t.crew? 6).any (fun k => k.place == .shadow)) = true ∧ nextIs (execCrewDeschedule 6 (leaveS false true)) (fun t => (t.crew? 6).any (fun k => k.place == .cave)) = true := by decide +kernel

/-! ## Task queues -/

/-- A control block at 0x300000: eight records at 0x310000, priority 5, state, HEAD and TAIL in one byte each. -/
def qcbCells (st hd tl : Nat) : List Host.Cell :=
  [(0x300002, 0x31), (0x300008, 0xA3)] ++ (if st = 0 then [] else [(0x300009, BitVec.ofNat 8 st)]) ++ (if hd = 0 then [] else [(0x300010, BitVec.ofNat 8 hd)]) ++ (if tl = 0 then [] else [(0x300018, BitVec.ofNat 8 tl)]) ++ [(0x300020, 0xFF), (0x300021, 0xFF)]
/-- A record: entry 0x5000, width 32, 16 registers, argument 0x777, two waves, 2048 bytes, 16 private bytes; and its cells at an address. -/
def record : Nat := 0x5000 + 32 * 2 ^ 48 + 16 * 2 ^ 56 + 0x777 * 2 ^ 64 + 3 * 2 ^ 112 + 2 ^ 117 + 2 * 2 ^ 128 + 2 ^ 144 + 2 ^ 160 + 2 * 2 ^ 176 + 3 * 2 ^ 192 + 4 * 2 ^ 208 + 5 * 2 ^ 224 + 0x1234 * 2 ^ 320
def recordCells (a : Nat) : List Host.Cell := (bytesOf record 64).zipIdx.filterMap (fun e => if e.1 = 0 then none else some (a + e.2, e.1))
def q40 : TaskQueue := { qcb := 0x300000, die := 0, ix := 4, proc := 5 }
def pushV (a : Nat) : Wave := wS [(1, a), (2, 0xFE0000000000)]
/-- Slot 1 names the queue, slot 2 lacks rights, slot 3 is stale, slot 4 a crew. -/
def pushS (a st hd tl : Nat) (cont : Bool := false) (cells : List Host.Cell := []) : State :=
  { on (pushV a) with
    mem := mem ++ qcbCells st hd tl ++ cells, crews := [(6, blockCrew record)], procs := [(5, { handles [(1, 40, 7, 0, 0xFF, 0), (2, 40, 7, 0, 1, 0), (3, 41, 7, 0, 0xFF, 0), (4, 6, 3, 0, 0xFF, 0)] with contained := cont })]
    tqs := [(40, q40)], objs := [(40, { kind := 7 }), (41, { kind := 7, gen := 5 })] }
/-- Which clause of tq.push's statement has its hypotheses met: 1 the slot, 2 QUOTA, 3 BUSY, 4 FULL, 5 OK. -/
def pushClause (s : State) (v : Wave) : Nat :=
  let f := gr 9 1 2; let i := Instr.tqPush f; let c := s.ctx v run i
  if !(issuesB i s v run && s.relReady s.turn) then 0 else match s.readBlock c (readB c f) 64 64 false with
  | (.ok _, s1) => match s1.checkSlot 5 (Spec.slotOf v f) [7] 2 with
    | .error _ => 1
    | .ok h => match (Tab.get? s1.tqs (hId h)).bind (fun q => s1.proc? q.proc) with
      | some p => if p.contained then 2 else if (s1.qcb 0x300000 9 1).testBit 2 then 3 else if s1.ringFull 0x300000 then 4 else 5
      | none => 0
  | _ => 0
theorem witness_TaskQueues_push :
    [pushClause (pushS 2 1 0 0) (pushV 2), pushClause (pushS 3 1 0 0) (pushV 3), pushClause (pushS 4 1 0 0) (pushV 4), pushClause (pushS 1 1 0 0 true) (pushV 1), pushClause (pushS 1 4 0 0) (pushV 1), pushClause (pushS 1 1 5 13) (pushV 1),
      pushClause (pushS 1 1 5 12) (pushV 1), pushClause (pushS 1 1 0 0) (pushV 1)] = [1, 1, 1, 2, 3, 4, 5, 5] ∧
    (let s := { pushS 1 1 0 0 with acks := [(1, { wave := 7, node := 0, die := 0, key := 0, atomic := false })], waves := [(7, { pushV 1 with ackcnt := 1 })] }; issuesB (.tqPush (gr 9 1 2)) s { pushV 1 with ackcnt := 1 } run && !s.relReady s.turn) = true := by decide +kernel
def plainB (s : State) (a n : Nat) : Bool := (List.range n).all (fun i => tracked (a + i) && (Tab.get? s.pages ((a + i) / 4096)).isNone && (s.dirOf ((a + i) / 128)).state != 2#2 && s.winAt (a + i) == none)
/-- A ring with HEAD 5 and TAIL 12; queues that are stopped, empty, and to be taken from slot 3 of the ring. -/
theorem witness_TaskQueues_ring :
    (let s := pushS 1 1 5 12; Memory.wf s.mem && plainB s 0x300000 128 && plainB s 0x310100 64 && decide (s.rdN 0x300000 8 % 2 ^ 48 + 64 * (s.rdN 0x300018 8 % 2 ^ (s.rdN 0x300008 1 % 32)) = 0x310100)) = true ∧ record < 2 ^ 512 ∧
    [(pushS 1 0 3 4).takeable q40, (pushS 1 1 3 3).takeable q40] = [false, false] ∧
    (let s := pushS 1 1 3 4 false (recordCells 0x3100C0); Memory.wf s.mem && s.takeable q40 && (s.dist 0).cands.isEmpty && q40.waitPush.isEmpty && plainB s 0x300000 128 && plainB s 0x3100C0 64 && s.rdN 0x3100C0 64 == record) = true := by decide +kernel
def okRecordB (n : Nat) : Bool :=
  decide (Spec.fld n 0 2 = 0 ∧ (Spec.fld n 48 8 = 16 ∨ Spec.fld n 48 8 = 32 ∨ Spec.fld n 48 8 = 64) ∧ Spec.fld n 56 8 % 8 = 0 ∧ 0 < Spec.fld n 56 8 ∧ Spec.fld n 56 8 ≤ 192 ∧ Spec.fld n 144 16 ≤ 4096 ∧
    Spec.fld n 122 6 = 0 ∧ Spec.fld n 136 8 = 0 ∧ Spec.fld n 240 16 = 0 ∧ Spec.fld n 304 16 = 0 ∧ Spec.fld n 400 48 = 0 ∧ Spec.fld n 496 16 = 0)
theorem okRecord_of (n : Nat) : Spec.okRecord n ↔ okRecordB n = true := by unfold Spec.okRecord; simp only [okRecordB, decide_eq_true_eq]
theorem witness_okRecord : okRecordB record = true ∧ okRecordB (0xFFFFFFFFFFFC + 64 * 2 ^ 48 + 192 * 2 ^ 56 + 31 * 2 ^ 117 + 255 * 2 ^ 128 + 4096 * 2 ^ 144) = true ∧ okRecordB (record + 2) = false ∧ okRecordB (record + 2 ^ 511) = false := by decide +kernel
/-- R333: OK with the old TAIL 12; FULL of eight; BUSY; QUOTA. R334: HEAD advances to 4. -/
theorem test_queues : writes (.tqPush (gr 9 1 2)) (pushS 1 1 5 12) = [(30009, 12 * 256)] ∧ writes (.tqPush (gr 9 1 2)) (pushS 1 1 5 13) = [(30009, 4)] ∧ writes (.tqPush (gr 9 1 2)) (pushS 1 4 0 0) = [(30009, 7)] ∧
    writes (.tqPush (gr 9 1 2)) (pushS 1 1 0 0 true) = [(30009, 0x24)] ∧ nextIs (execQueueRecordTake 40 (pushS 1 1 3 4 false (recordCells 0x3100C0))) (fun t => t.rdN 0x300010 8 == 4 && (t.dist 0).cands.length == 1) = true := by decide +kernel

/-! ## The distributor -/

def cand : Cand := { record := BitVec.ofNat 512 record, kind := 1, src := 2, tenant := 0, proc := 5, sprio := 3, rdy := 4, node := 6 }
def distS (fifo : List (Nat × Nat × Nat)) (cands : Tab Cand) (halted : Bool := false) (cox : Bool := true) (lim : Bool := true) (cont : Bool := false) : State :=
  { on wave with dies := [(0, { (if lim then die5 else {}) with contained := cont, dist := { cands := cands, fifo := fifo, halted := halted, cox := cox } })], objs := [(5, { kind := 1 }), (6, { kind := 3 }), (7, { kind := 2 })] }
/-- Hooks with nothing to do; with events whose handler finds nothing; a candidate for which the cox finds a core, and none. -/
theorem witness_Distributor_hooks :
    ((distS [] []).dist 0).fifo = [] ∧ ((distS [(0, 0, 3)] [] true).dist 0).halted = true ∧ ((distS [(0, 0, 3)] [] false true true true).die 0).contained = true ∧
    (((distS [(0, 0, 3), (1, 2, 3)] []).dist 0).cands = [] ∧ ((distS [(1, 0, 3)] [(0, cand)] false false).dist 0).cox = false ∧ ((distS [(2, 6, 3)] [(0, cand)]).dist 0).fifo = [(2, 6, 3)] ∧ ((distS [(0, 0, 3)] []).dist 0).waiting = []) ∧
    ((distS [] [(0, cand)]).coxCore 0 { cand with clmask := 4 } = some 32 ∧ (distS [] [(0, cand)] false true false).coxCore 0 cand = none) ∧
    ((distS [] []).dist 0).lastBal ≤ ({ distS [] [] with ticks := 99999 } : State).tickOf 0 ∧ ({ distS [] [] with ticks := 99999 } : State).tickOf 0 < ((distS [] []).dist 0).lastBal + ((distS [] []).dist 0).balper ∧
    ((distS [] [] true).dist 0).lastBal + ((distS [] [] true).dist 0).balper ≤ ({ distS [] [] true with ticks := 100000 } : State).tickOf 0 := by decide +kernel
/-- A core without a free slot, one that is stopped; tenants without a limit; a graph's candidate that is placed. -/
def fullCore : State := { distS [] [(2, cand)] with crews := (List.range 64).map (fun i => (100 + i, { crew with slot := i })) }
theorem witness_Distributor_place :
    (Tab.get? ((distS [] [(2, cand)]).dist 0).cands 1 = none ∧ Tab.get? ((distS [] [(2, cand)]).dist 0).cands 2 = some cand) ∧
    ((fullCore.freeCrewSlot 3).isNone = true ∧ fullCore.limitRefuses 3 5 0xFFFF (tWaves record) = false ∧ ({ distS [] [(2, cand)] with cores := [(3, { stopped := true })] } : State).coreOpen 3 = false) ∧
    (distS [] [(2, cand)] false true false).limitRefuses 3 5 0xFFFF (tWaves record) = true ∧ cand.clmask = 0xFFFF ∧ cand.kind = 1 ∧
    [0, 3, 255].all (fun core => let s := distS [] [(2, cand)]; !s.limitRefuses core 5 0xFFFF (tWaves record) && (s.freeCrewSlot core).isSome && s.coreOpen core && (match s.launch 0 core cand with | some (_, s1) => (s1.dist 0).waiting.isEmpty | none => false)) = true := by decide +kernel
def caveS : State := { distS [] [] with crews := [(6, crewIn .cave)], runq := [6] }
theorem witness_Distributor_moves : caveS.runq = [6] ∧ caveS.limitRefuses 255 5 (caveS.srcMask (crewIn .cave).task) 0 = false ∧ (crewIn .cave).moveTo = none ∧ (distS [] []).crew? (0 * 2 ^ 24 + 9) = none ∧ (distS [] []).crew? (0 * 2 ^ 24 + 6) = some crew ∧
    crew.place = .resident ∧ (crewIn .cave).place ≠ .resident ∧ ({ distS [] [] with crews := [] } : State).crews = [] := by decide +kernel
/-- R337, R343, R461: PLACE without a candidate, MIGRATE to the same core, PREEMPT of no crew answer BADDESC. -/
def pstatOf (o : Host.Outcome State Fault Refusal) : Nat := match o with | .next t => Spec.pstat t 0 | _ => 0
theorem test_distributor : [pstatOf (execPlace 0 1 3 (distS [] [(2, cand)])), pstatOf (execPlace 0 2 256 (distS [] [(2, cand)])), pstatOf (execMigrate 0 3 3 1 (distS [] [])), pstatOf (execPreempt 0 9 0 (distS [] [])), pstatOf (execPreempt 0 6 15 (distS [] []))] = [0x25, 0x25, 0x25, 0x25, 6 * 256] := by
  decide +kernel
theorem witness_Launches : (match (distS [] []).launch 0 17 cand with | some (id, _) => (distS [] []).crews.all (fun e => e.1 != id) && okRecordB cand.record.toNat | none => false) = true := by decide +kernel

/-! ## Graphs and queues -/

def graph (left : Nat) (active : Bool := true) (kicks : List Nat := []) : Graph :=
  { image := 0x320000, proc := 5, prio := 2, clmask := 0xFFFF, done := 0, npred := [1, 2, 1], nedges := 2, edges := [[1, 2], [1], []], active := active, counters := [1, 2, 1], left := left, kicks := kicks }
def graphS (gs : Tab Graph) (regs : Tab W64 := []) (cells : List Host.Cell := []) : State :=
  { on idle with mem := mem ++ cells, dies := [(0, { dist := { graphs := gs }, regs := regs ++ die5.regs })], objs := [(5, { kind := 1 })], crews := [], procs := [(5, handles [(1, 7, 2, 0, 0xFF, 0)])] }
/-- No graph; the last node but one of a graph; a successor block that counts 2; a port entry with one in flight; a crew's write not acknowledged. -/
theorem witness_GraphsAndQueues_done :
    ((∀ e ∈ (graphS []).acks, e.2.crew ≠ 6) ∧ (graphS []).orphanWrites = false ∧ Tab.get? ((graphS []).dist 0).graphs 3 = none) ∧ ((graph 2).edges.getD 2 [] = [] ∧ 1 < (graph 2).left) ∧
    (let s := graphS [] [] [(0x330000, 2)]; s.rdN 0x330000 8 = 2 ∧ plainB s 0x330000 8 = true ∧ Memory.wf s.mem = true) ∧
    ((graphS [] [(0x10FF8, BitVec.ofNat 64 (2 ^ 32 + 5))]).ports = [] ∧ 0 < Spec.fld ((graphS [] [(0x10FF8, BitVec.ofNat 64 (2 ^ 32 + 5))]).reg 0 (0x10000 + 16 * 255 + 8)) 32 16) ∧
    (∃ e ∈ ({ graphS [] with acks := [(1, { wave := 7, node := 0, die := 0, key := 0, atomic := false, crew := 6 })] } : State).acks, e.2.crew = 6) := by
  refine ⟨by decide +kernel, by decide, by decide +kernel, by decide +kernel, ⟨_, List.mem_singleton.mpr rfl, rfl⟩⟩
/-- Kicks: of an active graph, of one that starts; the fourth waiting and the fifth. -/
def start0 : Graph := { graph 0 false [0, 7] with npred := [1, 2] }
theorem witness_GraphsAndQueues_kick :
    (Tab.get? ((graphS [(3, graph 3 true [0])]).dist 0).graphs 3 = some (graph 3 true [0]) ∧ (graph 3 true [0]).active = true) ∧ (start0.active = false ∧ start0.kicks = 0 :: [7] ∧ start0.npred ≠ [] ∧ ∀ m ∈ start0.npred, m ≠ 0) ∧
    ((((graphS [(3, graph 3 true [1, 2, 3])]).dist 0).graphs.map (fun e => e.2.kicks.length)).foldl (· + ·) 0 < 4 ∧ 4 ≤ (((graphS [(3, graph 3 true [1, 2]), (4, graph 3 true [3, 4])]).dist 0).graphs.map (fun e => e.2.kicks.length)).foldl (· + ·) 0) ∧
    Tab.get? ((graphS [(3, graph 3)]).dist 0).graphs ((0x105#64).toNat % 16) = none := by decide +kernel
/-- The header of a graph of three nodes and two edges of process 5. -/
def header : List Host.Cell := [(0x320000, 2), (0x320002, 2), (0x32000A, 0x35), (0x32000E, 5), (0x320010, 0x0F), (0x320011, 0x0F), (0x320013, 5)]
theorem witness_GraphsAndQueues_load :
    plainB (graphS [(3, graph 3)] [] header) (Spec.fld (0x320003#64).toNat 6 42 * 64) 64 = true ∧
    (let h := (graphS [] [] header).rdN 0x320000 64
     Spec.fld h 48 16 = 0 ∧ Spec.fld h 115 13 = 0 ∧ Spec.fld h 144 8 = 0 ∧ Spec.fld h 176 336 = 0 ∧ Spec.fld h 16 32 ≤ 262144 ∧ (graphS [] [] header).procAt 0 (Spec.fld h 152 24) = some 5) := by decide +kernel
theorem witness_GraphsAndQueues_tqreg :
    ((1#64).toNat % 128 ≠ 0 ∧ 2 ^ 48 ≤ (BitVec.ofNat 64 (2 ^ 48)).toNat) ∧ (let s := graphS [] [] (qcbCells 1 0 0 |>.filter (fun e => decide (e.1 < 0x30000C)) |>.append [(0x30000C, 5), (0x300020, 0xFF), (0x300021, 0xFF)])
      Memory.wf s.mem && !s.qcbBad 0 0x300000 && s.procAt 0 (s.qcb 0x300000 12 4 % 2 ^ 24) == some 5 && s.tqs.isEmpty && (s.freeEntry 0).isSome && s.emptySlot 5 == some 2) = true := by decide +kernel
/-- A launch port's record under entry 255 with priority cap 2, limit 4 and 3 in flight; no port, an empty one. -/
def launchS (q : List (PortMsg × Nat)) : State := { graphS [] [(0x10FF0, BitVec.ofNat 64 (1 + 2 * 2 + 5 * 2 ^ 32)), (0x10FF8, BitVec.ofNat 64 (4 + 3 * 2 ^ 32))] with ports := [(30, { proc := 5, depth := 4, launch := true, queue := q })] }
theorem witness_GraphsAndQueues_port :
    Tab.get? (launchS []).ports 31 = none ∧ (let s := launchS [({ inl := bytesOf record 64, tenant := 0, node := 0, die := 0, proc := 5 }, 9)]
      s.launchEntry (objDie 30) 0 5 = some 255 ∧ (bytesOf record 64).length = 64 ∧ (s.dist (objDie 30)).cands = [] ∧ Spec.fld (s.reg 0 (0x10000 + 16 * 255 + 8)) 32 16 < Spec.fld (s.reg 0 (0x10000 + 16 * 255 + 8)) 0 16 ∧ okRecordB (ofBytes (bytesOf record 64)) = true ∧ (s.dist (objDie 30)).fifo.length < 256) := by decide +kernel
/-- R335, R348: a graph that is active answers BUSY with its number; a misaligned control block BADDESC. -/
def gstat (o : Host.Outcome State Fault Refusal) : Nat := match o with | .next t => t.reg 0 0x2010 | _ => 0
theorem test_graphs : gstat (execGload 2 0 0x320003#64 (graphS [(3, graph 3)] [] header)) / 2 ^ 20 % 2 ^ 12 = 3 + 7 * 16 ∧ gstat (execTqreg 2 0 1#64 (graphS [])) / 2 ^ 32 % 2 ^ 8 = 0x25 ∧
    nextIs (execTaskComplete 0 0 3 2 0x330000 5 6 (graphS [] [] [(0x330000, 2)])) (fun t => t.rdN 0x330000 8 == 1) = true := by decide +kernel

end Sys2Proof.Tests
end

