-- ==== Sys2Proof/Tests/Engines.lean ====
section
/-!
SUPPORT. Sys2Proof/Tests/Engines.lean: tokens, streams, the commands of the copy and matrix engines and the storage they use: states that meet the
hypotheses of the statements about them, and results computed by hand from spec/12_matrix_engine.md and spec/13_copy_engines_and_streams.md.
-/

namespace Sys2Proof.Tests

open Sys2Proof.Machine

set_option Elab.async false

/-! ## Tokens and streams -/

/-- Token 0 counts 2, token 1 the most, token 2 one less; stream 3 has its next tile filled, stream 4 a popped one, stream 0 is not bound. -/
def engV (n : Nat) : Wave :=
  { wS [(1, 0xFE0000000000), (2, n)] with
    tokens := [(0, { count := 2, special := true, scope := 2 }), (1, { count := 255, err := true }), (2, { count := 254, scope := 4 }), (3, { special := true })]
    streams := [(3, { base := 128, nt := 2, tsize := 256, gen := 5, popNext := 1, freeNext := 0, tiles := [(0, .popped), (1, .filled)] }), (4, { nt := 3, tsize := 128, freeNext := 2, tiles := [(2, .popped)] })] }
def issuer7 : Issuer := { wave := 7, wgen := 0, crew := 6, cgen := 0, proc := 5, core := 3, wslot := 0, pc := 0x1000, launch := 0, block := 0, thread := 0 }
def cmdOp (o : CmdOp) : Cmd := { by_ := issuer7, op := o, crew := 6 }
def engS (v : Wave) (k : Crew := crew) (qs : Tab (List Entry) := []) : State := { on v with crews := [(6, k)], cores := [(3, { queues := qs })] }
def full3 : Tab (List Entry) := [(0, [{ cmds := [cmdOp (.zero 1)] }]), (1, [{ cmds := [cmdOp (.zero 1)] }]), (2, [{ cmds := [cmdOp (.zero 1)] }])]
theorem witness_TokenInstructions :
    (∀ b ∈ [1, 6, 0x105, 0x1FF], ∀ i ∈ [Instr.tokWait (gr 0 0 2), .tokTest (gr 9 0 2), .eqFence (gr 0 0 2), .qPop (gr 9 0 0x103), .qFree (gr 0 0 0x104)], Issues i (engS (engV b)) (engV b) run ∧ Issues i (engS (engV b) crew full3) (engV b) run) ∧
    (((List.range 3).filter (fun j => (1 % 8 : Nat).testBit j)).length < 2 ∧ 2 ≤ ((List.range 3).filter (fun j => (6 % 8 : Nat).testBit j)).length ∧ 2 ≤ ((List.range 3).filter (fun j => (0x1FF % 8 : Nat).testBit j)).length) ∧
    (∀ j < 3, (engS (engV 6) crew full3).queue ((engS (engV 6) crew full3).coreOf (engV 6)) j ≠ [] ∧ (engS (engV 6) crew full3).headMark ((engS (engV 6) crew full3).coreOf (engV 6)) j = none) := by
  refine ⟨fun b hb i hi => ?_, by decide, by decide +kernel⟩
  have h : [1, 6, 0x105, 0x1FF].all (fun b => [[], full3].all (fun q => [Instr.tokWait (gr 0 0 2), .tokTest (gr 9 0 2), .eqFence (gr 0 0 2), .qPop (gr 9 0 0x103), .qFree (gr 0 0 0x104)].all (fun i => issuesB i (engS (engV b) crew q) (engV b) run))) = true := by
    decide +kernel
  have h' := List.all_eq_true.mp (List.all_eq_true.mp h b hb)
  exact ⟨issues_all (h' _ (by simp)) i hi, issues_all (h' _ (by simp)) i hi⟩
def ring (base nt ts : Nat) (x : Nat := 0) : Nat := base + nt * 2 ^ 24 + ts * 2 ^ 32 + x
def okRingB (k : Crew) (n : Nat) : Bool :=
  decide (Spec.fld n 18 6 = 0 ∧ Spec.fld n 29 3 = 0 ∧ Spec.fld n 49 15 = 0 ∧ Spec.fld n 0 18 % 128 = 0 ∧ Spec.fld n 24 5 ≤ 16 ∧
    Spec.fld n 32 17 % 128 = 0 ∧ 128 ≤ Spec.fld n 32 17 ∧ Spec.fld n 32 17 ≤ 65536 ∧ (Spec.fld n 24 5 ≠ 0 → Spec.fld n 0 18 + Spec.fld n 24 5 * Spec.fld n 32 17 + 128 ≤ k.bytes))
theorem okRing_of (k : Crew) (n : Nat) : Spec.okRing k n ↔ okRingB k n = true := by unfold Spec.okRing; simp only [okRingB, decide_eq_true_eq]
/-- A crew of 12288 bytes holds 95 tiles of 128 below its barrier block: a ring from 10112 of 16 tiles fits, one from 10240 does not; no tiles, with a tile size that is legal and one that is not; the refused fields. -/
theorem witness_TokenInstructions_bind :
    (∀ n ∈ [ring 10112 16 128, ring 0 0 128, ring 0 0 5, ring 0 1 0, ring 0 17 128, ring 64 2 128, ring 0 2 100, ring 10240 16 128, 2 ^ 18, 2 ^ 29, 2 ^ 49], Issues (.qBind (gr 3 2 0)) (engS (engV n)) (engV n) run ∧ (readA ((engS (engV n)).ctx (engV n) run (.qBind (gr 3 2 0))) (gr 3 2 0)).toNat = n) ∧
    ([ring 10112 16 128, ring 0 0 128].all (okRingB crew) = true ∧ [ring 0 0 5, ring 0 1 0, ring 0 17 128, ring 64 2 128, ring 0 2 100, ring 10240 16 128, 2 ^ 18, 2 ^ 29, 2 ^ 49].all (fun n => !okRingB crew n) = true) := by
  refine ⟨fun n hn => ?_, by decide +kernel⟩
  have h : [ring 10112 16 128, ring 0 0 128, ring 0 0 5, ring 0 1 0, ring 0 17 128, ring 64 2 128, ring 0 2 100, ring 10240 16 128, 2 ^ 18, 2 ^ 29, 2 ^ 49].all (fun n => issuesB (.qBind (gr 3 2 0)) (engS (engV n)) (engV n) run && (readA ((engS (engV n)).ctx (engV n) run (.qBind (gr 3 2 0))) (gr 3 2 0)).toNat == n) = true := by decide +kernel
  have h' := List.all_eq_true.mp h n hn
  rw [Bool.and_eq_true, beq_iff_eq] at h'
  exact ⟨issues_of h'.1, h'.2⟩
theorem witness_TokenInstructions_pop :
    let x3 := (engV 0).stream 3; let x0 := (engV 0).stream 0
    (x3.nt ≠ 0 ∧ Tab.getD x3.tiles x3.popNext .free = .filled) ∧ x0.nt = 0 ∧ Tab.getD ((engV 0).stream 4).tiles ((engV 0).stream 4).popNext .free ≠ .filled ∧ ({ lanes := 7, site := {}, on := .pop 3 9 } : Held).on = .pop 3 9 := by decide
/-- R278: tokens 0, 1, 2 count; 0 and 3 have SPECIAL, 1 ERR; R280: an unacceptable ring traps. -/
theorem test_tokens : writes (.tokTest (gr 9 0 2)) (engS (engV 0xFF)) = [(30009, 7 + 0x900 + 2 ^ 25)] ∧ writes (.tokTest (gr 9 0 2)) (engS (engV 8)) = [(30009, 7 + 0x900 + 2 ^ 25 + 2 ^ 32)] ∧
    traps (.qBind (gr 3 2 0)) (engS (engV (ring 64 2 128))) = some (4, 7) := by decide +kernel

/-! ## Commands -/

/-- The block that the command instructions find at the start of the crew's scratchpad. -/
def cmdS (n : Nat) (q0 : Nat := 0) : State := engS (engV 0) (blockCrew n) [(0, (List.range q0).map (fun i => { cmds := [], num := i }))]
/-- The block is read as it stands; the token is full or not. -/
def cmdReads (i : Instr) (n q0 : Nat) : Bool :=
  issuesB i (cmdS n q0) (engV 0) run && (blockAt i (cmdS n q0) (engV 0) 0xFE0000000000 false).any (fun r => decide (r.1 = n))
def fullB (t : Option (Nat × Nat)) : Bool := match t with | some (k, _) => decide (255 ≤ ((engV 0).token k).count) | none => false
theorem full_of (t : Option (Nat × Nat)) : Spec.full (engV 0) t ↔ fullB t = true := by
  unfold Spec.full
  cases t with
  | none => simp [fullB]
  | some x =>
    simp only [fullB, decide_eq_true_eq, Option.some.injEq]
    exact ⟨fun ⟨k, sc, h, hk⟩ => by rw [h]; exact hk, fun h => ⟨x.1, x.2, rfl, h⟩⟩
def tokC (t sc : Nat) : Nat := 4 + t * 8 + sc * 64
def tokM (t sc : Nat) : Nat := 32 + t * 64 + sc * 512
def tokD (t sc : Nat) : Nat := 16 + t * 32 + sc * 256
def slice (tag ix n : Nat) : Nat := 2 ^ 15 + ix * 2 ^ 16 + n * 2 ^ 21 + tag * 2 ^ 56
/-- Behind a store that waits at a line of another wave's, and behind none. -/
theorem witness_CommandInstructions_behind : [Instr.cpIssue (gr 0 1 0x100), .mxIssue (gr 0 1 0), .mxDrain (gr 0 1 0), .qFree (gr 0 0 0x104)].all (fun i => issuesB i (heldWrite (cmdS 0)) (engV 0) run) = true ∧
    (heldWrite (cmdS 0)).writesDone 7 = false ∧ (cmdS 0 31).writesDone 7 = true ∧ (engS (engV 1)).writesDone 7 = true := by decide +kernel
/-- A copy queue of 32 entries and of 31; blocks without a token, with a full one (1), with one that takes one more (2); a slice 1 of 2 and 31 of 32. -/
theorem witness_CommandInstructions :
    (cmdReads (.cpIssue (gr 0 1 0x100)) 0 32 && decide (32 ≤ ((cmdS 0 32).queue ((cmdS 0 32).coreOf (engV 0)) 0).length)) = true ∧
    [tokC 0 4, tokC 1 0, tokC 2 7, 0, slice 255 0 1, slice 0 31 31].all (fun n => cmdReads (.cpIssue (gr 0 1 0x100)) n 31) = true ∧
    [tokM 1 4, tokM 2 7, 0].all (fun n => cmdReads (.mxIssue (gr 0 1 0)) n 0 && Spec.fld n 4 1 == 0) = true ∧ [tokD 1 4, tokD 2 7, 0].all (fun n => cmdReads (.mxDrain (gr 0 1 0)) n 0) = true ∧
    issuesB (.mxZero (gr 0 0 1)) (cmdS 0) (engV 0) run = true ∧
    ([tokC 1 0].all (fun n => fullB (Spec.copyTok n)) && [tokC 0 4, tokC 2 7, 0, slice 255 0 1, slice 0 31 31].all (fun n => !fullB (Spec.copyTok n)) && fullB (Spec.mxTok (tokM 1 4)) && !fullB (Spec.mxTok (tokM 2 7)) &&
      fullB (Spec.drainTok (tokD 1 4)) && !fullB (Spec.drainTok (tokD 2 7))) = true ∧
    [slice 255 0 1, slice 0 31 31].all (fun n => Spec.fld n 15 1 == 1 && Spec.fld n 11 1 == 0 && decide (Spec.fld n 16 5 ≤ Spec.fld n 21 5 ∧ Spec.fld n 21 5 ≠ 0) && (blockCrew n).staging.isEmpty) = true := by decide +kernel

/-! ## Slots, accumulators, gangs -/

def storeCrew (ns na : Nat) (g : Option (Nat × Nat) := none) : Crew := { crew with slots := (List.range ns).map (fun i => (i, i)), accs := (List.range na).map (fun i => (i, i)), gang := g }
def gangS (b ns na : Nat) (g : Tab Gang := []) (own : Option (Nat × Nat) := none) : State := { engS (engV b) (storeCrew ns na own) with gangs := g, claims := [(9, 1), (9, 2)] }
/-- Claims of 17 slots and of 5 accumulators; of more than is left; of nothing; of all that is left. -/
theorem witness_StorageInstructions :
    (∀ e ∈ [(17, 0, 0), (5 * 32, 0, 0), (16, 1, 0), (32, 0, 4), (0, 16, 4), (15 + 3 * 32, 1, 1)], Issues (.omClaim (gr 9 0 2)) (gangS e.1 e.2.1 e.2.2) (engV e.1) run) ∧
    ((16 < 17 % 32 ∧ 4 < 5 * 32 / 32 % 8) ∧ (16 < (storeCrew 1 0).slots.length + 16 % 32 ∧ 4 < (storeCrew 0 4).accs.length + 32 / 32 % 8) ∧ ((storeCrew 16 4).slots.length ≤ 16 ∧ (storeCrew 16 4).accs.length ≤ 4) ∧
      ((storeCrew 1 1).slots.length + (15 + 3 * 32) % 32 ≤ 16 ∧ (storeCrew 1 1).accs.length + (15 + 3 * 32) / 32 % 8 ≤ 4)) ∧
    Issues (.omRel (gr 0 0 2)) (gangS 0x10001 2 1) (engV 0x10001) run ∧ (gangS 0x10001 2 1).crew? (engV 0).crew = some (storeCrew 2 1) := by
  refine ⟨fun e he => ?_, by decide, issues_of (by decide +kernel), by decide⟩
  have h : [(17, 0, 0), (5 * 32, 0, 0), (16, 1, 0), (32, 0, 4), (0, 16, 4), (15 + 3 * 32, 1, 1)].all (fun (e : Nat × Nat × Nat) => issuesB (.omClaim (gr 9 0 2)) (gangS e.1 e.2.1 e.2.2) (engV e.1) run) = true := by decide +kernel
  exact issues_of (List.all_eq_true.mp h e he)
def formed : Tab Gang := [(1, { size := 3, crews := [(0, 30), (1, 31), (2, 32)], formed := true })]
/-- A leave without a gang; position 3 of 3; the first join of 3, at position 2; joins of a crew with slots, and of a gang that is complete or of another size. -/
theorem witness_StorageInstructions_gang :
    (∀ e ∈ [(256 + 1, 0, []), (1 + 3 * 4 + 2 * 32, 0, []), (1 + 2 * 4 + 2 * 32, 0, []), (1 + 2 * 32, 1, []), (1 + 2 * 32, 0, formed), (1 + 32, 0, formed)], Issues (.mxGang (gr 9 0 2)) (gangS e.1 e.2.1 0 e.2.2) (engV e.1) run) ∧
    (3 ≤ (1 + 3 * 4 + 2 * 32) / 4 % 8 ∧ (1 + 2 * 4 + 2 * 32) / 4 % 8 = 2 ∧ (1 + 2 * 4 + 2 * 32) / 32 % 8 + 1 = 3) ∧ Tab.get? ([] : Tab Gang) (coreCluster 3 * 4 + 1) = none ∧ (Tab.get? formed (coreCluster 3 * 4 + 1)).any (·.formed) = true := by
  refine ⟨fun e he => ?_, by decide, by decide, by decide⟩
  have h : [(256 + 1, 0, []), (1 + 3 * 4 + 2 * 32, 0, []), (1 + 2 * 4 + 2 * 32, 0, []), (1 + 2 * 32, 1, []), (1 + 2 * 32, 0, formed), (1 + 32, 0, formed)].all (fun (e : Nat × Nat × Tab Gang) => issuesB (.mxGang (gr 9 0 2)) (gangS e.1 e.2.1 0 e.2.2) (engV e.1) run) = true := by decide +kernel
  exact issues_of (List.all_eq_true.mp h e he)
/-- R246, R261: claims that trap; slots 0, 1 and accumulator 0 held; a gang that is complete is BUSY. -/
theorem test_storage : traps (.omClaim (gr 9 0 2)) (gangS 17 0 0) = some (4, 7) ∧ traps (.omClaim (gr 9 0 2)) (gangS 16 1 0) = some (4, 6) ∧ writes (.omClaim (gr 9 0 2)) (gangS 0 2 1) = [(30009, 3 * 2 ^ 32 + 2 ^ 48)] ∧
    writes (.mxGang (gr 9 0 2)) (gangS (1 + 2 * 32) 0 0 formed) = [(30009, 7)] ∧ traps (.mxGang (gr 9 0 2)) (gangS (1 + 3 * 4 + 2 * 32) 0 0) = some (4, 6) := by decide +kernel

/-! ## What the engines do -/

def cmdEntry (o : CmdOp) (ph : Nat) (err : Option CmdErr := none) (accs : Tab Nat := []) : Entry := { cmds := [{ cmdOp o with accs := accs }], phase := ph, err := err, num := 5 }
def engQ (q : Nat) (l : List Entry) (v : Wave := engV 0) : State := { engS v crew [(q, l)] with accs := [(20, { rowMark := [3] }), (21, { els := [(0, 5)] })] }
def aloneB (s : State) (q : Nat) (e : Entry) (x : Cmd) (v : Wave) : Bool :=
  decide (s.queue 3 q = [e] ∧ e.cmds = [x] ∧ e.tile = none ∧ (s.obj x.by_.wave).gen = x.by_.wgen ∧ s.wave? x.by_.wave = some v ∧ v.held = [] ∧ x.part = none ∧ ∀ k ∈ s.cores, k.2.freeing = []) && (List.range 3).all (fun j => (s.headMark 3 j).isNone)
theorem alone_of {s : State} {q : Nat} {e : Entry} {x : Cmd} {v : Wave} (h : aloneB s q e x v = true) : Spec.alone s 3 q e x v := by
  simp only [aloneB, Bool.and_eq_true, decide_eq_true_eq, List.all_eq_true, List.mem_range, Option.isNone_iff_eq_none] at h
  exact ⟨h.1.1, h.1.2.1, h.1.2.2.1, h.1.2.2.2.1, h.1.2.2.2.2.1, h.1.2.2.2.2.2.1, h.1.2.2.2.2.2.2.1, h.1.2.2.2.2.2.2.2, h.2⟩
def cC : CmdOp := .copy (BitVec.ofNat 512 (tokC 0 4))
/-- Copy: to start, alone and with another behind; on a frozen core; refused, its process gone; performed, with no signal and with one; signalled. -/
theorem witness_QueueEvents_copy :
    ((engQ 0 [cmdEntry cC 0, cmdEntry .leave 0]).queue 3 0 = [cmdEntry cC 0, cmdEntry .leave 0] ∧ (cmdEntry cC 0).cmds = [cmdOp cC] ∧ Spec.fld (tokC 0 4) 11 1 = 0 ∧ (engQ 0 [cmdEntry cC 0]).engineRuns 3 = true ∧
      ({ engQ 0 [cmdEntry cC 0] with dies := [(0, { contained := true })] } : State).engineRuns 3 = false) ∧
    (aloneB { engQ 1 [cmdEntry cC 1 (some { code := 7, val := 9 })] with procs := [] } 1 (cmdEntry cC 1 (some { code := 7, val := 9 })) (cmdOp cC) (engV 0) = true ∧ (cmdEntry cC 1 (some { code := 7, val := 9 })).err.isSome = true) ∧
    (aloneB (engQ 0 [cmdEntry cC 2]) 0 (cmdEntry cC 2) (cmdOp cC) (engV 0) = true ∧ aloneB (engQ 0 [cmdEntry (.copy (BitVec.ofNat 512 (2 ^ 9))) 2]) 0 (cmdEntry (.copy (BitVec.ofNat 512 (2 ^ 9))) 2) (cmdOp (.copy (BitVec.ofNat 512 (2 ^ 9)))) (engV 0) = true ∧
      (engQ 0 [cmdEntry cC 2]).cmdWaits 5 = false) ∧ aloneB (engQ 1 [cmdEntry cC 4]) 1 (cmdEntry cC 4) (cmdOp cC) (engV 0) = true := by decide +kernel
def mM : CmdOp := .mx (BitVec.ofNat 512 (tokM 0 4))
def dD : CmdOp := .drain (BitVec.ofNat 512 (tokD 0 4))
/-- Matrix commands: M = 0, performed; a zero of accumulators 0 and 2; a drain of M = 0, performed. -/
theorem witness_QueueEvents_matrix :
    ((engQ 2 [cmdEntry mM 0]).engineRuns 3 = true ∧ Spec.fld (BitVec.ofNat 512 (tokM 0 4)).toNat 32 10 = 0 ∧ aloneB (engQ 2 [cmdEntry mM 1]) 2 (cmdEntry mM 1) (cmdOp mM) (engV 0) = true ∧ (cmdOp mM).part = none) ∧
    (aloneB (engQ 2 [cmdEntry (.zero 5) 0 none [(0, 20), (2, 21)]]) 2 (cmdEntry (.zero 5) 0 none [(0, 20), (2, 21)]) { cmdOp (.zero 5) with accs := [(0, 20), (2, 21)] } (engV 0) = true ∧
      (∀ k < 4, (5 : Nat).testBit k = true → (Tab.get? ([(0, 20), (2, 21)] : Tab Nat) k).isSome = true) ∧ (Tab.keys ([(0, 20), (2, 21)] : Tab Nat)).Nodup) ∧
    (Spec.fld (BitVec.ofNat 512 (tokD 0 4)).toNat 32 9 = 0 ∧ aloneB (engQ 2 [cmdEntry dD 1]) 2 (cmdEntry dD 1) (cmdOp dD) (engV 0) = true ∧ (engQ 2 [cmdEntry dD 1]).cmdWaits 5 = false) := by decide +kernel
def claimV (ns na : Nat) : Wave := { engV 0 with held := [{ lanes := 7, site := {}, on := .claim ns na 9 }] }
/-- A wave that holds nothing; grants of one slot, of all. -/
theorem witness_QueueEvents_grant : (engV 0).held = [] ∧ (let s : State := { engQ 2 [] (claimV 16 4) with claims := [(7, 7)] };
    s.crew? 6 = some crew ∧ crew.gang = none ∧ crew.place = .resident ∧ crew.slots = [] ∧ crew.accs = [] ∧ 16 ≤ s.freeSlots crew.core ∧ 4 ≤ s.freeAccs crew.core) := by decide +kernel
/-- R246: a grant of two slots and one accumulator; R276: a performed command's token falls from 2 to 1. -/
theorem test_engines : nextIs (execOmClaimGrant 7 { engQ 2 [] (claimV 2 1) with claims := [(7, 7)] }) (fun t => (t.wave? 7).any (fun v => v.sreg 9 == BitVec.ofNat 64 (3 * 2 ^ 8 + 2 ^ 24 + 3 * 2 ^ 32 + 2 ^ 48))) = true ∧
    nextIs (execCopyCommandPerformed 3 0 (engQ 0 [cmdEntry cC 2])) (fun t => (t.wave? 7).any (fun v => (v.token 0).count == 1)) = true := by decide +kernel

/-! ## Payloads -/

/-- A product at the corner of one accumulator, and one over two. -/
def plan1 : MxPlan := { gathered := false, ovw := true, wide := false, acc := 0, row0 := 0, col0 := 125, m := 1, n := 3, k := 32, rb := 1, cb := 1 }
def plan2 : MxPlan := { gathered := false, ovw := false, wide := true, acc := 0, row0 := 0, col0 := 0, m := 1, n := 130, k := 32, rb := 1, cb := 2 }
theorem witness_MatrixProduct : (plan1.wide = false ∧ plan1.row0 + plan1.m ≤ 128 ∧ plan1.col0 + plan1.n ≤ 128 ∧ 0 ∈ accsOf plan1.wide plan1.acc plan1.m plan1.n) ∧
    (plan2.wide = true ∧ plan2.m ≤ 256 ∧ plan2.n ≤ 256 ∧ 1 ∈ accsOf plan2.wide plan2.acc plan2.m plan2.n) := by decide
/-- A row mark, a column mark, and an element with neither. -/
def marked : Acc := { els := [(0, 0x3FC00000)], rowMark := [1], colMark := [5] }
theorem witness_DrainedElement : (1 ∈ marked.rowMark ∧ 5 ∈ marked.colMark) ∧ 0 ∉ marked.rowMark ∧ 0 ∉ marked.colMark ∧ RMode.rne ≠ .sr := by decide
/-- R260: 1.5 drains to bf16 0x3FC0; a marked element to the NaN of the format. -/
theorem test_drain : (drainElem marked 0 0 .bf16 .rne false 0).1 = 0x3FC0 ∧ drainElem marked 1 0 .bf16 .rne false 0 = (Fmt.bf16.nanCode, true, false, 0) ∧ (drainElem marked 0 0 (.int true 8) .rz false 0).1 = 1 := by decide +kernel
def words : Crew := { crew with scratch := (List.range 16).map (fun i => (i, BitVec.ofNat 32 (i * 0x01030507))) }
/-- Five bytes from 3 to 20, two elements of 16 from 0 to 32; none that overlap. -/
def copyS (k n src dst : Nat) : State := engS (engV 0) words [(0, [cmdEntry (.copy (Spec.lineCopy k n (0xFE0000000000 + src) (0xFE0000000000 + dst))) 1])]
theorem witness_CopyPayload : [(0, 5, 3, 20), (4, 2, 0, 32)].all (fun (k, n, src, dst) => decide (k ≤ 4 ∧ 0 < n ∧ n < 2 ^ 16 ∧ words.bytes ≤ 2 ^ 18 ∧ src % 2 ^ k = 0 ∧ dst % 2 ^ k = 0 ∧ (src + n * 2 ^ k ≤ dst ∨ dst + n * 2 ^ k ≤ src)) &&
    decide (src + n * 2 ^ k ≤ words.barOff ∧ dst + n * 2 ^ k ≤ words.barOff ∧ words.regions = [] ∧ words.spoison = []) && [src, dst].all (fun a => (List.range (n * 2 ^ k)).all (fun i => (Tab.get? words.scratch ((a + i) / 4)).isSome)) &&
    (copyS k n src dst).crew? 6 == some words && ((copyS k n src dst).obj 6).gen == 0 && ((copyS k n src dst).core 3).freeing.isEmpty) = true := by decide +kernel
/-- R271: five bytes. -/
theorem test_copy : nextIs (execCopyCommandPerformed 3 0 (copyS 0 5 3 20)) (fun t => (t.crew? 6).any (fun k => k.read 20 5 == words.read 3 5 && k.read 25 1 == words.read 25 1)) = true := by decide +kernel

end Sys2Proof.Tests
end

