-- ==== Sys2Proof/Tests/Errors.lean ====
section
/-!
SUPPORT. Sys2Proof/Tests/Errors.lean: directory requests, hosts, pages of other packages, errors, resets, the checks of a word, and the invariant: states
that meet the hypotheses of the statements about them, and results computed by hand from spec/10_coherence_across_dies_and_devices.md and spec/24_kernel_scheduler_host_and_ras_faults.md.
-/

namespace Sys2Proof.Tests

open Sys2Proof.Machine

set_option Elab.async false

/-! ## The directory -/

/-- Line 0x5000 is at 0x280000 of die 0. -/
def keyAt (d : Nat) : Nat := d * 2 ^ 64 + 0x5000
def copyOf (ex : Bool) (v : Nat) : RdcLine := { excl := ex, version := BitVec.ofNat 16 v, dirty := if ex then [(0x280003, 9), (0x280001, 0)] else [] }
def dirS (e : DirEntry) (rdc wb : Tab RdcLine := []) : State := { mach with dir := [(0x5000, e)], rdc := rdc, wbBuf := wb }
def quietB (s : State) (line : Nat) : Bool := decide (Tab.get? s.pages (line / 32) = none ∧ (s.dirOf line).state ≠ 2#2 ∧ (s.dirOf line).state ≠ 3#2 ∧ (s.dirOf line).host = false ∧ s.inflight = [])
/-- The home asks nobody; a quiet line; one that a host holds; the impossible state; an owner's copy and one whose version is old; no copy; a shared one. -/
theorem witness_Coherence :
    ((dirS {}).mayAsk 0 0x5000 = false ∧ (dirS {}).mayAsk 3 0x5000 = true ∧ (dirS {}).mayAsk 7 0x5000 = true) ∧ [({} : DirEntry), { sharers := 5, state := 1, version := 0xFFFF }].all (fun e => quietB (dirS e) 0x5000 && (dirS e).mayAsk 3 0x5000 && (dirS e).rdc.isEmpty) = true ∧
    (let s := dirS { host := true, state := 1, sharers := 2 }; s.mayAsk 3 0x5000 = true ∧ (s.dirOf 0x5000).host = true ∧ (s.dirOf 0x5000).state ≠ 2#2 ∧ (s.dirOf 0x5000).state ≠ 3#2 ∧ ∀ m ∈ s.inflight, m ≠ .bisnpResponse 0x5000) ∧
    ({ dirS { host := true } with inflight := [.bisnpResponse 0x5000] } : State).mayAsk 3 0x5000 = true ∧
    (let s := { dirS { host := true, version := 7 } with homeQ := [(0x5000, [(3, true)])] }; (s.dirOf 0x5000).host = true ∧ Tab.get? s.homeQ 0x5000 = some [(3, true)] ∧ Tab.get? (dirS { host := true }).homeQ 0x5000 = none ∧ (s.dirOf 0x5000).state = 0#2 ∧ s.rdc = [] ∧ s.inflight = [] ∧ Tab.get? s.pages (0x5000 / 32) = none) ∧
    ((dirS { state := 3 }).mayAsk 3 0x5000 = true ∧ ((dirS { state := 3 }).dirOf 0x5000).state = 3#2 ∧ (dirS { state := 3 }).inflight = []) ∧
    (let s := dirS { state := 2, owner := 3, version := 4 } [(keyAt 3, copyOf true 4)]; tracked (0x5000 * 128) = true ∧ Tab.get? s.rdc (keyAt 3) = some (copyOf true 4) ∧ Tab.get? s.wbBuf (keyAt 3) = none ∧ (s.dirOf 0x5000).state = 2#2 ∧ Memory.wf s.mem = true ∧ (Tab.keys (copyOf true 4).dirty).Nodup) ∧
    (let s := dirS { state := 2, owner := 3, version := 5 } [] [(keyAt 3, copyOf true 4)]; Tab.get? s.wbBuf (keyAt 3) = some (copyOf true 4) ∧ (s.dirOf 0x5000).version ≠ (copyOf true 4).version) ∧ Tab.get? (dirS {}).wbBuf (keyAt 8) = none ∧ Tab.get? (dirS {}).rdc (keyAt 3) = none ∧
    Tab.get? (dirS {} [(keyAt 3, copyOf false 1)]).rdc (keyAt 3) = some (copyOf false 1) ∧ ((dirS {}).cxlLine 0x5000 = false ∧
      (let s := { dirS {} [(3 * 2 ^ 64 + 0x20000005000, copyOf false 1)] with cxl := [0] }; s.cxlLine 0x20000005000 = true ∧ Tab.get? s.rdc (3 * 2 ^ 64 + 0x20000005000) = some (copyOf false 1) ∧ Memory.wf s.mem = true)) := by
  refine ⟨by decide +kernel, by decide +kernel, ⟨by decide +kernel, by decide, by decide, by decide, fun m hm => (List.not_mem_nil hm).elim⟩, by decide +kernel, by decide +kernel, by decide +kernel, by decide +kernel, by decide +kernel, by decide +kernel, by decide, by decide, by decide, by decide +kernel⟩
/-- R218, R220: a request for ownership raises version 0xFFFF to 0 and takes the sharers away; a current write-back stores the owner's bytes. -/
theorem test_coherence : nextIs (execReadForOwnership 3 0x5000 (dirS { sharers := 5, state := 1, version := 0xFFFF })) (fun t => let e := t.dirOf 0x5000; e.sharers == 0 && e.state == 2 && e.owner == 3 && e.version == 0) = true ∧
    nextIs (execRecall 0x5000 (dirS { state := 2, owner := 3, version := 4 } [(keyAt 3, copyOf true 4)])) (fun t => t.rd8 0x280003 == 9 && (Tab.get? t.rdc (keyAt 3)).isNone) = true ∧
    nextIs (execWriteBackAck 8 0x5000 (dirS {})) (fun t => (t.die 8).contained) = true := by decide +kernel

/-! ## Hosts and other packages -/

def hostS (cxl down : List Nat) (p : Bool) : State := { mach with cxl := cxl, host := { down := down }, dies := [(0, { regs := [(8, if p then 0x14 else 4)] })] }
def openB (s : State) (a n : Nat) : Bool :=
  (List.range n).all (fun i => tracked (a + i) && (Tab.get? s.pages ((a + i) / 4096)).isNone && (s.dirOf ((a + i) / 128)).state != 2#2 && s.winAt (a + i) == none) && s.locks.isEmpty && s.futures.isEmpty && decide (a + n ≤ 2 ^ 40) && Memory.wf s.mem && !s.poisoned a n
/-- No CXL, no die with PASS, a link that is down; ranges inside a line, over a line's end, at the end of the window; AtomicOps of each size. -/
theorem witness_HostAccesses :
    ((∀ p ∈ (hostS [1] [1] true).cxl, p ∈ (hostS [1] [1] true).host.down) ∧ (∀ k < 8, (hostS [1] [] false).passed k = false) ∧ 1 ∈ (hostS [1] [1] true).host.down) ∧ ((∃ p ∈ (hostS [1] [0] true).cxl, p ∉ (hostS [1] [0] true).host.down) ∧ 1 ∉ (hostS [1] [0] true).host.down ∧ (hostS [1] [0] true).passed 0 = true) ∧
    [(0x280000, 16), (0x28007F, 2), (2 ^ 40 - 3, 3)].all (fun e => openB (hostS [1] [0] true) e.1 e.2) = true ∧ [4, 8, 16].all (fun n => decide (0x10000280010 % n = 0) && openB (hostS [1] [0] true) (0x10000280010 % 2 ^ 40) n) = true := by decide +kernel
theorem test_hosts : nextIs (execHostBar2Write 1 0x28007F [7, 8] (hostS [1] [0] true)) (fun t => t.rd8 0x28007F == 7 && t.rd8 0x280080 == 8 && t.rd8 0x280081 == 0) = true ∧
    nextIs (execHostAtomicop 1 0x10000280010 0 4 5 0 (hostS [1] [0] true)) (fun t => t.rdN 0x280010 4 == 5) = true ∧ nextIs (execHostCxlMemRead 0x28007F 2 (hostS [1] [0] true)) (fun t => (t.dirOf 0x5000).host && (t.dirOf 0x5001).host) = true := by decide +kernel

def pageS (p : Option PageState) (regs : Tab W64 := []) : State := { mach with pages := match p with | some x => [(0x280, x)] | none => [], dies := [(0, { regs := regs })], ticks := 200000 }
/-- A package that was removed; a page without state; seven readers; thresholds 0 and 16; a pinned page; a window that has not ended and one that has; an owner that does not answer. -/
theorem witness_RemotePages :
    (2 ∈ ((pageS (some { gone := [5, 2] })).page 0x280).gone ∧ Tab.get? (pageS none).pages 0x280 = none) ∧ (let p : PageState := { readers := [3, 4, 5, 6, 7, 8, 9] }; p.gone = [] ∧ p.excl = none ∧ p.pinned = false ∧ p.readers ≠ [] ∧ p.readers.length < 8 ∧ 2 ∉ p.readers) ∧
    ((pageS none [(0x4000, 0)]).pcThresh 0x280 = 0 ∧ 1 < (pageS none).pcThresh 0x280) ∧ (let s := pageS (some { pinned := true, ops := 4, windowStart := 150000 }); s.pinOver 0x280 = false ∧ s.locks = [] ∧ Memory.wf s.mem = true ∧ 0x280010 % 4096 + 16 ≤ 4096 ∧
      (List.range 16).all (fun i => s.winAt (0x280010 % 2 ^ 40 + i) == none && (s.dirOf ((0x280010 % 2 ^ 40 + i) / 128)).state != 2#2) = true) ∧ openB (pageS none) 0x280010 16 = true ∧
    ((pageS (some { pinned := true, windowStart := 150000 })).tickOf 0 < 150000 + (pageS none).pcWindow 0x280 ∧ 100000 + (pageS none).pcWindow 0x280 ≤ (pageS (some { pinned := true, windowStart := 100000 })).tickOf 0 ∧ keyDie (0x280 * 4096) = 0) ∧
    ((pageS none).page 0x280).excl ≠ some 2 ∧ ((pageS (some { excl := some 2 })).page 0x280).excl = some 2 := by decide +kernel
/-- R221, R223: a reader joins; a pinned page stays pinned with 16 operations in its window and not with 15. -/
theorem test_remote : nextIs (execRemotePageRead 2 0x280010 (pageS (some { readers := [3] }))) (fun t => (t.page 0x280).readers == [3, 2]) = true ∧
    nextIs (execPagePinWindowEnd 0x280 (pageS (some { pinned := true, ops := 16 }))) (fun t => (t.page 0x280).pinned) = true ∧ nextIs (execPagePinWindowEnd 0x280 (pageS (some { pinned := true, ops := 15 }))) (fun t => !(t.page 0x280).pinned) = true := by decide +kernel

/-! ## Errors and resets -/

/-- Die d with given contents; the one wave is on die 1. -/
def errS (d : Nat) (x : Die) : State := { mach with dies := [(d, x)], crews := [(6, { crew with core := 256 + 3 })], ticks := 5000 }
def idleB (s : State) (sel : Nat → Bool) : Bool := s.waves.all (fun e => e.2.dead || !sel (s.coreOf e.2))
theorem idle_of {s : State} {sel : Nat → Bool} (h : idleB s sel = true) : Spec.idle s sel := fun e he => by
  have := List.all_eq_true.mp h e he
  simpa using this
/-- A scrub that is off and on, counters at their ends; the dies and clusters without a process; links that are down, draining and unknown; a stack without pages; a containment to clear. -/
theorem witness_Errors :
    ((errS 3 { regs := [(0xC0000, 0)] }).reg 3 0xC0000 = 0 ∧ (errS 3 {}).reg 3 0xC0000 ≠ 0 ∧ (errS 3 { regs := [(0xC0118, 0xFFFFFFFE00000007)] }).reg 3 (0xC0100 + 8 * 3) / 2 ^ 32 < 2 ^ 32 - 1 ∧ (errS 3 { regs := [(0xC0168, 0xFFFFFFFE)] }).reg 3 (0xC0100 + 8 * 13) % 2 ^ 32 < 2 ^ 32 - 1) ∧
    ((errS 2 {}).wave? 7 = some wave ∧ (errS 2 {}).dieOf wave = 1) ∧ (idleB (errS 2 {}) (fun c => c / 16 == 2 * 16 + 15) = true ∧ idleB (errS 2 {}) (fun c => c / 256 == 2) = true ∧ (errS 2 { regs := [(0x10, 13)] }).reg 2 0x10 = 8 + 5) ∧
    (Tab.get? (errS 2 {}).host.links 5 = none ∧ Tab.get? ([(5, 1)] : Tab Nat) 5 = some 1 ∧ 5 / 2 = 2 ∧ 5 / 2 ≠ 3) ∧ ({ errS 2 {} with procs := [] } : State).procsIn 2 (2 * 2 + 1) = [] ∧ ((errS 2 {}).die 2).cmdHeld = false := by decide +kernel
/-- An edge of a die, whatever the numbering of the edges is, and an edge of two other dies. -/
theorem witness_Errors_edges : 0 < 10 ∧ (∃ d, (edgeEnds 0).1 = d ∨ (edgeEnds 0).2 = d) ∧ ∃ d, (edgeEnds 0).1 ≠ d ∧ (edgeEnds 0).2 ≠ d :=
  ⟨by decide, ⟨_, .inl rfl⟩, ⟨(edgeEnds 0).1 + (edgeEnds 0).2 + 1, by omega, by omega⟩⟩
/-- R471, R472, R475: a correctable error is counted; a stack failure and a lockstep error contain the die; a host link that fails is down. -/
theorem test_errors : nextIs (execScrubTick 3 13 true 0x12345 (errS 3 {})) (fun t => t.reg 3 (0xC0100 + 8 * 13) == 1 && t.mpoison.isEmpty) = true ∧ nextIs (execScrubTick 3 3 false 0x12345 (errS 3 {})) (fun t => t.mpoison.contains 0x91A) = true ∧
    nextIs (execLockstep 2 1 (errS 2 { regs := [(0x10, 13)] })) (fun t => (t.die 2).contained && Spec.err t 2 == 0x32) = true ∧ nextIs (execHostLinkDown 1 (errS 2 {})) (fun t => t.host.down == [1]) = true ∧
    nextIs (execContclr 2 2 0x10000 (errS 2 { contained := true, clusters := [3] })) (fun t => !(t.die 2).contained && (t.die 2).clusters == [3]) = true := by decide +kernel
theorem test_resets : nextIs (execDieReset 1 (errS 1 { regs := [(0x20, 5)], contained := true })) (fun t => t.crews.isEmpty && !(t.die 1).contained && t.reg 1 0x20 == 0) = true ∧
    nextIs (execDiereset 2 1 0xD1E4 (errS 1 { contained := true })) (fun t => (t.die 1).contained) = true ∧ State.reset.reg 5 0x4000 = 16 + 100000 * 65536 ∧ State.reset.reg 5 0xC0028 = 300000 := by decide +kernel

/-- The last die; the code with other bits beside it, and another code. -/
theorem witness_Resets : (7 : Nat) < 8 ∧ (0x1D1E5#64).toNat % 2 ^ 16 = 0xD1E5 ∧ (0xD1E4#64).toNat % 2 ^ 16 ≠ 0xD1E5 := by decide

/-! ## The checks of a word, the invariant -/

/-- The wave with n instructions issued in its run. -/
def nth (n : Nat) : State := on { wave with nvregs := 16, run := some { run with issued := n } }
def nthV (n : Nat) : Wave := { wave with nvregs := 16, run := some { run with issued := n } }
def noS (f : LR) : LR := { f with s := false }
/-- A VRF instruction after another; an operand code in a field that is not used; the 25th instruction; a branch without S; register 40 of 16. -/
theorem witness_ChecksTrap :
    (∀ n ∈ [0, 3, 24], (nth n).issuer = some (nthV n, { run with issued := n })) ∧ (Instr.add (lr 1 2 3 0 0 true)).encodable = true ∧ (Instr.add (lr 1 2 3 0 0 true)).v1 = true ∧
    (let i := Instr.abs (noS (lr 1 2 3)); i.encodable = true ∧ checkRaw i.raw ≠ [] ∧ (∀ g ∈ checkRaw i.raw, g.cause < 8 ∧ g.sub < 256) ∧ (∃ f ∈ checkRaw i.raw, (f.cause = 1 ∨ f.cause = 2) ∧ ∀ g ∈ checkRaw i.raw, f.cause * 256 + f.sub ≤ g.cause * 256 + g.sub)) ∧
    (let i := Instr.add (noS (lr 1 2 3)); i.encodable = true ∧ checkRaw i.raw = [] ∧ i.v1 = false) := by
  refine ⟨by decide +kernel, by decide +kernel, by decide +kernel, ⟨by decide +kernel, by decide +kernel, by decide +kernel, ?_⟩, by decide +kernel⟩
  have h : (checkRaw (Instr.abs (noS (lr 1 2 3))).raw).any (fun f => decide ((f.cause = 1 ∨ f.cause = 2) ∧ ∀ g ∈ checkRaw (Instr.abs (noS (lr 1 2 3))).raw, f.cause * 256 + f.sub ≤ g.cause * 256 + g.sub)) = true := by decide +kernel
  obtain ⟨f, hf, h'⟩ := List.any_eq_true.mp h
  exact ⟨f, hf, of_decide_eq_true h'⟩
theorem witness_ChecksTrap_end :
    (let i := Instr.wvYield { gr 0 0 0 with s := false }; i.encodable && checkRaw i.raw == [] && endsRun i.raw && !i.sBit && !i.v1) = true ∧
    (let i := Instr.add (noS (lr 40 2 3)); (usesOf i.raw).any (fun u => ((nth 3).ctx (nthV 3) { run with issued := 3 } i).act.any (fun l => useOutside (nthV 3) u l)) && checkRaw i.raw == [] && !endsRun i.raw) = true := by decide +kernel
/-- R24, R27, R405, R411, R413. -/
theorem test_checks : nextIs (exec (.add (lr 1 2 3 0 0 true)) (nth 3)) (fun t => (t.wave? 7).any (fun v => v.run.any (·.ended) || v.run.isNone)) = true ∧ traps (.add (noS (lr 1 2 3))) (nth 24) = some (3, 1) ∧
    traps (.add (noS (lr 40 2 3))) (nth 3) = some (4, 3) ∧ traps (.unassignedOpcode 0x20000000 0 0) (nth 3) = some (1, 1) := by decide +kernel
theorem witness_NoInstruction : (nth 3).issuer = some (nthV 3, { run with issued := 3 }) ∧ wordV 0x20000000#32 = 2 ∧ wordV 0#32 < 2 := by decide +kernel
theorem witness_StepKeepsInvariant : mach.Inv ∧ nextIs (step mach) (fun _ => true) = true := ⟨by unfold State.Inv State.memOk; decide +kernel, by decide +kernel⟩

end Sys2Proof.Tests
end

