-- ==== Sys2Proof/Tests/Lane.lean ====
section
/-!
SUPPORT. Sys2Proof/Tests/Lane.lean: lane instructions: states and operands that meet the hypotheses of the statements about them, and results computed
by hand from spec/05_lane_instructions.md.
-/

namespace Sys2Proof.Tests

open Sys2Proof.Machine

set_option Elab.async false

/-- Operands of the three lanes: v1 INT_MIN, 7, 0xDEADBEEF; v2 all ones, 32, 0; v3 the fields (4, 8), none, (31, 31); v12 to v14 binary32;
v8 and v10 binary64, v16 a window distance. -/
def laneV : Wave :=
  wV (fun l =>
    [(1, [0x80000000, 7, 0xDEADBEEF].getD l 0), (2, [0xFFFFFFFF, 32, 0].getD l 0), (3, [0x804, 0x12345678, 0x1F1F].getD l 0),
     (4, [0x11111111, 0x22222222, 0xFFFFFFFF].getD l 0), (5, [0, 1, 0xFFFFFFFF].getD l 0), (6, 1), (7, 0),
     (9, [0x3FF80000, 0x7FF80000, 0x7FF00000].getD l 0), (8, [0, 1, 0].getD l 0), (11, [0x40040000, 0x3FF00000, 0xFFF00000].getD l 0),
     (12, [0x3FC00000, 0x7FC00001, 0x7F800000].getD l 0), (13, [0x40200000, 0x3F800000, 0xFF800000].getD l 0), (14, [0x3F800000, 0x80000000, 0].getD l 0),
     (16, [16, 0xFFFFFFF8, 0].getD l 0), (17, [0x39, 5, 47].getD l 0), (18, [0x30, 0x38, 0x2F].getD l 0)])
/-- The same with the 24th instruction of its run still to issue, and a run that begins with an interlocked instruction. -/
def laneR : Run := { run with issued := 23, temps := [(0, 5), (8, 6), (16, 0xFFFFFFFF)] }
def laneS : State := on { laneV with run := some laneR }
def laneI : State := on laneV

/-! ## Hypotheses that are met -/

theorem witness_LaneInteger :
    (∀ i ∈ Spec.int32.map (fun p => p.1 (lr 0x2F 1 3)), Issues i laneS { laneV with run := some laneR } laneR) ∧
    (∀ i ∈ Spec.int32.map (fun p => p.1 (lr 0x30 0x3A 0x39 0 0xFFFFFFFF true)), Issues i laneI laneV run) ∧
    (∀ i ∈ Spec.int32u.map (fun p => p.1 { lr 0x38 1 0x3F with g := 7 }), Issues i laneI laneV run) ∧
    (∀ i ∈ Spec.int32t.map (fun p => p.1 (lr 0 0x30 0x3B 0x38 63)), Issues i laneS { laneV with run := some laneR } laneR) :=
  ⟨issues_all (by decide +kernel), issues_all (by decide +kernel), issues_all (by decide +kernel), issues_all (by decide +kernel)⟩
theorem witness_LaneDivision : ∀ i ∈ [Instr.divI32 (lr 4 1 2), .divN32 (lr 4 1 2), .remI32 (lr 4 1 2), .remN32 (lr 4 1 2)], Issues i laneI laneV run :=
  issues_all (by decide +kernel)
theorem witness_LanePairs : ∀ i ∈ [Instr.addI64 (lr 0x2E 4 0x3A 0 0x80000000), .subI64 (lr 2 0x38 4), .mulWideI32 (lr 0x36 1 2), .mulWideN32 (lr 4 1 2)],
    Issues i laneI laneV run := issues_all (by decide +kernel)
theorem witness_LaneCompare : ∀ i ∈ [Instr.cmpI32 (lr 0x3F 1 2), .cmpN32 (lr 0 1 2), .cmpF32 (lr 0x37 12 13), .cmpF64 (lr 0x3A 8 10), .pr (lr 0x37 7 0), .pr (lr 0x29 2 0)],
    Issues i laneI laneV run := issues_all (by decide +kernel)
theorem witness_LanePredicates : Issues (.pr (lr 0x10 7 1)) laneI laneV run := issues_of (by decide +kernel)
theorem witness_LaneSelect : ∀ i ∈ [Instr.sel (lr 4 1 2 7), .sel (lr 4 1 2 0)], Issues i laneI laneV run := issues_all (by decide +kernel)
theorem witness_LaneFloat :
    (∀ i ∈ (Spec.flt2.map (·.1) ++ Spec.flt3.map (·.1)).map (fun p => p (lr 4 12 13)), Issues i laneI laneV run) ∧
    (∀ i ∈ Instr.fmaF64 (lr 4 8 10 8) :: Spec.dbl2.map (fun p => p.1 (lr 4 8 10)), Issues i laneI laneV run) ∧
    (∀ i ∈ Spec.flt1.map (fun p => p.1 (lr 4 12 0x3F)), Issues i laneI laneV run) :=
  ⟨issues_all (by decide +kernel), issues_all (by decide +kernel), issues_all (by decide +kernel)⟩
/-- Operands of the three clauses of FloatInvalid: a NaN, an infinity, and an infinity beside a zero. -/
theorem witness_FloatInvalid : (Fmt.f32.decode 0xFFC00000).isNan = true ∧ Fmt.f32.decode 0xFF800000 = .inf true ∧
    (∃ m e, Fmt.f32.decode 0x80000000 = .fin m 0 e) ∧ Fmt.f64.decode 0x7FF0000000000000 = .inf false ∧ (Fmt.bf16.decode 0x7F81).isNan = true ∧
    (∃ m e, Fmt.f16.decode 0 = .fin m 0 e) := by
  refine ⟨by decide +kernel, by decide +kernel, ⟨true, _, rfl⟩, by decide +kernel, by decide +kernel, ⟨false, _, rfl⟩⟩
/-- FloatRounding's guarded clauses: a finite rounded value, and a code with a value above and below. -/
theorem witness_FloatRounding : (∃ n m e, Fmt.f16.decode (Fmt.f16.round (.fin false 0x1801 (-11)) .rne false 0).1 = .fin n m e) ∧
    (Fmt.f16.decode 0x4200).cmp (.fin false 0x1801 (-11)) ≠ .gt ∧ (FVal.fin false 0x1801 (-11)).cmp (Fmt.f16.decode 0x4201) ≠ .gt := by
  refine ⟨⟨_, _, _, rfl⟩, by decide +kernel, by decide +kernel⟩
theorem witness_LaneConvert :
    (∀ i ∈ Spec.special.map (fun p => p.1 (lr 4 12 0x3F)), Issues i laneI laneV run) ∧
    (∀ i ∈ [Instr.cvt (lr 4 12 0x3F 0xC109), .cvt (lr 4 8 0x3F 0x4248), .cvt (lr 4 6 0x3F 0x206), .cvt (lr 4 1 0x3F (0x3F + 0x11 * 64)),
        .packP8 (lr 4 12 13 (9 + 0x24 * 64 + 4 * 4096 + 65536)), .packP8 (lr 4 12 13 (9 + 0x11 * 64 + 3 * 65536)),
        .unpackP8 (lr 4 1 0x3F (0x24 + 9 * 64 + 3 * 65536)), .unpackP8 (lr 4 1 0x3F (0x11 + 0xA * 64 + 4 * 4096 + 3 * 65536))], Issues i laneI laneV run) :=
  ⟨issues_all (by decide +kernel), issues_all (by decide +kernel)⟩
theorem witness_ConversionRules :
    (Fmt.f32.decode 0x80000000).isNan = false ∧ Fmt.f32.isInt = false ∧ (Fmt.f32.decode 0x7F800001).isNan = true ∧
    ((true, 8) : Bool × Nat) ≠ (false, 16) ∧ 0xFF < 2 ^ 8 := by
  decide +kernel
/-- Lanes 0 and 2 are members of k3, lane 1 is not; an instance of k3 is pending at another PC. -/
def crossV : Wave := { laneV with masks := [(3, 5)], vpoison := [1 * 256 + 3] }
def crossF (op : XOp) : LR :=
  match op with
  | .voteAny | .voteAll | .ballot | .redAdd | .matchV => lr 4 2 0x3F 3
  | .redMin => lr 4 2 0x3F 0x13
  | .redMax => lr 4 2 0x3F 0x23
  | _ => lr 4 2 1 3
theorem witness_CrossLaneIssue :
    (∀ i ∈ Spec.cross.map (fun p => p.1 (crossF p.2)), Issues i (on crossV) crossV run) ∧
    (∀ p ∈ Spec.cross, Spec.lends (crossF p.2) p.2 ((on crossV).ctx crossV run (p.1 (crossF p.2)))) ∧
    Spec.members (crossF .shflIdx) ((on crossV).ctx crossV run (.shflIdx (crossF .shflIdx))) = 5#64 := by
  refine ⟨issues_all (by decide +kernel), fun p hp => ?_, by decide +kernel⟩
  have : Spec.cross.all (fun p => ((on crossV).ctx crossV run (p.1 (crossF p.2))).lanes.all
      (fun l => !((on crossV).ctx crossV run (p.1 (crossF p.2))).v.vpoison.contains (l * 256 + ((on crossV).ctx crossV run (p.1 (crossF p.2))).v.winBase l + (crossF p.2).a.toNat))) = true := by
    decide +kernel
  intro _ _ l hl
  have := List.all_eq_true.mp (List.all_eq_true.mp this p hp) l hl
  simpa using this
/-- The members' arrivals of lanes 0 and 15 of a wave of width 16, mask 0x8009: lane 3 has exited. Sources 15 (a member), 1 (none), -1 and 16. -/
def arrivals : List Arrival :=
  [{ lane := 0, active := true, a := 7, b := 15, truth := true, d := 4, winBase := 0 }, { lane := 15, active := false, a := 9, b := 1, truth := true, d := 4, winBase := 8 }]
theorem witness_CrossLaneResults :
    (arrivals.map (·.lane)).Nodup ∧ (∀ x ∈ arrivals, (0x8009#64).getLsbD x.lane = true ∧ x.lane < 16) ∧
    (shflSrc .shflIdx 0 15 = (15 : Nat) ∧ (0x8009#64).getLsbD 15 = true) ∧ shflSrc .shflUp 0 1 < 0 ∧ (16 : Int) ≤ shflSrc .shflDown 15 1 ∧
    (0x8009#64).getLsbD (shflSrc .shflXor 0 1).toNat = false ∧ (shflSrc .shflIdx 0 3 = (3 : Nat) ∧ (0x8009#64).getLsbD 3 = true ∧ ∀ x ∈ arrivals, x.lane ≠ 3) := by decide +kernel
/-- 1.5 in lane 0 and 2.5 in lane 15, the only members of 0x8001. -/
def floats : List Arrival :=
  [{ lane := 0, active := true, a := 0x3FC00000, b := 0, truth := true, d := 4, winBase := 0 }, { lane := 15, active := true, a := 0x40200000, b := 0, truth := true, d := 4, winBase := 8 }]
theorem witness_ReduxResults :
    (arrivals.map (·.lane)).Nodup ∧ (∀ x ∈ arrivals, (0x8009#64).getLsbD x.lane = true ∧ x.lane < 16) ∧ Spec.offered 0x8009 16 arrivals 7 ∧ Spec.offered 0x8009 16 arrivals 0 ∧
    ((floats.map (·.lane)).Nodup ∧ (∀ x ∈ floats, (0x8001#64).getLsbD x.lane = true ∧ x.lane < 16 ∧ x.active = true ∧ (Fmt.f32.decode x.a.toNat).isNan = false) ∧
      ∀ l < 16, (0x8001#64).getLsbD l = true → l = 0 ∨ l = 15) := by
  refine ⟨by decide, by decide, .inl ⟨_, .head _, rfl, rfl⟩, .inr ⟨rfl, 3, by decide, by decide, by decide⟩, by decide, by decide +kernel, by decide⟩
def crossI (op : XOp) : LR := if op = .redMax then lr 4 2 0x3F 0x13 else crossF op
/-- A batch with no member among k3's lanes (lane 3 only), and one that holds all of them (lanes 0 to 2). -/
theorem witness_CrossLaneCompletes :
    (∀ i ∈ Spec.cross.map (fun p => p.1 (crossI p.2)), Issues i (on { crossV with masks := [(3, 8)] }) { crossV with masks := [(3, 8)] } run) ∧
    (∀ i ∈ Spec.cross.map (fun p => p.1 (crossI p.2)), Issues i (on { crossV with masks := [(3, 7)] }) { crossV with masks := [(3, 7)] } run) ∧
    run.pending = [] ∧ crossV.instances.all (fun i => i.pc != run.pc) = true ∧ crossV.width ≤ 64 ∧
    (Spec.cross.all fun p =>
      let c := fun m => (on { crossV with masks := [(3, m)] }).ctx { crossV with masks := [(3, m)] } run (p.1 (crossI p.2))
      (c 8).lanes.all (fun l => !(Spec.members (crossI p.2) (c 8)).getLsbD l) && (c 7).lanes.all (fun l => (Spec.members (crossI p.2) (c 7)).getLsbD l) &&
      (List.range 16).all (fun l => !(Spec.members (crossI p.2) (c 7)).getLsbD l || (c 7).lanes.contains l) && decide (xEty (crossI p.2).x < 2)) = true :=
  ⟨issues_all (by decide +kernel), issues_all (by decide +kernel), by decide, by decide, by decide, by decide +kernel⟩

/-- vget and vset: the wave in trap mode with a frozen run, and outside it. -/
def trapV : Wave := { laneV with inTrap := true, trapMask := 7, frozen := some { run with temps := [(0, 77), (9, 78)] } }
theorem witness_LaneControl :
    (∀ i ∈ [Instr.histAdd (lr 0 7 1 0x1F00), .histAdd (lr 0x30 18 1 0x720), .brp { s := true, v1 := false, g := 3, off := 0x20000 }, .vget (lr 4 0x3F 17),
        .vset (lr 0x3F 1 18), .winAdv (lr 0x3F 16 0x3F)], Issues i laneI laneV run) ∧
    (Issues (.histMerge (lr 4 0 0x3F 0xF00)) laneI laneV run ∧ xBins 0xF00 ≤ laneV.width) ∧
    (∀ l ∈ (laneI.ctx laneV run (.winAdv (lr 0x3F 16 0x3F))).act,
      let a := Spec.signed 32 (Spec.opA (lr 0x3F 16 0x3F) (laneI.ctx laneV run (.winAdv (lr 0x3F 16 0x3F))) l)
      a % 8 = 0 ∧ laneV.winBase l % 8 = 0 ∧ (if laneV.nvregs < 48 then (laneV.winBase l : Int) + a = 0 else 0 ≤ (laneV.winBase l : Int) + a ∧ (laneV.winBase l : Int) + a ≤ laneV.nvregs - 48)) ∧
    (∀ l ∈ (laneI.ctx laneV run (.vget (lr 4 0x3F 17))).act,
      let k := Spec.opB (lr 4 0x3F 17) (laneI.ctx laneV run (.vget (lr 4 0x3F 17))) l % 64
      k ≤ 0x39 ∧ (k < 0x30 → laneV.winBase l + k < laneV.nvregs ∧ laneV.vpoison.contains (l * 256 + laneV.winBase l + k) = false)) ∧
    (∀ l ∈ (laneI.ctx laneV run (.vset (lr 0x3F 1 18))).act,
      let k := Spec.opB (lr 0x3F 1 18) (laneI.ctx laneV run (.vset (lr 0x3F 1 18))) l % 64
      k ≤ 0x38 ∧ (k < 0x30 → laneV.winBase l + k < laneV.nvregs)) ∧
    (∀ i ∈ [Instr.vget (lr 4 0x3F 18), .vset (lr 0x3F 1 18)], Issues i (on trapV) trapV run) ∧ trapV.frozenTemps.isSome = true :=
  ⟨issues_all (by decide +kernel), ⟨issues_of (by decide +kernel), by decide +kernel⟩, by decide +kernel, by decide +kernel, by decide +kernel,
    issues_all (by decide +kernel), by decide +kernel⟩

/-! ## Results -/

/-- The values that an instruction writes in lanes 0, 1, 2, when it writes one register in each. -/
def vals (i : Instr) (s : State := laneI) : List Nat := (writes i s).map (·.2)
/-- R97, R98, R100, R105 on v1, v2 and v3: INT_MIN and -1, shift by 32, division by zero, fields that begin past bit 31. -/
theorem test_integer :
    ([(.add (lr 20 1 2), [2147483647, 39, 3735928559]),
   (.sub (lr 20 1 2), [2147483649, 4294967271, 3735928559]),
   (.mulLo (lr 20 1 2), [2147483648, 224, 0]),
   (.mulHiI32 (lr 20 1 2), [0, 0, 0]),
   (.mulHiN32 (lr 20 1 2), [2147483647, 0, 0]),
   (.minI32 (lr 20 1 2), [2147483648, 7, 3735928559]),
   (.minN32 (lr 20 1 2), [2147483648, 7, 0]),
   (.maxI32 (lr 20 1 2), [4294967295, 32, 0]),
   (.maxN32 (lr 20 1 2), [4294967295, 32, 3735928559]),
   (.and (lr 20 1 2), [2147483648, 0, 0]),
   (.or (lr 20 1 2), [4294967295, 39, 3735928559]),
   (.xor (lr 20 1 2), [2147483647, 39, 3735928559]),
   (.andn (lr 20 1 2), [0, 7, 3735928559]),
   (.shl (lr 20 1 2), [0, 0, 3735928559]),
   (.shr (lr 20 1 2), [0, 0, 3735928559]),
   (.sra (lr 20 1 2), [4294967295, 0, 3735928559]),
   (.rot (lr 20 1 2), [1073741824, 7, 3735928559]),
   (.divI32 (lr 20 1 2), [2147483648, 0, 4294967295]),
   (.divN32 (lr 20 1 2), [0, 0, 4294967295]),
   (.remI32 (lr 20 1 2), [0, 7, 3735928559]),
   (.remN32 (lr 20 1 2), [2147483648, 7, 3735928559]),
   (.bfe (lr 20 1 3), [0, 0, 1]),
   (.abs (lr 20 1 0x3F), [2147483648, 7, 559038737]),
   (.popc (lr 20 1 0x3F), [1, 3, 24]),
   (.clz (lr 20 1 0x3F), [0, 29, 0]),
   (.brev (lr 20 1 0x3F), [1, 3758096384, 4152210811]),
   (.mov (lr 20 1 0x3F), [2147483648, 7, 3735928559]),
   (.madLo (lr 20 1 2 3), [2147485700, 305420120, 7967]),
   (.bfi (lr 20 1 3 2), [4294963215, 32, 2147483648])] : List (Instr × List Nat)).all (fun p => decide (vals p.1 = p.2)) = true := by decide +kernel
/-- The rows of the three lanes: window bases 0, 8 and 0. -/
theorem test_rows : writes (.add (lr 20 1 0x38)) laneI = [(20, 0x80000000), (256 + 28, 7), (512 + 20, 0xDEADBEEF)] := by decide +kernel
/-- R99: 0x00000000_11111111 + sext(0x80000000), 0x1_22222222 and all ones; and the signed products of 0x80000000 and -1. -/
theorem test_pairs :
    vals (.addI64 (lr 20 4 0x3A 0 0x80000000)) = [0x91111111, 0xFFFFFFFF, 0xA2222222, 0, 0x7FFFFFFF, 0xFFFFFFFF] ∧
    vals (.subI64 (lr 20 0x38 4)) = [0xEEEEEEEF, 0xFFFFFFFF, 0xDDDDDDDE, 0xFFFFFFFE, 1, 0] ∧
    vals (.mulWideI32 (lr 20 1 2)) = [0x80000000, 0, 224, 0, 0, 0] ∧ vals (.mulWideN32 (lr 20 1 2)) = [0x80000000, 0x7FFFFFFF, 224, 0, 0, 0] := by decide +kernel
/-- R51, R102, R103: conditions of the three lanes as predicates; NaN is unordered and ne. -/
theorem test_compare :
    vals (.cmpI32 (lr 0x11 1 2)) = [1, 1, 1] ∧ vals (.cmpN32 (lr 0x11 1 2)) = [1, 1, 0] ∧ vals (.cmpF32 (lr 0x0A 12 13)) = [1, 1, 1] ∧
    vals (.cmpF32 (lr 0x39 12 13)) = [0, 1, 0] ∧ vals (.cmpF64 (lr 0x22 8 10)) = [0, 0, 1] ∧ vals (.pr (lr 0x19 7 6)) = [0, 1, 0] ∧
    vals (.sel (lr 20 1 2 7)) = [0xFFFFFFFF, 7, 0] := by decide +kernel
/-- R106, R107: 1.5 and 2.5; NaN and 1.0; +inf and -inf. -/
theorem test_float :
    vals (.addF32 (lr 20 12 13)) = [0x40800000, 0x7FC00000, 0x7FC00000] ∧ vals (.subF32 (lr 20 12 13)) = [0xBF800000, 0x7FC00000, 0x7F800000] ∧
    vals (.mulF32 (lr 20 12 13)) = [0x40700000, 0x7FC00000, 0xFF800000] ∧ vals (.fmaF32 (lr 20 12 13 14)) = [0x40980000, 0x7FC00000, 0xFF800000] ∧
    vals (.minF32 (lr 20 12 13)) = [0x3FC00000, 0x3F800000, 0xFF800000] ∧ vals (.maxF32 (lr 20 12 13)) = [0x40200000, 0x3F800000, 0x7F800000] ∧
    vals (.absF32 (lr 20 13 0x3F)) = [0x40200000, 0x3F800000, 0x7F800000] ∧ vals (.negF32 (lr 20 12 0x3F)) = [0xBFC00000, 0x7FC00000, 0xFF800000] := by decide +kernel
/-- The same of binary64: 1.5 and 2.5; NaN and 1.0; +inf and -inf; 1.5 * 2.5 + 1.5. -/
theorem test_double :
    vals (.addF64 (lr 20 8 10)) = [0, 0x40100000, 0, 0x7FF80000, 0, 0x7FF80000] ∧ vals (.mulF64 (lr 20 8 10)) = [0, 0x400E0000, 0, 0x7FF80000, 0, 0xFFF00000] ∧
    vals (.minF64 (lr 20 8 10)) = [0, 0x3FF80000, 0, 0x3FF00000, 0, 0xFFF00000] ∧ vals (.maxF64 (lr 20 8 10)) = [0, 0x40040000, 0, 0x3FF00000, 0, 0x7FF00000] ∧
    vals (.fmaF64 (lr 20 8 10 8)) = [0, 0x40150000, 0, 0x7FF80000, 0, 0x7FF80000] := by decide +kernel
/-- R109 on the halves (1.0, 2.0) of .bf16 and .f16. -/
theorem test_packed :
    vals (.add2Bf16 (lr 20 0x3A 0x3A 0 0x3F804000)) = [0x40004080, 0x40004080, 0x40004080] ∧ vals (.mul2Bf16 (lr 20 0x3A 0x3A 0 0x3F804000)) = [0x3F804080, 0x3F804080, 0x3F804080] ∧
    vals (.add2F16 (lr 20 0x3A 0x3A 0 0x3C004000)) = [0x40004400, 0x40004400, 0x40004400] ∧ vals (.mul2F16 (lr 20 0x3A 0x3A 0 0x3C004000)) = [0x3C004400, 0x3C004400, 0x3C004400] ∧
    vals (.fma2F16 (lr 20 0x3A 0x3A 0x38 0x3C004000)) = [0x3C004400, 0x3C004400, 0x3C004400] ∧
    vals (.fma2Bf16 (lr 20 0x3A 0x3A 0x38 0x3F804000)) = [0x3F804080, 0x3F804080, 0x3F804080] := by decide +kernel
/-- R113 of 1.0, -0 and 0. -/
theorem test_special :
    vals (.rcpF32 (lr 20 14 0x3F)) = [0x3F800000, 0xFF800000, 0x7F800000] ∧ vals (.rsqF32 (lr 20 14 0x3F)) = [0x3F800000, 0xFF800000, 0x7F800000] ∧
    vals (.sqrtF32 (lr 20 14 0x3F)) = [0x3F800000, 0x80000000, 0] ∧ vals (.ex2F32 (lr 20 14 0x3F)) = [0x40000000, 0x3F800000, 0x3F800000] ∧
    vals (.lg2F32 (lr 20 14 0x3F)) = [0, 0xFF800000, 0xFF800000] ∧ vals (.sinPiF32 (lr 20 14 0x3F)) = [0, 0x80000000, 0] ∧
    vals (.cosPiF32 (lr 20 14 0x3F)) = [0xBF800000, 0x3F800000, 0x3F800000] := by decide +kernel
/-- R110: cvt.i32.f32.rz of 1.5, NaN and +inf under SAT; cvt.f32.i32 of -1, 32 and 0. -/
theorem test_convert :
    vals (.cvt (lr 20 12 0x3F (9 + 4 * 64 + 4096 + 32768))) = [1, 0, 0x7FFFFFFF] ∧ vals (.cvt (lr 20 2 0x3F (4 + 9 * 64))) = [0xBF800000, 0x42000000, 0] := by decide +kernel
/-- R122, R123, R124: the histogram adds v1 of each lane to bin v7; the window bases move to 16, 0, 0; vget reads lid, v5, v47. -/
theorem test_control :
    writes (.histAdd (lr 20 7 1 0x700)) laneI = [(20, 0x80000000), (256 + 28, 7), (512 + 20, 0xDEADBEEF)] ∧
    vals (.vget (lr 20 0x3F 17)) = [0, 1, 0] ∧
    writes (.vset (lr 0x3F 1 18)) laneI = [(10000, 0x80000000), (512 + 47, 0xDEADBEEF)] ∧
    nextIs (exec (.winAdv (lr 0x3F 16 0x3F)) laneI) (fun t => ((t.wave? 7).bind (·.run)).any (fun r => decide (r.winNext = [(0, 16), (1, 0), (2, 0)]))) = true ∧
    traps (.winAdv (lr 0x3F 1 0x3F)) laneI = some (4, 7) := by decide +kernel
/-- R115: the three members of a shuffle arrive in one batch. -/
theorem test_cross :
    nextIs (exec (.shflUp (lr 20 2 0x3A 3 1)) (on { laneV with masks := [(3, 7)] })) (fun t => (t.wave? 7).any (fun v => v.instances.any (fun i => i.arrived.length == 3))) = true := by
  decide +kernel

end Sys2Proof.Tests
end

