-- ==== Sys2Proof/Tests/Memory.lean ====
section
/-!
SUPPORT. Sys2Proof/Tests/Memory.lean: translation, accesses, lane and uniform memory instructions, fences, bindings, waits, futures: states that meet
the hypotheses of the statements about them, and results computed by hand.
-/

namespace Sys2Proof.Tests

open Sys2Proof.Machine

set_option Elab.async false

/-! ## Addresses and translation -/

/-- The trap of an access, or none. -/
def refusedAs (x : Except Trap Target) : Option (Nat × Nat) := match x with | .error t => some (t.cause, t.sub) | _ => none
/-- Addresses at the edges of the clauses: the reserved ranges, the private size of 64, the crew's 3 granules, a window of no crew, the last global byte. -/
theorem witness_AddressSpaces :
    mach.crew? wave.crew = some crew ∧ ({ kind := 1, size := 8, align := 8 } : Acc0).globalOnly = false ∧ ({ kind := 1, size := 8, align := 8 } : Acc0).noCluster = false ∧
    ({ kind := 1, size := 8, align := 8 } : Acc0).noPriv = false ∧
    (0xFC0000000000 ≤ 0xFCFFFFFFFFFF ∧ 0xFCFFFFFFFFFF < 0xFD0000000000) ∧ 0xFE1000400000 ≤ 0xFE1000400000 ∧ (56 < 0x10000000000 ∧ 56 + 8 ≤ wave.priv) ∧
    (crew.grans * 4096 < 12281 + 8) ∧ (12276 + 8 ≤ crew.grans * 4096 ∧ (0xFE0000000000 + 12276) % 8 ≠ 0) ∧ (128 ≤ crew.grans * 4096 ∧ crew.grans * 4096 - 128 < 12160 + 8 ∧ 12160 + 8 ≤ crew.grans * 4096 ∧ (0xFE0000000000 + 12160) % 8 = 0) ∧
    (12152 + 8 ≤ crew.grans * 4096 - 128 ∧ crew.regions = []) ∧
    (∀ e ∈ mach.crews, ¬ (e.2.core = mach.coreOf wave / 16 * 16 + 0x3FFFF8 / 0x40000 ∧ e.2.proc = wave.proc ∧ e.2.place = .resident ∧ e.2.base * 4096 ≤ 0x3FFFF8 % 0x40000 ∧ 0x3FFFF8 % 0x40000 < (e.2.base + e.2.grans) * 4096)) ∧
    (0xFBFFFFFFFFFF < 0xFC0000000000 ∧ 0xFBFFFFFFFFFF % 8 ≠ 0) := by decide +kernel
/-- R429, R430 at those edges. -/
theorem test_spaces :
    ([(0xFCFFFFFFFFFF, some (0x20, 1)), (0xFE1000400000, some (0x20, 1)), (0xFD0000000038, none), (0xFD0000000040, some (0x20, 9)), (0xFD0000000034, some (0x21, 1)),
      (0xFE0000002FF8, some (0x26, 1)), (0xFE0000002F78, none), (0xFE0000003000, some (0x20, 9)), (0xFE10003FFFF8, some (0x20, 17)), (0x5004, some (0x21, 1)), (0x5008, none),
      (0x4000, some (0x22, 25)), (0x7000, some (0x23, 9))] : List (Nat × Option (Nat × Nat))).all
      (fun e => decide (refusedAs (mach.resolve wave 0 { kind := 1, size := 8, align := 8 } false e.1).1 = e.2)) = true := by decide +kernel
/-- A table at 0x11000 with a leaf of 1 GiB, one misaligned; at 0x12000 2 MiB leaves; a level-0 leaf; a table entry at level 3. -/
def tables : State :=
  { mach with mem := memWriteBytes mem 0x10008 [0x3F, 0, 0, 0, 0, 0, 0, 0] |> (memWriteBytes · 0x11008 [0x3F, 0, 0, 0x40, 0, 0, 0, 0]) |> (memWriteBytes · 0x11010 [0x3F, 0x10, 0, 0x40, 0, 0, 0, 0])
      |> (memWriteBytes · 0x12008 [0x3F, 0, 0x40]) |> (memWriteBytes · 0x12010 [0x3F, 0x10, 0x40]) |> (memWriteBytes · 0x13050 [1, 0, 0x40]) }
/-- Which walk an address takes: 0 to 3 no entry at that level, 4 to 6 illegal, 10 + the bits of a leaf. -/
def walked (a : Nat) : Nat := match tables.walk 0x10 a with | .bad n => n | .leaf _ _ b => 10 + b
theorem test_walk : [0x10000000000, 0x8000000000, 0xC0000000, 0x40000000, 0x80000000, 0x600000, 0x200000, 0x400000, 0xF000, 0x5FFF, 0xA000].map walked = [0, 4, 1, 40, 5, 2, 31, 5, 3, 22, 6] := by decide +kernel
theorem witness_PageWalk :
    let on := fun k => Spec.pte tables k % 2 = 1
    ¬ on (Spec.entryAt 0x10000 0 0x10000000000) ∧ (on (Spec.entryAt 0x10000 0 0x8000000000) ∧ Spec.pte tables (Spec.entryAt 0x10000 0 0x8000000000) / 2 % 8 ≠ 0) ∧
    (on (Spec.entryAt 0x10000 0 0x5000) ∧ on (Spec.entryAt 0x11000 1 0x5000) ∧ on (Spec.entryAt 0x12000 2 0x5000) ∧ on (Spec.entryAt 0x13000 3 0x5000)) ∧
    ¬ on (Spec.entryAt 0x11000 1 0xC0000000) ∧ ¬ on (Spec.entryAt 0x12000 2 0x600000) ∧ ¬ on (Spec.entryAt 0x13000 3 0xF000) ∧
    (on (Spec.entryAt 0x13000 3 0xA000) ∧ Spec.pte tables (Spec.entryAt 0x13000 3 0xA000) / 2 % 8 = 0) := by decide +kernel
def entry : TlbEntry := { asn := 7, base := 0x5000, size := 4096, leaf := 0x20103F }
/-- Leaves that allow all, read only, are .sys, and no leaf; an entry in the core's TLB, its cluster's or its die's. -/
theorem witness_Translation :
    mach.proc? 5 = some proc ∧ (∀ a ∈ [0x5000, 0x7000, 0x9FFF], (tlbHit (mach.core 3).tlb proc.asn.toNat a = none ∧ tlbHit (Tab.getD (mach.die 0).clTlb 0 []) proc.asn.toNat a = none ∧
      tlbHit (mach.die 0).llTlb proc.asn.toNat a = none ∧ (mach.die 0).walkc = []) ∧ mach.walkPoison proc.ptroot.toNat a = none) ∧
    (match mach.walk 0x10 0x5000, mach.walk 0x10 0x7000, mach.walk 0x10 0x9FFF with
      | .leaf e _ 12, .leaf e' _ 12, .leaf e'' _ 12 =>
        (e.getLsbD 11 == false && e.toNat / 256 % 4 == 0 && e.getLsbD 4 && e.getLsbD 1 && e.getLsbD 2 && e.getLsbD 3 && e.getLsbD 5 && e.toNat / 64 % 4 != 1 && !mach.homeAway 3 (Spec.frameOf e.toNat * 4096)) &&
        (e'.getLsbD 11 == false && e'.toNat / 256 % 4 == 0 && e'.getLsbD 4 && !e'.getLsbD 2) &&
        (e''.getLsbD 11 == false && e''.toNat / 256 % 4 == 0 && e''.getLsbD 4 && e''.getLsbD 1 && e''.toNat / 64 % 4 == 1)
      | _, _, _ => false) = true ∧ (match mach.walk 0x10 0x4000 with | .bad 3 => true | _ => false) = true ∧
    [([entry], [], []), ([], [(0, [entry])], []), ([], [], [entry])].all (fun (l : List TlbEntry × List (Nat × List TlbEntry) × List TlbEntry) =>
      let s : State := { mach with cores := [(3, { tlb := l.1 })], dies := [(0, { clTlb := l.2.1, llTlb := l.2.2 })] }
      [tlbHit (s.core 3).tlb 7 0x5008, tlbHit (Tab.getD (s.die 0).clTlb 0 []) 7 0x5008, tlbHit (s.die 0).llTlb 7 0x5008].find? (·.isSome) == some (some entry) &&
      !s.homeAway 3 (Spec.frameOf entry.leaf.toNat * 4096 + 8)) = true ∧
    entry.leaf.getLsbD 1 = true ∧ entry.leaf.toNat / 256 % 4 = 0 ∧ entry.leaf.toNat / 64 % 4 ≠ 1 := by decide +kernel

/-! ## Accesses -/

def ctxOf (s : State) (v : Wave) : Ctx := s.ctx v run (.nop (gr 0 0 0))
def glob (k : Nat) (ca : Nat := 0) : Phys := { key := k, ca := ca, gs := 0, leaf := 0 }
def hot : State := { mach with cores := [(3, { l1 := [(0x200000, { val := 1, dirty := true, wave := 7 }), (0x200001, { val := 2, dirty := false, wave := 7 })] })] }
theorem witness_Accesses :
    (mach.writeRefusal (glob 0x200000).key 16 = none ∧ (∀ i < 16, (mach.lockOf ((glob 0x200000).key + i)).isNone = true ∧ mach.zeroBlk ((glob 0x200000).key + i) = false) ∧ mach.poisoned (glob 0x200000).key 16 = false ∧
      mach.inflight = [] ∧ (glob 0x200000).pin = false ∧ (l1Lines (mach.core 3).l1).length + 16 ≤ 1024) ∧
    ((glob 0x1800000000000 2).ca = 2 ∧ Memory.wf mach.mem = true ∧ mach.writeRefusal 0x1800000000000 1 = none ∧ (∀ i < 16, tracked (0x1800000000000 + i) = false) ∧ mach.rdc = []) ∧
    (hot.poisoned 0x200000 2 = false ∧ ∀ i < 2, (hot.lockOf (0x200000 + i)).isNone = true ∧ hot.zeroBlk (0x200000 + i) = false ∧ (Spec.l1 hot (hot.coreOf (ctxOf hot wave).v) (0x200000 + i)).isSome = true) ∧
    ((ctxOf mach wave).w = mach.turn ∧ mach.wave? mach.turn = some wave ∧ 15 < wave.width) ∧
    (mach.crew? 6 = some crew ∧ crew.regionAt 12152 = none ∧ crew.spoison = [] ∧ 12152 + 8 ≤ crew.grans * 4096 - 128 ∧ ∀ e ∈ mach.waves, e.2.held = []) := by decide +kernel
theorem witness_WriteBack :
    Memory.wf hot.mem = true ∧ (Tab.keys (hot.core 3).l1).Nodup ∧
    (hot.core 3).l1.all (fun e => tracked e.1 && keyDie e.1 == 0 && (Tab.get? hot.pages (e.1 / 4096)).isNone && (hot.dirOf (e.1 / 128)).state != 2#2 && hot.winAt e.1 == none) = true := by decide +kernel
theorem witness_AtomicOperations : 4 ∈ [4, 8, 16] ∧ 0xFFFFFFFF < 2 ^ (8 * 4) ∧ 16 ∈ [4, 8, 16] ∧ 2 ^ 128 - 1 < 2 ^ (8 * 16) := by decide
/-- R159: all ones and 1 as 4 bytes: wrap, signed and unsigned orders, and a float sum of 1.0 and 1.0. -/
theorem test_atomics : (List.range 9).map (fun op => atomNew op 4 0xFFFFFFFF 1 0) = [0, 0xFFFFFFFF, 1, 1, 0xFFFFFFFF, 1, 0xFFFFFFFF, 0xFFFFFFFE, 1] ∧
    atomNew 9 4 0x3F800000 0x3F800000 0 = 0x40000000 ∧ atomNew 10 8 5 9 5 = 9 ∧ atomNew 10 8 5 9 6 = 5 := by decide +kernel

/-! ## Lane memory -/

/-- The checks of a lane instruction's accesses. -/
def laneRes (i : Instr) (f : LR) (kind : Nat) (s : State) (v : Wave) : List (Nat × Trap) × List (Nat × Nat × Target) × State :=
  s.resolveAll v { kind := kind, size := Spec.bytes (xSize f.x), align := Spec.bytes (xSize f.x) } ((s.ctx v run i).act.map (fun l => (l, laneAddr (s.ctx v run i) f l)))
theorem passes_of {i : Instr} {f : LR} {kind : Nat} {s : State} {v : Wave} (h : (laneRes i f kind s v).1.isEmpty = true) :
    Spec.passes (s.ctx v run i) f kind s (laneRes i f kind s v).2.1 (laneRes i f kind s v).2.2 :=
  Prod.ext (List.isEmpty_iff.mp h) rfl
/-- The values of outcomes that are all values. -/
def valuesOf : List (Nat × Except Trap Nat) → Option (List (Nat × Nat))
  | [] => some []
  | (l, .ok x) :: t => (valuesOf t).map ((l, x) :: ·)
  | _ :: _ => none
theorem valuesOf_eq : ∀ (a : List (Nat × Except Trap Nat)) (vals : List (Nat × Nat)), valuesOf a = some vals → a = vals.map (fun e => (e.1, Except.ok e.2))
  | [], vals, h => by cases h; rfl
  | (l, .ok x) :: t, vals, h => by
    simp only [valuesOf, Option.map_eq_some_iff] at h
    obtain ⟨w, hw, rfl⟩ := h
    rw [valuesOf_eq t w hw]; rfl
  | (l, .error x) :: t, vals, h => by simp [valuesOf] at h
def oldsOf : List (Nat × AtomOut) → Option (List (Nat × Nat))
  | [] => some []
  | (l, .old x) :: t => (oldsOf t).map ((l, x) :: ·)
  | _ :: _ => none
theorem oldsOf_eq : ∀ (a : List (Nat × AtomOut)) (vals : List (Nat × Nat)), oldsOf a = some vals → a = vals.map (fun e => (e.1, AtomOut.old e.2))
  | [], vals, h => by cases h; rfl
  | (l, .old x) :: t, vals, h => by
    simp only [oldsOf, Option.map_eq_some_iff] at h
    obtain ⟨w, hw, rfl⟩ := h
    rw [oldsOf_eq t w hw]; rfl
  | (l, .waits) :: t, vals, h => by simp [oldsOf] at h
  | (l, .late x) :: t, vals, h => by simp [oldsOf] at h
  | (l, .refused x) :: t, vals, h => by simp [oldsOf] at h

/-- Addresses of the three lanes in the pair v0, v1: the first in 0x5FF0 (the last 16 bytes of a page), the others below; data in v4 to v11. -/
def memV : Wave := { wV (fun l => [(0, 0x5FF0 - 16 * l), (1, 0), (4, 0x80818283), (5, 7), (6, l), (8, 0), (9, 0), (10, 3)]) with ackcnt := 65532 }
/-- Addresses in private memory, in the scratchpad, in a read-only page, and misaligned. -/
def memW (b : Nat → Nat) : Wave := wV (fun l => [(0, b l % 2 ^ 32), (1, b l / 2 ^ 32), (4, 0x80818283), (5, 7)])
def badV : Wave := memW (fun l => [0x5000, 0x7000, 0x5001].getD l 0)
def badI : State := on badV
def memS : State := { on memV with mem := mem ++ [(0x200FF0, 0x80), (0x200FF1, 0x81), (0x800001000, 5)] }

/-- An instruction issues, its accesses pass, and what it then does has no failure. -/
def ldMeets (s : State) (v : Wave) (f : LR) : Bool :=
  let p := laneRes (.ld f) f 0 s v
  issuesB (.ld f) s v run && p.1.isEmpty && !p.2.2.futFlying p.2.2.turn (Spec.bytes (xSize f.x)) (p.2.1.map (·.2.2)) && (valuesOf (Spec.loads (s.ctx v run (.ld f)) (Spec.bytes (xSize f.x)) p.2.1 p.2.2).1).isSome
theorem ldMeets_iff {s : State} {v : Wave} {f : LR} (h : ldMeets s v f = true) : ∃ (ok : List (Nat × Nat × Target)) (s1 s2 : State) (vals : List (Nat × Nat)),
    Issues (.ld f) s v run ∧ Spec.passes (s.ctx v run (.ld f)) f 0 s ok s1 ∧ Spec.clearOf s1 f ok ∧
    Spec.loads (s.ctx v run (.ld f)) (Spec.bytes (xSize f.x)) ok s1 = (vals.map (fun e => (e.1, Except.ok e.2)), s2) := by
  simp only [ldMeets, Bool.and_eq_true, Bool.not_eq_true'] at h
  obtain ⟨vals, hv⟩ := Option.isSome_iff_exists.mp h.2
  exact ⟨_, _, _, vals, issues_of h.1.1.1, passes_of h.1.1.2, h.1.2, Prod.ext (valuesOf_eq _ _ hv) rfl⟩
/-- Sign extension of bytes; 128 bits at a negative offset; the scratchpad and private memory. -/
theorem witness_LaneMemory_ld :
    (∀ f ∈ [lr 4 0 0x3F (xMem 0 0 1), lr 4 0 0x3F (xMem (65536 - 16) 4 0 4)], ldMeets memS memV f = true) ∧
    ldMeets (on (memW (fun l => 0xFE0000002F70 + l * 4))) (memW (fun l => 0xFE0000002F70 + l * 4)) (lr 4 0 0x3F (xMem 0 2)) = true ∧
    ldMeets (on (memW (fun _ => 0xFD0000000038))) (memW (fun _ => 0xFD0000000038)) (lr 4 0 0x3F (xMem 0 3)) = true := by decide +kernel
def stMeets (s : State) (v : Wave) (f : LR) (fits : Bool) : Bool :=
  let p := laneRes (.st f) f 1 s v
  let c := s.ctx v run (.st f)
  let g := storeAll c (Spec.bytes (xSize f.x)) (fun l => readGroup c f.ow l f.b.toNat (laneGroup (xSize f.x))) (fun l => dataPoisoned c l f.b.toNat (laneGroup (xSize f.x))) p.2.1 p.2.2
  issuesB (.st f) s v run && p.1.isEmpty && g.1.isEmpty && g.2.1.isEmpty && !p.2.2.futFlying p.2.2.turn (Spec.bytes (xSize f.x)) (p.2.1.map (·.2.2)) && (decide (v.ackcnt + (counted false p.2.1).length ≤ 65535) == fits)
/-- Lane stores; three lanes at host memory that fit the counter, and that do not. -/
theorem witness_LaneMemory_st : stMeets memS memV (lr 0x3F 0 4 (xMem 0 4)) true = true ∧
    stMeets (on { memW (fun l => 0xE000 + 32 * l) with ackcnt := 65532 }) { memW (fun l => 0xE000 + 32 * l) with ackcnt := 65532 } (lr 0x3F 0 4 (xMem 0 3)) true = true ∧
    stMeets (on { memW (fun l => 0xE000 + 32 * l) with ackcnt := 65533 }) { memW (fun l => 0xE000 + 32 * l) with ackcnt := 65533 } (lr 0x3F 0 4 (xMem 0 3)) false = true := by decide +kernel
def pollMeets (s : State) (v : Wave) (f : LR) : Bool :=
  let p := laneRes (.ldPoll f) f 0 s v
  let c := s.ctx v run (.ldPoll f)
  let g := p.2.1.foldl (fun acc e => let (x, s') := acc.2.pollRead c e.1 e.2.1 (Spec.bytes (xSize f.x)) (xScope f.x) e.2.2; (acc.1 ++ [(e.1, x)], s')) (([] : List (Nat × Except Trap Nat)), p.2.2)
  issuesB (.ldPoll f) s v run && p.1.isEmpty && !p.2.2.futFlying p.2.2.turn (Spec.bytes (xSize f.x)) (p.2.1.map (·.2.2)) &&
    (match valuesOf g.1 with
     | some vals => decide (p.2.1.map (·.1) = vals.map (·.1)) && vals.all (fun e => !(e.2 == readGroup c f.ow e.1 f.b.toNat (laneGroup (xSize f.x)) % 2 ^ (8 * Spec.bytes (xSize f.x))))
     | none => false)
theorem witness_LaneMemory_poll : pollMeets memS memV (lr 6 0 4 (xMem 0 2 0 2)) = true ∧ pollMeets memS memV (lr 6 0 4 (xMem 8 3 0 4)) = true := by decide +kernel
def atomMeets (i : LR → Instr) (op : Nat) (ret : Bool) (s : State) (v : Wave) (f : LR) : Bool :=
  let p := laneRes (i f) f 2 s v
  let c := s.ctx v run (i f)
  let g := laneGroup (xSize f.x)
  let grp := fun l code => (List.range g).foldl (fun a i => a + (readLane c f.ow l (code + i)).toNat * 2 ^ (32 * i)) 0
  let o := atomAll c (Spec.bytes (xSize f.x)) op (xScope f.x) (fun l => if op = 10 then grp l (f.b.toNat + g) else readGroup c f.ow l f.b.toNat g) (fun l => if op = 10 then grp l f.b.toNat else 0)
    (fun l => if ret then some ((laneWrites c f.v1 l f.d.toNat g 0).map (·.loc)) else none) p.2.1 p.2.2
  issuesB (i f) s v run && p.1.isEmpty && (oldsOf o.1).isSome && !p.2.2.futFlying p.2.2.turn (Spec.bytes (xSize f.x)) (p.2.1.map (·.2.2)) && decide (v.ackcnt + (counted true p.2.1).length ≤ 65535)
theorem witness_LaneMemory_atomics :
    (∀ op ∈ List.range 10, atomMeets .atom op true memS memV (lr 6 0 4 (xMem 0 2 0 2 op)) = true) ∧ atomMeets .cas128 10 true memS memV (lr 12 0 4 (xMem 0 4)) = true ∧
    atomMeets .cas128 10 true memS memV (lr 12 0 4 (xMem 0 2)) = true ∧ atomMeets .atomNr 8 false memS memV (lr 0x3F 0 4 (xMem 0 3 0 1 8)) = true := by decide +kernel
/-- A future operation of the wave is on its way to the granule that lane 0 accesses. -/
def flyS : State := { memS with inflight := [.futureOpAtHome 7 0 9 .rd 0x200FF0 2 0x5FF0 0 0 0 0] }
theorem witness_LaneMemory_flying :
    [(Instr.ld, 0), (.st, 1), (.ldPoll, 0), (.atom, 2), (.atomNr, 2), (.cas128, 2)].all (fun p =>
      let f := lr (if p.2 = 1 ∨ p.1 (lr 6 0 4) = .atomNr (lr 6 0 4) then 0x3F else 12) 0 (if p.1 (lr 6 0 4) = .ld (lr 6 0 4) then 0x3F else 4) (xMem 0 2)
      let q := laneRes (p.1 f) f p.2 flyS memV
      issuesB (p.1 f) flyS memV run && q.1.isEmpty && q.2.2.futFlying 7 4 (q.2.1.map (·.2.2))) = true := by decide +kernel
/-- Every lane at the last aligned place of its private memory; b of ld.poll differs from what is there. -/
def privV : Wave := memW (fun _ => 0xFD0000000038)
theorem witness_PrivateAccesses :
    [Instr.ld (lr 12 0 0x3F (xMem 0 3)), .ldPoll (lr 12 0 4 (xMem 0 3)), .st (lr 0x3F 0 4 (xMem 0 3)), .atom (lr 12 0 4 (xMem 0 3)), .atomNr (lr 0x3F 0 4 (xMem 0 3)), .cas128 (lr 12 0 4 (xMem 0 3))].all (fun i =>
      issuesB i (on privV) privV run) = true ∧ privV.ackcnt ≤ 65535 ∧
    (let f := lr 12 0 4 (xMem 0 3); let c := (on privV).ctx privV run (.ldPoll f)
     c.act.all (fun l => decide (laneAddr c f l = (false, 0xFD0000000038) ∧ privV.privRead l (Spec.privAt c f l) 8 ≠ readGroup c f.ow l f.b.toNat 2 % 2 ^ 64)) = true) ∧
    (0xFD0000000038 + 8 ≤ 0xFD0000000000 + privV.priv ∧ privV.priv ≤ 2 ^ 40 ∧ 0xFD0000000038 % 8 = 0) := by decide +kernel
/-- Two of three lanes fail their checks, with different causes. -/
theorem witness_LaneMemory_checks :
    [(Instr.ld, 0), (.st, 1), (.atom, 2)].all (fun p => let f := lr (if p.2 = 1 then 0x3F else 6) 0 (if p.2 = 0 then 0x3F else 4) (xMem 0 2); issuesB (p.1 f) badI badV run &&
      !(laneRes (p.1 f) f p.2 badI badV).1.isEmpty) = true := by decide +kernel
theorem witness_StoreFrame :
    let p := laneRes (.st (lr 0x3F 0 4 (xMem 0 4))) (lr 0x3F 0 4 (xMem 0 4)) 1 memS memV
    Memory.wf p.2.2.mem = true ∧ (p.2.1.all (fun e => match e.2.2 with | .glob q => !q.pin | _ => false)) = true ∧
    (p.2.2.inflight = [] ∧ p.2.2.rdc = [] ∧ (l1Lines (p.2.2.core (memS.coreOf memV)).l1).length + 128 ≤ 1024) ∧
    nextIs (exec (.st (lr 0x3F 0 4 (xMem 0 4))) memS) (fun _ => true) = true ∧ (0x200FF0 + 16 ≤ 0x201000) := by decide +kernel

def pwV (w : List (Nat × PWin)) : Wave := { wV (fun l => [(0, 16 + 4 * l), (1, 0)]) with pwin := w }
/-- The bytes that ldp reads. -/
def pwRes (v : Wave) (f : LR) (base : Nat) : List (Nat × Trap) × List (Nat × Nat × Target) × State :=
  (on v).resolveAll v { kind := 0, size := 1, align := 1, globalOnly := true } (((on v).ctx v run (.ldp f)).act.flatMap (fun l => (List.range 4).map (fun k =>
    (l, false, base + (((Spec.opA f ((on v).ctx v run (.ldp f)) l : Int)) + Spec.signed 16 (f.x.toNat % 2 ^ 16)).toNat + k))))
def warm : State := ((on badV).translate 3 5 0x5000 0 false false).2
theorem witness_LaneMemoryRest :
    (issuesB (.pf (lr 0x3F 0 0x3F)) (on (memW (fun _ => 0xFE0000000000))) (memW (fun _ => 0xFE0000000000)) run &&
      ((on (memW (fun _ => 0xFE0000000000))).ctx (memW (fun _ => 0xFE0000000000)) run (.pf (lr 0x3F 0 0x3F))).act.all (fun l => decide (0xFC0000000000 ≤ (laneAddr ((on (memW (fun _ => 0xFE0000000000))).ctx (memW (fun _ => 0xFE0000000000)) run (.pf (lr 0x3F 0 0x3F))) (lr 0x3F 0 0x3F) l).2))) = true ∧
    (let v := memW (fun l => 0x5000 + 64 * l); let s := { warm with waves := [(7, v)] }
     issuesB (.pf (lr 0x3F 0 0x3F)) s v run && (s.ctx v run (.pf (lr 0x3F 0 0x3F))).act.all (fun l => (tlbHit (s.core (s.coreOf v)).tlb proc.asn.toNat (laneAddr (s.ctx v run (.pf (lr 0x3F 0 0x3F))) (lr 0x3F 0 0x3F) l).2).isSome) && decide ((l1Lines (s.core (s.coreOf v)).l1).length + 256 ≤ 1024)) = true ∧
    (issuesB (.ldp (lr 4 0 0x3F (xMem 0 2 0 0 0 7))) (on (pwV [])) (pwV []) run && ((on (pwV [])).ctx (pwV []) run (.ldp (lr 4 0 0x3F (xMem 0 2 0 0 0 7)))).act != []) = true ∧
    (let v := pwV [(2, { base := 0x5000, size := 16 })]; let f := lr 4 0 0x3F (xMem 0 2 0 0 0 2)
     issuesB (.ldp f) (on v) v run && decide (Tab.get? v.pwin (xWin f.x) = some { base := 0x5000, size := 16 }) && ((on v).ctx v run (.ldp f)).act.all (fun l => decide (16 ≤ Spec.opA f ((on v).ctx v run (.ldp f)) l))) = true ∧
    (let v := pwV [(2, { base := 0x5000, size := 28 })]; let f := lr 4 0 0x3F (xMem 0 2 0 0 0 2); let p := pwRes v f 0x5000
     issuesB (.ldp f) (on v) v run && p.1.isEmpty && !p.2.2.futFlying 7 1 (p.2.1.map (·.2.2)) && (valuesOf (Spec.loads ((on v).ctx v run (.ldp f)) 1 p.2.1 p.2.2).1).isSome &&
       ((on v).ctx v run (.ldp f)).act.all (fun l => decide (Spec.opA f ((on v).ctx v run (.ldp f)) l + 4 ≤ 28))) = true := by decide +kernel
/-- R152: bytes 0x80 of lane 0 loaded with sign; R157: an ldp at the end of its window. -/
theorem test_load : writes (.ld (lr 4 0 0x3F (xMem 0 0 1))) memS = [(4, 0xFFFFFF80), (256 + 12, 0), (512 + 4, 0)] ∧ writes (.ld (lr 4 0 0x3F (xMem 0 1))) memS = [(4, 0x8180), (256 + 12, 0), (512 + 4, 0)] ∧
    traps (.st (lr 0x3F 0 4 (xMem 0 2))) badI = some (0x21, 1) ∧ traps (.ldp (lr 4 0 0x3F (xMem 0 2 0 0 0 7))) (on (pwV [])) = some (5, 7) := by decide +kernel
/-- R154, R159: the store of lane 1 stands in the core's L1 and not in memory; an add returns the old value. -/
theorem test_store :
    nextIs (exec (.st (lr 0x3F 0 4 (xMem 0 2))) memS) (fun t => (List.range 4).map (fun i => (Spec.l1 t 3 (0x200FE0 + i)).map (·.toNat)) == [some 0x83, some 0x82, some 0x81, some 0x80] && t.rd8 0x200FE0 == 0) = true ∧
    (writes (.atom (lr 6 0 5 (xMem 0 2 0 2 0))) memS).map (·.2) = [0x8180, 0, 0] := by decide +kernel

/-! ## Uniform memory -/

def uniMemV (a : Nat) : Wave := wS [(1, a), (2, 0x1122334455667788), (3, 5), (4, 6), (5, 7), (6, 8)]
/-- Where a uniform access goes; no future operation is on its way. -/
def uniRes (i : Instr) (f : GR) (kind a : Nat) : Option Target := match (Spec.uniTarget ((on (uniMemV a)).ctx (uniMemV a) run i) f kind (on (uniMemV a))).1 with | .ok t => some t | _ => none
theorem witness_UniformMemory :
    (∀ a ∈ [0x5FF0, 0xFE0000000000], (issuesB (.sld (gr 62 1 0 (xMem 0 4))) (on (uniMemV a)) (uniMemV a) run && (uniRes (.sld (gr 62 1 0 (xMem 0 4))) (gr 62 1 0 (xMem 0 4)) 0 a).isSome &&
      issuesB (.sst (gr 0 1 2 (xMem 0 3))) (on (uniMemV a)) (uniMemV a) run && (uniRes (.sst (gr 0 1 2 (xMem 0 3))) (gr 0 1 2 (xMem 0 3)) 1 a).isSome &&
      issuesB (.satom (gr 9 1 3 (xMem 0 2 0 2 7))) (on (uniMemV a)) (uniMemV a) run && (uniRes (.satom (gr 9 1 3 (xMem 0 2 0 2 7))) (gr 9 1 3 (xMem 0 2 0 2 7)) 2 a).isSome &&
      issuesB (.satom (gr 9 1 3 (xMem 0 4 0 4 10))) (on (uniMemV a)) (uniMemV a) run && (uniRes (.satom (gr 9 1 3 (xMem 0 4 0 4 10))) (gr 9 1 3 (xMem 0 4 0 4 10)) 2 a).isSome) = true) ∧
    (match uniRes (.satom (gr 9 1 3 (xMem 0 2 0 4 1))) (gr 9 1 3 (xMem 0 2 0 4 1)) 2 0xE000 with
      | some (.glob p) => p.ca == 2 && (mach.lockOf p.key).isNone && completerHas p 1 4 == false
      | _ => false) = true ∧ issuesB (.satom (gr 9 1 3 (xMem 0 2 0 4 1))) (on (uniMemV 0xE000)) (uniMemV 0xE000) run = true ∧
    uniRes (.sst (gr 0 1 2 (xMem 0 3))) (gr 0 1 2 (xMem 0 3)) 1 0x7000 = none ∧ (on (uniMemV 0x5FF0)).inflight = [] := by
  decide +kernel
/-- An access to a future that is on its way; private memory: a pair at its last place. -/
theorem witness_UniformMemory_flying_private :
    (let v := uniMemV 0x5FF0; let s : State := { on v with inflight := flyS.inflight }
     [(Instr.sld (gr 9 1 0 (xMem 0 3)), gr 9 1 0 (xMem 0 3), 0), (.sst (gr 0 1 2 (xMem 0 3)), gr 0 1 2 (xMem 0 3), 1), (.satom (gr 9 1 3 (xMem 0 2 0 2 7)), gr 9 1 3 (xMem 0 2 0 2 7), 2)].all (fun p =>
       let q := Spec.uniTarget (s.ctx v run p.1) p.2.1 p.2.2 s
       issuesB p.1 s v run && (match q.1 with | .ok t => q.2.futFlying 7 4 [t] | _ => false))) = true ∧
    (let v := uniMemV 0xFD0000000030; let s := on v
     [(Instr.sld (gr 62 1 0 (xMem 0 4)), gr 62 1 0 (xMem 0 4)), (.sst (gr 0 1 2 (xMem 0 4)), gr 0 1 2 (xMem 0 4)), (.satom (gr 9 1 3 (xMem 0 4 0 4 10)), gr 9 1 3 (xMem 0 4 0 4 10))].all (fun p =>
       issuesB p.1 s v run && decide (uniAddr (s.ctx v run p.1) p.2 = (false, 0xFD0000000030) ∧ (s.ctx v run p.1).lanes ≠ [] ∧ v.ackcnt ≤ 65535)) &&
     decide (0xFD0000000030 + 16 ≤ 0xFD0000000000 + v.priv ∧ 0 < v.width ∧ 0xFD0000000030 % 16 = 0)) = true := by decide +kernel
theorem witness_FenceInstructions : ∀ i ∈ [0, 1, 2, 3, 4].flatMap (fun n => [Instr.fenceRel (gr 0 0 (0x100 + n)), .fenceAcq (gr 0 0 (0x100 + n)), .fenceAr (gr 0 0 (0x100 + n))]),
    Issues i mach wave run := issues_all (by decide +kernel)
/-- A dirty byte of another package's memory that the full ACKCNT of its wave keeps in the L1. -/
def fullV : Wave := { wave with ackcnt := 65535 }
def stayS : State := { on fullV with cores := [(3, { l1 := [(2 ^ 52 * 2 + 0x200000, { val := 1, dirty := true, wave := 7 })] })] }
theorem witness_FenceInstructions_stays :
    (∀ i ∈ [Instr.fenceRel (gr 0 0 0x102), .fenceAr (gr 0 0 0x102)], Issues i stayS fullV run) ∧
    (((stayS.flushL1 (stayS.coreOf fullV) (fun _ => true) false).core (stayS.coreOf fullV)).l1.any (fun e => e.2.dirty)) = true ∧
    (mach.wave? mach.turn = some wave ∧ ((mach.flushL1 3 (fun _ => true) false).core 3).l1 = []) ∧ ({ run with onEnd := .fence 3 } : Run).onEnd = .fence 3 :=
  ⟨issues_all (by decide +kernel), by decide +kernel, by decide +kernel, rfl⟩

/-! ## Bindings, waits and futures -/

/-- s1: a region of 128 bytes; s2: the largest region; s3: a size below 2^7; s4: object words of kinds 0 and 7, and one past its bits in s6; s7: index 63. -/
def bindV : Wave := wS [(1, 0x5000 + 7), (2, 47), (3, 0x5000 + 6), (4, 0x5000), (5, 7 * 2 ^ 60 + 2 ^ 48 - 4), (6, 2 * 2 ^ 60 + 4), (7, 63), (8, 1)]
def bindS (l : List Nat) : State := { on bindV with procs := [(5, { proc with bindings := l.map (fun n => (n, { base := 0x5000, size := 128, kind := 0, ident := 0x5000 })) })] }
theorem witness_Bindings :
    (∀ i ∈ [Instr.ecBind (gr 9 1 4), .ecBind (gr 9 2 5), .ecBind (gr 9 3 4), .ecBind (gr 9 1 6), .ecDrop (gr 9 7 0), .ecDrop (gr 9 8 0)],
      Issues i (bindS (List.range 64)) bindV run ∧ Issues i (bindS [0, 63]) bindV run) ∧
    (Spec.okRegion (0x5000 + 7) ∧ Spec.okRegion 47 ∧ ¬ Spec.okRegion (0x5000 + 6) ∧ 0x5000 % 128 = 0) ∧
    ((List.range 64).all (fun m => (Tab.get? (((bindS (List.range 64)).proc? 5).map (·.bindings) |>.getD []) m).isSome)) = true ∧
    ((Tab.get? (((bindS [0, 63]).proc? 5).map (·.bindings) |>.getD []) 1).isNone && (Tab.get? (((bindS [0, 63]).proc? 5).map (·.bindings) |>.getD []) 0).isSome) = true := by
  refine ⟨fun i hi => ⟨issues_all (l := [Instr.ecBind (gr 9 1 4), .ecBind (gr 9 2 5), .ecBind (gr 9 3 4), .ecBind (gr 9 1 6), .ecDrop (gr 9 7 0), .ecDrop (gr 9 8 0)]) (by decide +kernel) i hi,
    issues_all (l := [Instr.ecBind (gr 9 1 4), .ecBind (gr 9 2 5), .ecBind (gr 9 3 4), .ecBind (gr 9 1 6), .ecDrop (gr 9 7 0), .ecDrop (gr 9 8 0)]) (by decide +kernel) i hi⟩, ?_, by decide +kernel, by decide +kernel⟩
  unfold Spec.okRegion; decide +kernel
theorem witness_Bindings_object : Spec.okObject 0x5000 ∧ Spec.okObject (7 * 2 ^ 60 + 2 ^ 48 - 4) ∧ ¬ Spec.okObject (2 * 2 ^ 60 + 4) := by
  refine ⟨⟨_, rfl, by decide, by decide⟩, ⟨_, rfl, by decide, by decide⟩, fun ⟨p, h, _, h3⟩ => ?_⟩
  rw [show Spec.objectBits[(2 * 2 ^ 60 + 4) / 2 ^ 60]? = some (0, 1) from rfl] at h
  cases h; revert h3; decide
/-- R168, R170: the first free index, an index out of 64 in use, a bad region; a drop of an index that has no entry. -/
theorem test_bindings : writes (.ecBind (gr 9 1 4)) (bindS [0, 63]) = [(30009, 256)] ∧ writes (.ecBind (gr 9 1 4)) (bindS (List.range 64)) = [(30009, 4)] ∧
    writes (.ecBind (gr 9 3 4)) (bindS []) = [(30009, 0x25)] ∧ writes (.ecDrop (gr 9 8 0)) (bindS [0, 63]) = [(30009, 3)] := by decide +kernel
def futAt (i : Instr) (f : GR) (a : Nat) : Option Phys :=
  match ((on (uniMemV a)).resolve (uniMemV a) (lowLane (maskOf ((on (uniMemV a)).ctx (uniMemV a) run i).lanes)) { kind := 2, size := 16, align := 16, globalOnly := true, dev := true }
      (uniAddr ((on (uniMemV a)).ctx (uniMemV a) run i) f).1 (uniAddr ((on (uniMemV a)).ctx (uniMemV a) run i) f).2).1 with
  | .ok (.glob p) => some p
  | _ => none
/-- The last word below the crew's barrier block, a global address, and a granule. -/
theorem witness_WaitsAndFutures :
    (issuesB (.waitAddr (gr 0 1 2 (xMem 0 3))) (on (uniMemV (0xFE0000000000 + 12152))) (uniMemV (0xFE0000000000 + 12152)) run &&
      decide (uniAddr ((on (uniMemV (0xFE0000000000 + 12152))).ctx (uniMemV (0xFE0000000000 + 12152)) run (.waitAddr (gr 0 1 2 (xMem 0 3)))) (gr 0 1 2 (xMem 0 3)) = (false, 0xFE0000000000 + 12152)) &&
      decide (12152 % 8 = 0 ∧ 12152 + 8 ≤ crew.grans * 4096 - 128 ∧ crew.grans ≤ 64)) = true ∧
    issuesB (.waitAddr (gr 0 1 2 (xMem 0 2))) (on (uniMemV 0xFBFFFFFFFFFC)) (uniMemV 0xFBFFFFFFFFFC) run = true ∧
    [(Instr.futInit, 0), (.futRd, 0), (.futRd, 4), (.futWr, 1), (.futWr, 2), (.futWr, 3), (.futWr, 4)].all (fun p =>
      let f := gr (if (p.1 (gr 0 0 0)).raw = (Instr.futInit (gr 0 0 0)).raw then 0 else 9) 1 (if (p.1 (gr 0 0 0)).raw = (Instr.futWr (gr 0 0 0)).raw then 2 else 0) (xMem 0 4 0 p.2)
      issuesB (p.1 f) (on (uniMemV 0x5FF0)) (uniMemV 0x5FF0) run && (futAt (p.1 f) f 0x5FF0).any (fun q => q.ca == 0)) = true ∧
    (on (uniMemV 0x5FF0)).inflight = [] ∧ (on (uniMemV 0x5FF0)).locks = [] ∧
    [Instr.futInit, .futRd, .futWr].all (fun i =>
      let v := uniMemV 0x5FF0; let s : State := { on v with inflight := flyS.inflight }
      let f := gr (if i (gr 0 0 0) = .futInit (gr 0 0 0) then 0 else 9) 1 (if i (gr 0 0 0) = .futWr (gr 0 0 0) then 2 else 0) (xMem 0 4 0 2)
      let q := s.resolve v (lowLane (maskOf (s.ctx v run (i f)).lanes)) { kind := 2, size := 16, align := 16, globalOnly := true, dev := true } (uniAddr (s.ctx v run (i f)) f).1 (uniAddr (s.ctx v run (i f)) f).2
      issuesB (i f) s v run && (match q.1 with | .ok (.glob p) => p.ca == 0 && q.2.futFlying 7 16 [.glob p] | _ => false)) = true := by decide +kernel

end Sys2Proof.Tests
end

