-- ==== Sys2Proof/Tests/Ports.lean ====
section
/-!
SUPPORT. Sys2Proof/Tests/Ports.lean: ports, messages, page pulls, names and the command window: states that meet the hypotheses of the statements about
them, and results computed by hand from spec/15_ports_grants_names.md and spec/14_muhan_hardware_kernel.md.
-/

namespace Sys2Proof.Tests

open Sys2Proof.Machine

set_option Elab.async false

/-! ## Ports and messages -/

def msg (n : Nat) (hl : List (W64 × BitVec 8) := []) (gs : List PageGrant := []) : PortMsg :=
  { inl := bytesOf (0x0102030405060708 + n) 8, tag := 0x99, tenant := 3, node := 0, die := 2, proc := 5, handles := hl, grants := gs, wave := 7 }
/-- Slot 1 names port 20 with q messages, slot 2 a timer, slot 4 a stale port, slot 5 a port with SEND alone, slot 7 a launch port. -/
def portProc : Proc := { handles [(1, 20, 4, 0, 0xFF, 0), (2, 21, 6, 0, 0xFF, 0), (3, 20, 4, 0, 0x7F, 0), (4, 20, 4, 1, 0xFF, 0), (5, 20, 4, 0, 0x04, 0), (6, 20, 4, 0, 0xFF, 1), (7, 23, 4, 0, 0xFF, 0)] with tenant := 9 }
def portV (a b : Nat) : Wave := { wS [(2, a), (4, b)] with posted := [1] }
def portS (v : Wave) (n : Nat := 0) (q : Nat := 0) (hl : List (W64 × BitVec 8) := []) (p : Proc := portProc) (gs : List PageGrant := []) (d : Die := { regs := [(0x11000, BitVec.ofNat 64 (9 + 2 ^ 16 + 5 * 2 ^ 17 + 0xFFFF * 2 ^ 20 + 100 * 2 ^ 36))] }) : State :=
  { kerS v p with
    crews := [(6, blockCrew n)]
    ports := [(20, { proc := 5, depth := 4, launch := false, queue := (List.range q).map (fun i => (msg i hl gs, i + 100)), count := 100 + q, reserved := 1 }), (23, { proc := 5, depth := 4, launch := true, queue := [] })]
    dies := [(0, d)]
    objs := [(5, { kind := 1 }), (6, { kind := 3, refs := 2 }), (7, { kind := 2 }), (20, { kind := 4, refs := 2 }), (21, { kind := 6, refs := 2 }), (23, { kind := 4, refs := 2 })] }
/-- Depths 1 and 1024, a launch port of 1024; depths 0 and 1025, a bit above 11. -/
theorem witness_PortInstructions_new :
    (∀ b ∈ [1, 1024, 3072, 0, 1025, 2048, 4096], Issues (.ptNew (gr 9 0 4)) (portS (portV 1 b)) (portV 1 b) run) ∧
    ([1, 1024, 3072].all (fun b => decide (0 < b % 2048 ∧ b % 2048 ≤ 1024 ∧ b < 4096)) && [0, 1025, 2048, 4096].all (fun b => !decide (0 < b % 2048 ∧ b % 2048 ≤ 1024 ∧ b < 4096))) = true ∧
    (let s := portS (portV 1 1); s.emptySlot 5 = some 8 ∧ s.quota 0 5 false = false ∧ (s.freeEntry 0).isSome = true) := by
  refine ⟨fun b hb => ?_, by decide +kernel⟩
  have h : [1, 1024, 3072, 0, 1025, 2048, 4096].all (fun b => issuesB (.ptNew (gr 9 0 4)) (portS (portV 1 b)) (portV 1 b) run) = true := by decide +kernel
  exact issues_of (List.all_eq_true.mp h b hb)
theorem witness_PortInstructions_newFull : Issues (.ptNew (gr 9 0 4)) (portS (portV 1 1) 0 0 [] fullProc) (portV 1 1) run ∧ (portS (portV 1 1) 0 0 [] fullProc).emptySlot 5 = none :=
  ⟨issues_of (by decide +kernel), full_table _ rfl⟩
/-- A send descriptor: inline length, grants, handles, move, two slots, address, grants (page, count - 1), more. -/
def sendN (inl ng nh mv : Nat) (h0 h1 : Nat := 0) (g : Nat := 0) (x : Nat := 0) : Nat :=
  inl + ng * 2 ^ 9 + nh * 2 ^ 12 + mv * 2 ^ 16 + h0 * 2 ^ 32 + h1 * 2 ^ 44 + 0x6000 * 2 ^ 64 + 0x77 * 2 ^ 128 + g * 2 ^ 192 + x
def okSendB (n : Nat) : Bool := decide (Spec.fld n 0 9 ≤ 256 ∧ Spec.fld n 9 3 ≤ 4 ∧ Spec.fld n 12 2 ≠ 3 ∧ Spec.fld n 14 2 = 0 ∧ Spec.fld n 17 15 = 0 ∧ Spec.fld n 56 8 = 0 ∧ Spec.fld n 112 16 = 0 ∧ Spec.fld n 448 64 = 0 ∧ ∀ g < Spec.fld n 9 3, Spec.fld n (234 + 64 * g) 22 = 0)
theorem okSend_of {n : Nat} (h : okSendB n = true) : Spec.okSend n := by
  unfold Spec.okSend; simpa only [okSendB, decide_eq_true_eq] using h
theorem not_okSend_of {n : Nat} (h : okSendB n = false) : ¬ Spec.okSend n := by
  unfold Spec.okSend; simpa only [okSendB, decide_eq_false_iff_not] using h
/-- Which clause of pt.send's statement has its hypotheses met: 1 a slot refused, 2 a descriptor refused, 3 no room, 4 room. -/
def sendClause (a n q : Nat) : Nat :=
  let f := gr 9 2 4; let v := portV a 0xFE0000000000; let s := portS v n q; let i := Instr.ptSend f; let c := s.ctx v run i
  if !issuesB i s v run then 0 else match s.readBlock c (readB c f) 64 64 false with
  | (.ok n', s1) => if n' ≠ n then 0 else match s1.checkSlot 5 (Spec.slotOf v f) [4] 2 true with
    | .error _ => 1
    | .ok h => if !okSendB n then 2 else match s1.foreign h, Tab.get? s1.ports (hId h) with
      | false, some po =>
        match po.launch, (if Spec.fld n 0 9 = 0 then some s1 else match s1.readSpan c (BitVec.ofNat 64 (Spec.fld n 64 48)) (Spec.fld n 0 9) with | (.ok _, s3) => some s3 | _ => none) with
        | false, some s3 => (match s3.proc? 5, (s3.relObj v (if objDie (hId h) = s3.dieOf v then 2 else 3) { kind := 4, ident := Spec.slotOf v f }).releaseWaits s.turn (if objDie (hId h) = s3.dieOf v then 2 else 3) with
          | some pr, (_, s2) => (match s2.slotsRefuse 5 false (sendSlots n), s2.grantsOf pr.ptroot.toNat n, Tab.get? s2.ports (hId h) with
            | none, some gs, some p2 => if (gs.all (fun g => g.leaves.all (fun l => !s2.pageLocked l))) && !s3.foreign h then (if p2.depth ≤ p2.queue.length + p2.reserved then 3 else 4) else 0
            | _, _, _ => 0)
          | _, _ => 0)
        | _, _ => 0
      | _, _ => 0
  | _ => 0
/-- Refused slots; refused descriptors (257 inline bytes, 5 grants, 3 handles, each padding), the largest accepted; a full port; room for no bytes, for 8 with a handle copied, with one moved, with the granted page 6. -/
theorem witness_PortInstructions_send :
    [2, 4].map (fun a => sendClause a (sendN 0 0 0 0) 0) = [1, 1] ∧ sendClause 1 (sendN 257 0 0 0) 0 = 2 ∧ okSendB (sendN 256 4 2 1 0xFFF 0xFFF) = true ∧
    [sendN 0 5 0 0, sendN 0 0 3 0, 2 ^ 14, 2 ^ 31, 2 ^ 63, 2 ^ 127, 2 ^ 511, sendN 0 1 0 0 0 0 6 (2 ^ 234)].all (fun n => !okSendB n) = true ∧
    sendClause 1 (sendN 8 0 1 0 2) 3 = 3 ∧ [sendN 0 0 0 0, sendN 8 0 1 0 2, sendN 0 0 2 1 2 7, sendN 0 1 0 0 0 0 6].map (fun n => sendClause 1 n 2) = [4, 4, 4, 4] := by decide +kernel
def recvN (hdr inlp maxi gwin gn : Nat) (x : Nat := 0) : Nat := hdr + inlp * 2 ^ 64 + maxi * 2 ^ 112 + gwin * 2 ^ 128 + gn * 2 ^ 192 + x
def okRecvB (n : Nat) : Bool := decide (Spec.fld n 0 6 = 0 ∧ Spec.fld n 48 16 = 0 ∧ Spec.fld n 112 9 ≤ 256 ∧ Spec.fld n 121 7 = 0 ∧ Spec.fld n 164 28 = 0 ∧ Spec.fld n 208 304 = 0)
theorem okRecv_of {n : Nat} (h : okRecvB n = true) : Spec.okRecv n := by
  unfold Spec.okRecv; simpa only [okRecvB, decide_eq_true_eq] using h
/-- Which clause of the receives' statement: 1 refused, 2 nothing queued, 3 a message taken, 4 a message left. -/
def recvClause (t : Bool) (a n q : Nat) (gs : List PageGrant := []) : Nat :=
  let f := if t then gr 9 2 4 1 else gr 9 2 4; let v := portV a 0xFE0000000000; let s := portS v n q [] portProc gs; let i := if t then Instr.ptTry f else .ptRecv f; let c := s.ctx v run i
  if !issuesB i s v run then 0 else match s.readBlock c (readB c f) 64 64 false with
  | (.ok n', s1) => if n' ≠ n then 0 else match s1.checkSlot 5 (Spec.slotOf v f) [4] 3 with
    | .ok h => (match Tab.get? s1.ports (hId h) with
      | some po => if !okRecvB n || po.launch then 1 else match s1.checkRecv v n with
        | (.ok (hd, inl), s2) => if !s2.headReady v po || decide (65535 < v.ackcnt + (counted false (hd ++ inl)).length) then 5 else if po.queue.isEmpty then 2 else (match s2.takeMsg c (hId h) (Spec.slotOf v f) n hd inl with | .inr (_, none, _) => 3 | .inl _ => 4 | _ => 0)
        | _ => 0
      | none => 0)
    | _ => 0
  | _ => 0
theorem witness_PortInstructions_recv : [true, false].all (fun t =>
    [recvClause t 7 (recvN 0x6000 0x6100 8 9 0) 0, recvClause t 1 (recvN 0x6000 0x6F00 256 9 1) 0, recvClause t 1 (recvN 0xFE0000000000 0 0 0 0) 3, recvClause t 1 (recvN 0x6000 0x6100 8 9 0) 1 [{ first := 5, leaves := [0x20003F#64] }]] == [1, 2, 3, 4]) = true ∧
    [recvN 0x6001 0 0 0 0, recvN 0x6000 0 257 0 0, 2 ^ 48, 2 ^ 127, 2 ^ 191, 2 ^ 511].all (fun n => !okRecvB n) = true := by decide +kernel
/-- A send behind a store that waits; a receive whose header goes to host memory with the full ACKCNT. -/
theorem witness_PortInstructions_waits :
    (let v := portV 1 0xFE0000000000; let s := portS v (sendN 0 0 0 0); issuesB (.ptSend (gr 9 2 4)) (heldWrite s) v run && !(heldWrite s).writesDone 7 && s.writesDone 7) = true ∧
    (let v : Wave := { portV 1 0xFE0000000000 with ackcnt := 65535 }; let s := portS v (recvN 0xE000 0x6100 8 9 0) 3; let c := s.ctx v run (.ptTry (gr 9 2 4 1))
     issuesB (.ptTry (gr 9 2 4 1)) s v run && (match s.readBlock c (readB c (gr 9 2 4 1)) 64 64 false with
      | (.ok n, s1) => (match s1.checkRecv v n, Tab.get? s1.ports 20 with
        | (.ok (hd, inl), s2), some po => decide (65535 < v.ackcnt + (counted false (hd ++ inl)).length) && s2.headReady v po && okRecvB n
        | _, _ => false)
      | _ => false)) = true := by decide +kernel
/-- 0, 65 and 128 pages and a misaligned address; 1 and 64 pages. -/
theorem witness_PortInstructions_pull :
    (∀ e ∈ [(0x5000, 0), (0x5000, 65), (0x5000, 128), (0x5001, 1), (0x5000, 1), (0x5000, 64)], Issues (.pgPull (gr 9 2 4)) (portS (portV e.1 e.2)) (portV e.1 e.2) run) ∧
    (0 % 128 = 0 ∧ 64 < 65 % 128 ∧ 128 % 128 = 0 ∧ 0x5001 % 4096 ≠ 0) ∧ (0 < 64 % 128 ∧ 64 % 128 ≤ 64 ∧ 0x5000 % 4096 = 0) := by
  refine ⟨fun e he => ?_, by decide⟩
  have h : [(0x5000, 0), (0x5000, 65), (0x5000, 128), (0x5001, 1), (0x5000, 1), (0x5000, 64)].all (fun e => issuesB (.pgPull (gr 9 2 4)) (portS (portV e.1 e.2)) (portV e.1 e.2) run) = true := by decide +kernel
  exact issues_of (List.all_eq_true.mp h e he)
/-- R313, R315, R316, R322, R428: a new port's slot; BADDESC; a full port; STALE; the try of an empty port; OK with two messages left; a page pull of no pages. -/
theorem test_ports : writes (.ptNew (gr 9 0 4)) (portS (portV 1 1024)) = [(30009, 8 * 256)] ∧ writes (.ptNew (gr 9 0 4)) (portS (portV 1 1025)) = [(30009, 0x25)] ∧
    writes (.ptSend (gr 9 2 4)) (portS (portV 1 0xFE0000000000) (sendN 0 0 0 0) 3) = [(30009, 4)] ∧ writes (.ptSend (gr 9 2 4)) (portS (portV 4 0xFE0000000000)) = [(30009, 0x20)] ∧
    writes (.ptTry (gr 9 2 4 1)) (portS (portV 1 0xFE0000000000) (recvN 0x6000 0x6100 8 9 0) 0) = [(30009, 3)] ∧ writes (.ptTry (gr 9 2 4 1)) (portS (portV 1 0xFE0000000000) (recvN 0x6000 0x6100 8 9 0) 3) = [(30009, 2 * 256)] ∧
    writes (.pgPull (gr 9 2 4)) (portS (portV 0x5000 128)) = [(30009, 0x25)] := by decide +kernel

/-- A leaf; a queue whose head has a handle more than there are slots, a page more than the window, and neither. -/
theorem witness_Messages :
    (Memory.wf mem = true ∧ (match mach.walk 0x10 0x6008 with | .leaf e key _ => (e == 0x20103F#64 || key != 0) && (List.range 8).all (fun i => tracked (key + i) && (Tab.get? mach.pages ((key + i) / 4096)).isNone && (mach.dirOf ((key + i) / 128)).state != 2#2 && mach.winAt (key + i) == none) | _ => false) = true) ∧
    (let s := portS (portV 1 0) 0 2 [] portProc [{ first := 5, leaves := [1, 1] }]
     (Tab.get? s.ports 20).any (fun po => po.queue.length == 2 && po.queue.head?.any (fun m => decide (m.1.handles.length ≤ (s.emptySlots 5 0).length ∧ Spec.fld (recvN 0 0 0 9 1) 192 16 < (m.1.grants.map (fun g => g.leaves.length)).sum)))) = true ∧
    (let s := portS (portV 1 0) 0 2; (Tab.get? s.ports 20).any (fun po => po.queue.head?.any (fun m => m.1.handles.isEmpty && m.1.grants.isEmpty && decide (m.1.inl.length ≤ 256))) = true ∧ (s.proc? (portV 1 0).proc).isSome = true) := by decide +kernel
/-- R319, R320, R321: the received leaf of page 0x20003F (all permissions) is granted-in; from node 5 it is remote-frame and carries the node. The header of 8 bytes of tenant 3, die 2, tag 0x99, number 100. -/
theorem test_messages : recvLeaf false 5 0x20003F#64 = 0x20008F ∧ recvLeaf true 5 0x20003F#64 = 0x00050000002003CF ∧
    recvHeader (msg 0) 9 [] 100 = 8 + 3 * 2 ^ 16 + 2 * 2 ^ 48 + 0x99 * 2 ^ 64 + 100 * 2 ^ 448 := by decide +kernel

/-! ## Ports and names at their home -/

def homeV : Wave := { wave with run := some { run with pending := [{ seq := 4, left := none, back := false, ready := false, writes := [] }] } }
def binding (c : List Nat) (pub : Bool) (p : Nat := 5) : Name := { tenant := 9, name := 0x11, port := 20, gen := 0, die := 0, pub := pub, proc := p, cachers := c }
def nameS (l : List Name) : State := { portS homeV with names := l }
def ack7 (s : State) : State := { s with waves := [(7, { homeV with ackcnt := 1 })], acks := [(3, { wave := 7, node := 0, die := 0, key := 0, atomic := false })] }
theorem witness_PortAndNameEvents_ports :
    (let s := portS homeV 0 2; (msg 9).record = false ∧ (msg 9).node = s.nodeId 0 ∧ s.writesDone (msg 9).wave = true ∧ s.acked (msg 9).wave = true ∧ ({ msg 9 with res := true } : PortMsg).res = true ∧ (Tab.get? s.ports 20).any (fun po => decide (0 < po.reserved) && !po.launch && po.waiters.isEmpty) = true ∧ (s.obj 20).gen = 0 ∧
      s.boundVectors 20 = [] ∧ (∀ e ∈ s.wsets, ∀ m ∈ e.2.members, m.2 ≠ Member.obj 20 4)) ∧
    (ack7 (portS homeV)).acked (msg 9).wave = false ∧ (msg 9).near = false ∧ (heldWrite (portS homeV)).writesDone (msg 9).wave = false ∧ ({ msg 9 with record := true } : PortMsg).crew = 0 ∧ Tab.get? (portS homeV).ports 99 = none := by decide +kernel
/-- A page that is not mapped, one above the global space; a remote page and a pool with and without a frame, the last page of the pull. -/
def pullS (page : Nat) (pool : List Nat) : State :=
  { portS { homeV with pull := some (4, 9, page, 1, 2) } with mem := mem.filter (fun e => decide (e.1 < 77864)) ++ [(77864, 0xFF), (77865, 0x03), (77866, 0x04), (77870, 5)], dies := [(0, { pool := pool })] }
theorem witness_PortAndNameEvents_pull :
    (((pullS 0xFC0000000 []).wave? 7).any (fun v => v.pull == some (4, 9, 0xFC0000000, 1, 2)) && ((pullS 0xFC0000000 []).proc? 5).isSome) = true ∧ (0x99 < 0xFC0000000 ∧ 5 < 0xFC0000000) ∧
    (match (pullS 0x99 []).walk 0x10 (0x99 * 4096) with | .bad _ => true | _ => false) = true ∧
    [[], [0x300000, 0x301000]].all (fun pool => Memory.wf (pullS 5 pool).mem && ((pullS 5 pool).wave? 7).any (fun v => v.pull == some (4, 9, 5, 1, 2) && (((pullS 5 pool).die ((pullS 5 pool).dieOf v)).pool == pool)) && ((pullS 5 pool).proc? 5).isSome &&
      (match (pullS 5 pool).walk 0x10 (5 * 4096) with | .leaf e _ 12 => e.toNat / 256 % 4 == 3 && e.toNat / 64 % 4 == 3 | _ => false)) = true := by decide +kernel
theorem witness_PortAndNameEvents_names :
    (nameS []).wave? 7 = some homeV ∧ (nameS []).tenantOf homeV.proc = 9 ∧ (∃ n ∈ (nameS [binding [] true]).names, n.tenant = 9 ∧ n.name = 0x11) ∧ ((∀ n ∈ (nameS [binding [] true]).names, ¬ (n.tenant = 9 ∧ n.name = 0x12)) ∧ ((nameS []).obj 20).kind = 4) ∧
    ((nameS [binding [] true]).bound 9 0x12 = none ∧ (nameS [binding [] true 15]).bound 9 0x11 = some (binding [] true 15) ∧ (nameS [binding [3, 4] true]).bound 9 0x11 = some (binding [3, 4] true) ∧ (nameS [binding [] false]).bound 9 0x11 = some (binding [] false) ∧
      ((nameS [binding [] true]).emptySlot homeV.proc).isSome = true ∧ (nameS [binding [] true]).dieOf homeV = (binding [] true).die) ∧ (binding [3, 4] true).dropping = none ∧ (binding [] true).handle = none := by
  refine ⟨by decide, by decide, ⟨_, List.mem_singleton.mpr rfl, by decide⟩, by decide, by decide +kernel, by decide⟩
/-- R324, R325: another process's drop has no right, a private name is not found for another tenant, a bound name answers BUSY, a found one the handle's slot. -/
def fillOf (i : Instr) (s : State) : List (Nat × Nat) :=
  match exec i s with
  | .next t => (((t.wave? 7).bind (·.run)).map (fun r => r.pending.flatMap (fun x => x.writes.map (fun w => (place w.loc, w.val.toNat))))).getD []
  | _ => []
theorem test_names : fillOf (.nameOpAtAuthority 7 4 9 0x11 .drop) (nameS [binding [] true 15]) = [(30009, 0x21)] ∧ fillOf (.nameOpAtAuthority 7 4 9 0x11 (.look 9 true)) (nameS [binding [] false]) = [(30009, 5)] ∧
    fillOf (.nameOpAtAuthority 7 4 9 0x11 (.pub 20 0 true)) (nameS [binding [] true]) = [(30009, 7)] ∧ fillOf (.nameOpAtAuthority 7 4 9 0x11 (.look 9 false)) (nameS [binding [] false]) = [(30009, 8 * 256)] := by decide +kernel

/-- nm.pub of slots with and without the rights and with bit 13 set; nm.look of the own tenant, of tenant 9 by bit 16, with bit 17 set; a cached binding. -/
def lookS (a : Nat) (cache : List (Nat × Name)) : State :=
  { portS (portV a 0x11) 0 0 [] portProc [] { regs := [(0x11000, BitVec.ofNat 64 (9 + 2 ^ 16 + 5 * 2 ^ 17 + 0xFFFF * 2 ^ 20 + 100 * 2 ^ 36)), (0x28, 1)] } with nameCache := cache }
theorem witness_NameInstructions :
    (∀ a ∈ [1, 4097, 8193, 5, 9, 2 ^ 16 + 9, 2 ^ 17], ∀ i ∈ [Instr.nmPub (gr 9 2 4), .nmDrop (gr 9 0 4 1), .nmLook (gr 9 2 4)], Issues i (lookS a []) (portV a 0x11) run ∧ Issues i (lookS a [(0, binding [] true)]) (portV a 0x11) run) ∧
    (let s := lookS 1 []; (match s.pubSlot 5 1, s.pubSlot 5 5 with | .ok h, .error e => decide (hId h = 20) && decide (e = 0x21) | _, _ => false) && !s.quota (s.dieOf (portV 1 0x11)) 5 false && (s.authority (s.dieOf (portV 1 0x11)) 9 0x11).1 == s.nodeId (s.dieOf (portV 1 0x11)) && s.tenantOf 5 == 9 &&
      (s.emptySlot 5).isSome) = true ∧ (8193 / 2 ^ 13 ≠ 0 ∧ 4097 / 2 ^ 13 = 0 ∧ 2 ^ 17 / 2 ^ 17 ≠ 0 ∧ (2 ^ 16 + 9) % 2 ^ 16 = 9 ∧ (binding [] true).handle = none) := by
  refine ⟨fun a ha i hi => ?_, by decide +kernel⟩
  have h : [1, 4097, 8193, 5, 9, 2 ^ 16 + 9, 2 ^ 17].all (fun a => [[], [(0, binding [] true)]].all (fun c => [Instr.nmPub (gr 9 2 4), .nmDrop (gr 9 0 4 1), .nmLook (gr 9 2 4)].all (fun i => issuesB i (lookS a c) (portV a 0x11) run))) = true := by decide +kernel
  have h' := List.all_eq_true.mp (List.all_eq_true.mp h a ha)
  exact ⟨issues_all (h' _ (by simp)) i hi, issues_all (h' _ (by simp)) i hi⟩

/-! ## The command window -/

/-- The window's state: a pool with a frame, two orphans, a process image at 0x400000; wave 7 with a run, wave 9 waiting, wave 10 dead. -/
def image : List Host.Cell := [(0x400008, 0x34), (0x400009, 0x12), (0x400010, 0x9A), (0x400011, 0x78), (0x400015, 0xCD), (0x400020, 0x54)]
def winS (v : Wave := wave) (d : Die := { pool := [0x700000], orphans := [0x12345000, 0x6000] }) : State :=
  { portS v with mem := mem.filter (fun e => decide (e.1 < 2 ^ 22)) ++ image ++ mem.filter (fun e => decide (2 ^ 22 ≤ e.1)), dies := [(0, d)], waves := [(7, v), (9, { wave with member := 1, run := none }), (10, { wave with run := none, dead := true })] }
theorem witness_CommandWindow :
    (Spec.cmdReady (winS) 2 0 ∧ Spec.cmdReady winS 2 7 ∧ Memory.wf (winS).mem = true) ∧ ((0 : Nat) % 256 = 0 ∧ 8 < 255 % 256) ∧ ((0x400001#64).toNat % 64 ≠ 0 ∧ 2 ^ 40 ≤ (0x10000000000#64).toNat) ∧
    ((List.range 64).all (fun i => (Tab.get? winS.pages ((0x400000 + i) / 4096)).isNone && tracked (0x400000 + i) && winS.winAt (0x400000 + i) == none) = true ∧ (winS.freeEntry 0).isSome = true) ∧
    ((winS).foreign (mkHandle 0 7 2 0) = false ∧ winS.stale (mkHandle 0 7 2 0) = false ∧ hKind (mkHandle 0 7 2 0) = 2 ∧ hId (mkHandle 0 7 2 0) = 7 ∧ winS.foreign (mkHandle 1 7 2 0) = true ∧ winS.stale (mkHandle 0 7 2 1) = true ∧ hKind (mkHandle 0 20 4 0) = 4) ∧
    ((winS { wave with suspended := true }).isResident { wave with suspended := true } = true ∧ wave.dead = false ∧ wave.undelivered = false) ∧ (winS wave {}).die 0 = {} := by
  refine ⟨⟨by unfold Spec.cmdReady; decide +kernel, by unfold Spec.cmdReady; decide +kernel, by decide +kernel⟩, by decide, by decide, by decide +kernel, by decide +kernel, by decide +kernel, by decide⟩
/-- The bounds of SHOOT, POOL and READ. -/
theorem witness_CommandWindow_bounds :
    ((0xFFFFFFFFF000#64).toNat % 4096 = 0 ∧ (0xFFFFFFFFF000#64).toNat < 2 ^ 48 ∧ (BitVec.ofNat 64 (2 ^ 36)).toNat ≤ 2 ^ 36 ∧ 2 ^ 36 < (BitVec.ofNat 64 (2 ^ 36 + 1)).toNat ∧ 2 ^ 48 ≤ (BitVec.ofNat 64 (2 ^ 48)).toNat) ∧
    ((0x1FFFFFF000#64).toNat % 4096 = 0 ∧ (0x1FFFFFF000#64).toNat / 2 ^ 37 = 0 ∧ (0x1FFFFFF000#64).toNat + 1 * 4096 ≤ (0 + 1) * 2 ^ 37) ∧ (0xFFFFFFFFC0#64).toNat % 64 = 0 ∧ hKind 0x700000000#64 = 0 := by decide
def shoot0 : Shoot := { asn := 7, base := 0x5000, pages := 1, wb := true, dies := [0, 3], window := some 0 }
theorem witness_CommandWindow_shoot :
    (shoot0.dies ≠ [] ∧ (∃ k ∈ shoot0.dies, k ≠ 0)) ∧ ({ winS with shoots := [(4, { shoot0 with dies := [] })] } : State).shotPending { shoot0 with dies := [] } = false ∧
    ({ winS with inflight := [.nonholderWriteAtHome 7 0x200010 [1]] } : State).shotPending { shoot0 with dies := [], keys := [(0x200000, 4096)] } = true ∧
    ({ winS with cores := [(3, { tlb := [{ asn := 7, base := 0x5000, size := 4096, leaf := 0x20003F }] })] } : State).cores.any (fun y => y.1 == 3) = true := by
  refine ⟨⟨by decide, ⟨3, by decide, by decide⟩⟩, by decide +kernel, by decide +kernel, by decide +kernel⟩
/-- R308: unknown codes answer BADDESC; an orphan comes back; a stale wave handle; R198: the pool after the command. -/
def cmdOf (o : Host.Outcome State Fault Refusal) : Nat × Nat := match o with | .next t => (t.reg 0 0x3038, t.reg 0 0x3030) | _ => (0, 0)
theorem test_commands : (cmdOf (execUnknownCommand 2 0 9 winS)).1 = 0x25 ∧ cmdOf (execOrphan 2 0 winS) = (0, 0x12345000) ∧ (cmdOf (execOrphan 2 0 (winS wave {}))).1 = 3 ∧ (cmdOf (execSuspend 2 0 (mkHandle 0 7 2 1) winS)).1 = 0x20 ∧
    cmdOf (execPool 2 0 0x800000#64 3#64 winS) = (0, 4) ∧ (cmdOf (execShoot 2 0 7 0x5000 1 0 winS)).1 = 2 ^ 63 := by decide +kernel

end Sys2Proof.Tests
end

