-- ==== Sys2Proof/Tests/Slice0.lean ====
section
/-!
SUPPORT. Sys2Proof/Tests/Slice0.lean: the checks of WellFormed refuse an ill-formed term each; words written out from the encodings of
spec/03_encoding_and_assembly.md decode to the instructions they stand for; a step runs what stands in memory.
-/

namespace Sys2Proof.Tests

open Sys2Proof.Machine

set_option Elab.async false

/-! ## WellFormed (R46-R59, R405-R419) -/

/-- Ill-formed words with the cause and SUB of their first failing check. -/
def illFormed : List (Instr × Nat × Nat) :=
  [(.brev (lr 1 2 0), 2, 0),                       -- B unused, not 0x3F
   (.add (lr 1 0x3C 2), 4, 1),                     -- no source 0x3C
   (.add (lr 0x39 1 2), 4, 1),                     -- no destination 0x39
   (.addI64 (lr 2 1 4), 4, 2),                     -- an odd pair
   (.cmpI32 { lr 0 1 2 with a := 0x3D }, 4, 1),
   (.pr (lr 0x38 0 0), 2, 0),                      -- pr function 7
   (.pr (lr 0 8 0), 2, 0),                         -- a predicate above 7
   (.pr (lr 0x28 0 1), 2, 0),                      -- a function of a alone takes B = 0
   (.fmaF32 (lr 1 2 3 0x40), 2, 1),                -- X-OP4 above [5:0]
   (.fmaF32 (lr 1 2 3 0x39), 4, 1),                -- C takes no lane index
   (.fmaF64 (lr 2 4 6 1), 4, 2),                   -- C odd
   (.sel (lr 1 2 3 8), 2, 1),                      -- X-SEL above [2:0]
   (.cvt (lr 1 2 0x3F 0x0C), 2, 1),                -- no format code 0x0C
   (.cvt (lr 1 2 0x3F (9 + 9 * 64 + 5 * 4096)), 2, 1),  -- rounding mode 5
   (.packP8 (lr 1 2 3 (8 + 9 * 64)), 4, 6),        -- pack.p8 from f64
   (.unpackP8 (lr 1 2 0x3F (9 + 9 * 64)), 4, 6),   -- unpack.p8 from f32
   (.shflIdx (lr 1 2 3 12), 4, 1),                 -- no mask 12
   (.reduxAdd (lr 1 2 0x3F 0x30), 2, 1),           -- element type 3
   (.histAdd (lr 0x30 1 2 (8 * 256)), 4, 2),       -- bins past the temporaries
   (.ld (lr 1 2 0x3F (xMem 0 5)), 2, 1),           -- size 5
   (.ld (lr 1 2 0x3F (xMem 0 2 1)), 2, 1),         -- sign extension of 32 bits
   (.ld (lr 1 2 0x3F (xMem 0 2 0 5)), 2, 1),       -- scope 5
   (.ld (lr 1 2 0x3F (xMem 0 2 0 0 1)), 2, 1),     -- an operation of a load
   (.ldPoll (lr 1 2 3 (xMem 0 4)), 4, 6),          -- a poll of 128 bits
   (.atom (lr 1 2 3 (xMem 0 1)), 4, 6),            -- an atomic of 16 bits
   (.atom (lr 1 2 3 (xMem 0 2 0 0 10)), 2, 1),     -- operation 10
   (.cas128 (lr 5 2 4 (xMem 0 4)), 4, 2),             -- an odd cas pair
   (.ld (lr 0x30 2 0x3F (xMem 0 2)), 4, 4),        -- a variable result into a temporary
   (.add (lr 1 0x3A 0x3B), 4, 5),                  -- XW and XS in one instruction
   (.add (lr 1 0x3B 2 0 64), 2, 1),                -- XS 64
   (.fmaF32 (lr 1 0x3B 2 3 64), 2, 2),
   (.sMov (gr 1 2 1), 2, 0),                       -- B unused, not 0
   (.sAdd (gr 1 2 0x40), 2, 0),                    -- a reserved B
   (.sld (gr 1 2 3 (xMem 0 4)), 2, 0),             -- B of s.ld unused
   (.sSel (gr 1 2 3 64), 2, 1),                    -- X-US above [5:0]
   (.mkJoin (gr 12 0 0), 4, 1),                    -- mask 12
   (.mkJoin (gr 16 0 0), 2, 0),                    -- D[5:4] of a mask
   (.srRd (gr 1 0 0x109), 2, 0),                   -- special register 9
   (.trap (gr 0 0 5), 4, 1),                       -- B of trap takes an immediate
   (.qPop (gr 1 0 0), 2, 0),                       -- B of q.pop takes 0x100 + N
   (.tmArm (gr 0 1 63), 4, 2),                     -- DELAY and PERIOD past s63
   (.sysCall (gr 63 1 2), 4, 2)]
theorem smoke_checks : illFormed.all (fun p => !wellFormed p.1 && (checkRaw p.1.raw).any (fun f => decide (f.cause = p.2.1 ∧ f.sub = p.2.2))) = true := by
  decide +kernel
/-- A word that the instruction does not have is not zero. -/
theorem smoke_canonical : [Instr.add (lr 1 2 3 1), .add (lr 1 2 3 0 1), .sAdd (gr 1 2 3 1), .sAdd (gr 1 2 3 0 1)].all (fun i => !i.raw.canonical && !wellFormed i) = true := by
  decide +kernel
/-- mk.wait without S, which its opcode requires, and with it. -/
theorem smoke_shape : wellFormed (.mkWait { gr 0 0 0 with s := false }) = false ∧ wellFormed (.mkWait (gr 0 0 0)) = true := by decide +kernel
/-- Instructions whose fields select the other instruction of their opcode. -/
theorem smoke_selected : [Instr.hClose (gr 1 2 0 1), .hInfo (gr 1 2 0), .wsPoll (gr 1 2 0), .plJoinDrop (gr 0 0 0x100), .plJoin (gr 0 0 0x104), .tmStop (gr 1 2 0)].all
    (fun i => !i.selected && !wellFormed i) = true := by decide +kernel
/-- Events have no words. -/
theorem smoke_events : [Instr.passBroadcast 0 0 true, .unassignedOpcode 0 0 0, .shadowSwapDone 0].all (fun i => !wellFormed i) = true := by decide +kernel

/-! ## Words written out from R45-R57 -/

/-- The instruction that a word and its extension words decode to. -/
def decodes (p : W32 × W32 × W32 × Instr) : Bool := decide ((decode p.1 p.2.1 p.2.2.1).toOption = some p.2.2.2)
/-- SET, S, V, OP, guard, D, A, B of LR. -/
theorem decode_lane_words :
    [(0b0_0_00_0001000_000_000101_000110_111000#32, 0, 0, .maxI32 { lr 5 6 0x38 with s := false }),
     (0b0_1_00_0010011_000_000001_000010_000011#32, 0, 0, .bfe (lr 1 2 3)),
     (0b0_1_01_0011010_011_000100_000101_000110#32, 0, 0, .mulWideI32 { lr 4 5 6 with v1 := true, g := 3 }),
     (0b0_1_00_0011101_000_000001_000010_000011#32, 0, 0, .divN32 (lr 1 2 3)),
     (0b0_1_00_0100011_000_101010_000010_000100#32, 0, 0, .cmpF64 (lr 0x2A 2 4)),
     (0b0_1_00_0100100_000_110001_000010_000000#32, 0, 0, .pr (lr 0x31 2 0)),
     (0b0_1_00_0100101_000_000001_000010_000011#32, 7, 0, .sel (lr 1 2 3 7)),
     (0b0_1_00_0101100_000_000001_000010_000011#32, 0, 0, .minF32 (lr 1 2 3)),
     (0b0_1_00_0110010_000_000010_000100_000110#32, 8, 0, .fmaF64 (lr 2 4 6 8)),
     (0b0_1_00_0111010_000_000001_000010_111011#32, 3, 41, .fma2Bf16 (lr 1 2 0x3B 3 41)),
     (0b0_1_00_1000010_000_000001_000010_111111#32, 0x9124, 0, .unpackP8 (lr 1 2 0x3F 0x9124)),
     (0b0_1_00_1001101_000_000001_000010_111111#32, 0, 0, .sinPiF32 (lr 1 2 0x3F)),
     (0b0_1_00_1010011_000_000001_000010_000011#32, 11, 0, .shflXor (lr 1 2 3 11)),
     (0b0_1_00_1011100_000_000001_000010_000011#32, 0x1F00, 0, .histMerge (lr 1 2 3 0x1F00)),
     (0b0_0_00_1100000_000_000001_000010_111111#32, 0x3AFFFC, 0, .ld { lr 1 2 0x3F 0x3AFFFC with s := false }),
     (0b0_1_00_1100011_000_000001_000010_000011#32, 0x04A20010, 0, .atom (lr 1 2 3 0x04A20010)),
     (0b0_1_00_1110001_000_111111_000010_111111#32, 0, 0, .winAdv (lr 0x3F 2 0x3F)),
     (0b0_1_00_1110010_000_000001_000010_000011#32, 0, 0, .vget (lr 1 2 3))].all decodes = true := by decide +kernel
/-- SET, S, V, OP, D, A, B of GR; A and offset of GC; offset of GJ. -/
theorem decode_uniform_words :
    [(0b1_1_00_0000110_000001_000010_100000101#32, 0, 0, .sShl (gr 1 2 0x105)),
     (0b1_1_00_0010000_000001_000010_000000011#32, 4, 0, .sSel (gr 1 2 3 4)),
     (0b1_1_00_0011100_111111111111111111110#32, 0, 0, .call { s := true, v1 := false, off := 0x1FFFFE }),
     (0b1_1_00_0011011_000101_000000000000010#32, 0, 0, .bneg { s := true, v1 := false, a := 5, off := 2 }),
     (0b1_1_00_0100011_000011_000101_100000000#32, 0, 0, .mkMovToMask (gr 3 5 0x100)),
     (0b1_1_00_0101000_000001_000010_000000000#32, 0x30008, 0, .sld (gr 1 2 0 0x30008)),
     (0b1_1_00_0101101_000000_000000_100000011#32, 0, 0, .fenceAr (gr 0 0 0x103)),
     (0b1_1_00_0110010_000001_000010_000000000#32, 0x40000, 0, .futRd (gr 1 2 0 0x40000)),
     (0b1_1_00_0111011_000011_000000_000000000#32, 0, 0, .nbSync (gr 3 0 0)),
     (0b1_1_00_0111110_000000_000000_100000100#32, 0, 0, .plJoinDrop (gr 0 0 0x104)),
     (0b1_1_00_1000001_000001_000010_000000011#32, 0, 0, .lkTry (gr 1 2 3)),
     (0b1_1_00_1001011_000001_000010_000000000#32, 0, 0, .mxZero (gr 1 2 0)),
     (0b1_1_00_1001100_000001_000010_000000000#32, 0, 0, .omClaim (gr 1 2 0)),
     (0b1_1_00_1011000_000000_000001_100000010#32, 0, 0, .cpIssue (gr 0 1 0x102)),
     (0b1_1_00_1011100_000001_000000_100000011#32, 0, 0, .qPop (gr 1 0 0x103)),
     (0b1_1_00_1100011_000000_000000_000000000#32, 0, 0, .wvYield (gr 0 0 0)),
     (0b1_1_00_1100110_000001_000010_000000000#32, 1, 0, .hInfo (gr 1 2 0 1)),
     (0b1_1_00_1101001_000001_000010_000000011#32, 0, 0, .wsWait (gr 1 2 3)),
     (0b1_1_00_1101011_000001_000010_000000011#32, 0, 0, .tmArm (gr 1 2 3)),
     (0b1_0_00_1101110_000001_000010_000000011#32, 1, 0, .ptTry { gr 1 2 3 1 with s := false }),
     (0b1_1_00_1110001_000001_000010_000000011#32, 0, 0, .nmLook (gr 1 2 3)),
     (0b1_1_00_1110011_000001_000010_000000011#32, 0, 0, .sysCall (gr 1 2 3)),
     (0b1_1_00_1110101_000000_000001_100001100#32, 0, 0, .srWr (gr 0 1 0x10C)),
     (0b1_1_00_1111001_000000_000000_000000000#32, 0, 0, .rfe (gr 0 0 0))].all decodes = true := by decide +kernel
/-- Codes that the maps leave unassigned (R56, R57, R405). -/
theorem decode_unassigned :
    [0x44E00000#32, 0x46A00000#32, 0x4D000000#32, 0xC2200000#32, 0xC4A00000#32, 0xCA000000#32, 0xCBE00000#32, 0xCF800000#32].all
      (fun w => (decode w 0 0).toOption.isNone) = true := by decide +kernel

/-! ## One step -/

/-- The encoded kernel's first word, mov.b32 v0, lid, stands where step fetches after reset: v0 of each of the sixteen lanes receives its
index. -/
theorem step_runs_word :
    nextIs (step (State.reset.withFetchWord 32 0x44C00E7F)) (fun t => ((t.wave? 3).bind (·.run)).any (fun r =>
      decide (r.pending.map (fun p => p.writes.map (fun w => (place w.loc, w.val.toNat))) = [(List.range 16).map (fun l => (l * 256, l))]))) = true := by
  decide +kernel
/-- An unassigned word there takes ILLEGAL (R405): with no handler the wave is suspended, and the step still answers. -/
theorem step_runs_unassigned : nextIs (step (State.reset.withFetchWord 32 0x44E00000)) (fun t => (t.wave? 3).all (fun v => decide (v.run = none))) = true := by
  decide +kernel

/-- Words of two and three that decode. -/
theorem witness_DecodeKeepsWords : (match decode 0x4401103A 8 0, decode 0x0560407A 3 0x3F800000 with | .ok i, .ok j => decide ((encode i).length = 2 ∧ (encode j).length = 3) | _, _ => false) = true := by decide +kernel

end Sys2Proof.Tests
end

