-- ==== Sys2Proof/Tests/Uniform.lean ====
section
/-!
SUPPORT. Sys2Proof/Tests/Uniform.lean: issue, traps, uniform and control instructions: states that meet the hypotheses of the statements about them,
and results computed by hand from spec/06_uniform_and_control_instructions.md and spec/22_execution_and_instruction_faults.md.
-/

namespace Sys2Proof.Tests

open Sys2Proof.Machine

set_option Elab.async false

/-! ## Issue, commitment, traps -/

theorem witness_EncodeDecodeAgree : WellFormed (.fmaF32 (lr 4 1 0x3A 0x38 0x3F800000 true)) ∧ WellFormed (.wsWait (gr 1 2 3)) ∧
    WellFormed (.bneg { s := true, v1 := false, a := 63, off := 0x4000 }) := by
  have h : ∀ i : Instr, wellFormed i = true → WellFormed i := fun i h => by
    simp only [wellFormed, Bool.and_eq_true, List.isEmpty_iff] at h
    exact ⟨h.1.1.1, h.1.1.2, h.1.2, h.2⟩
  exact ⟨h _ (by decide +kernel), h _ (by decide +kernel), h _ (by decide +kernel)⟩
theorem witness_ResultClasses : (Instr.eqFence (gr 0 0 0)).encodable = true ∧ (Instr.brp { s := true, v1 := false, g := 0, off := 0 }).encodable = true := by decide +kernel
theorem witness_UnassignedRefused : (0x6FFFFFFF : W32).toNat / 2 ^ 28 % 4 ≥ 2 ∧ ((0x1FFFFFFF : W32).toNat / 2 ^ 28 % 4 < 2 ∧ (0x1FFFFFFF : W32).toNat / 2 ^ 31 = 0) ∧
    ((0x9FFFFFFF : W32).toNat / 2 ^ 28 % 4 < 2 ∧ (0x9FFFFFFF : W32).toNat / 2 ^ 31 = 1) := by decide +kernel
theorem witness_StepRunsDecoded :
    let s := { mach with agenda := [.issue 7, .issue 9] }
    s.agenda = .issue 7 :: [.issue 9] ∧ ({ s.tickClock with agenda := [.issue 9], turn := 7 } : State).issuer = some (wave, run) ∧
    ({ s.tickClock with agenda := [.issue 9], turn := 7 } : State).bpcHits wave run = [] ∧
    (mach.agenda = [] ∧ mach.tickClock.ownTurn = some (.issue 7)) := by decide +kernel
/-- The words fetched at an address with m beside the page tables. -/
def fetches (pc : Nat) (m : List Host.Cell) : Option (W32 × W32 × W32) :=
  match ({ mach with mem := mem ++ m } : State).fetch wave (va pc) with
  | (.ok w, _) => some w
  | _ => none
/-- Words at the end of a page that decode, words that do not, and an address with no mapping. -/
theorem witness_StepRunsDecoded_fetch :
    fetches 0x5FFC [(0x200FFC, 0x7F), (0x200FFD, 0x0E), (0x200FFE, 0xC0), (0x200FFF, 0x44)] = some (0x44C00E7F, 0, 0) ∧
    (decode 0x44C00E7F 0 0).toOption.isSome = true ∧ fetches 0x5000 [(0x200003, 0x20)] = some (0x20000000, 0, 0) ∧
    (decode 0x20000000 0 0).toOption.isSome = false ∧ fetches 0x4000 [] = none := by decide +kernel
theorem witness_FetchReads :
    (match (mach.resolve wave 0 { kind := aFETCH, size := 4, align := 4, globalOnly := true } false 0x5000) with
      | (.ok (.glob p), s1) => p.key == 0x200000 && (List.range 4).all (fun i => (Tab.get? s1.pages ((p.key + i) / 4096)).isNone && s1.winAt (p.key + i) == none &&
          (s1.dirOf ((p.key + i) / 128)).state != 2#2)
      | _ => false) = true := by decide +kernel

def res1 : Res := { seq := 3, left := some 2, writes := [{ loc := .s 4, val := 9 }, { loc := .v 1 12, val := 0x1FFFFFFFF }] }
def res2 : Res := { seq := 4, left := none, writes := [{ loc := .k 2, val := 0xFFFFF }, { loc := .s 5, val := 1 }] }
theorem witness_RetireFrame : ({ s := mach } : Eff).s.wave? mach.turn = some wave ∧ run.pending = [] ∧ resultClass (Instr.mulLo (lr 1 2 3)).raw = .fix 4 ∧
    resultClass (Instr.rcpF32 (lr 1 2 0x3F)).raw = .var ∧ ({ s := mach } : Eff).silent = false := by decide +kernel
theorem witness_CommitLatency : ({ run with pending := [res1] } : Run).pending = [res1] ∧ res1.left = some 2 ∧ 0 < 2 := by decide +kernel
theorem witness_CommitOrder :
    let r : Run := { run with pending := [res1] ++ res2 :: [{ res1 with seq := 5 }], wrote := [(.k 2, 1)] }
    r.pending = [res1] ++ res2 :: [{ res1 with seq := 5 }] ∧ Spec.readable (.k 2) = true ∧ res2.writes = [] ++ ⟨.k 2, 0xFFFFF⟩ :: [{ loc := .s 5, val := 1 }] ∧
    (∀ y ∈ [res1], y.seq < res2.seq) ∧ (∀ w ∈ [({ loc := .s 5, val := 1 } : Write)], w.loc ≠ .k 2) ∧
    (∀ y ∈ [{ res1 with seq := 5 }], ∀ w ∈ y.writes, w.loc ≠ .k 2) ∧ (∀ q, lastWriter (.k 2) r.wrote = some q → q ≤ res2.seq) := by
  refine ⟨rfl, rfl, rfl, by decide +kernel, by decide +kernel, by decide +kernel, fun q h => ?_⟩
  have : lastWriter (.k 2) [(Loc.k 2, 1)] = some 1 := by decide +kernel
  rw [show ({ run with pending := [res1] ++ res2 :: [{ res1 with seq := 5 }], wrote := [(Loc.k 2, 1)] } : Run).wrote = [(Loc.k 2, 1)] from rfl, this] at h
  cases h; decide
theorem witness_RunEnds : (commitAll wave { run with ended := true, targets := [(1, 0x2000)] }).1.fibre? 1 = some { pc := 0x1000, thread := 1, preds := 0xAA, winBase := 8 } := by decide +kernel

/-- A cause raised by lane 1. -/
def cause4 : Trap := { cause := cOPERAND, sub := 7, tval := 5, lanes := 2, low := 1 }
def procOff : Proc := { proc with trapbase := 0 }
theorem witness_TrapEntry : wave.inTrap = false ∧ wave.dbg = none ∧ mach.proc? wave.proc = some proc ∧ proc.trapbase ≠ 0#48 ∧ cause4.cause ≠ cHBMUE ∧ cause4.cause ≠ cACKLOST ∧
    wave.width ≤ 64 ∧ wave.fibre? 1 = some { pc := 0x1000, thread := 1, preds := 0xAA, winBase := 8 } := by decide +kernel
theorem witness_DoubleTrap : ({ wave with inTrap := true } : Wave).inTrap = true ∧ ({ wave with dbg := some { mask := 1, retPc := 0, s60 := 0, s61 := 0, s62 := 0, s63 := 0 } } : Wave).dbg.isSome = true := by
  decide +kernel
theorem witness_UndeliveredTrap : ({ mach with procs := [(5, procOff)] } : State).proc? wave.proc = some procOff ∧ procOff.trapbase = 0#48 ∧ cause4.cause ≠ cPOISON := by decide +kernel
/-- Three states of a handler's return: the last lane arrives with no frozen run, with one, and a lane is still missing. -/
theorem witness_RfeReturns :
    let v := { wave with inTrap := true, trapMask := 7, rfeMask := 3, frame := { tepc := 0x1008, tfpc := 0x1008, tsave0 := 60 } }
    (v.trapMask &&& v.live &&& ~~~(v.rfeMask ||| 4) = 0#64 ∧ v.frozen = none) ∧
    (({ v with frozen := some { run with issued := 2 } } : Wave).frozen = some { run with issued := 2 } ∧ v.frame.tepc = v.frame.tfpc) ∧
    v.trapMask &&& v.live &&& ~~~(v.rfeMask ||| 1) ≠ 0#64 := by decide +kernel
theorem witness_EndTraps : (({ seq := 4, trap := { cause4 with cause := 0x35 }, pc := 0x1004, word := 1, x1 := 2, x2 := 3 } : LateFault).trap.cause ≠ cHBMUE) ∧ (0x35 ≠ cACKLOST) ∧
    mach.proc? wave.proc = some proc := by decide +kernel
theorem witness_DebugEntry : mach.wave? 7 = some wave ∧ wave.fibre? 2 = some { pc := 0x1000, thread := 2, preds := 0x55 } := by decide +kernel

/-! ## Uniform instructions -/

def uniV : Wave :=
  { wS [(1, 0x8000000000000000), (2, 0xFFFFFFFFFFFFFFFF), (3, 5), (4, 63), (5, 64), (6, 0x1000), (7, 0x1002), (8, 0x1000000000000), (60, 60), (63, 63)] with masks := [(0, 0xFFF8), (11, 5)] }
def uniS : State := on uniV
theorem witness_UniformArithmetic :
    (∀ i ∈ Spec.uni2.map (fun p => p.1 (gr 63 (if (p.1 (gr 1 2 3)).raw = (Instr.sMov (gr 1 2 3)).raw then 0 else 63) 0x1FF)), Issues i uniS uniV run) ∧
    (∀ i ∈ [Instr.sAdd (gr 0 63 0x080 0 0x80000000), .sMov (gr 0 0 63), .sShl (gr 1 1 4), .sSra (gr 1 1 5)], Issues i uniS uniV run) :=
  ⟨issues_all (by decide +kernel), issues_all (by decide +kernel)⟩
theorem witness_UniformSelect : ∀ i ∈ [Instr.sCmpI64 (gr 1 1 2 7), .sCmpN64 (gr 1 1 2 0), .sSel (gr 1 2 3 0), .sSel (gr 1 2 3 63)], Issues i uniS uniV run :=
  issues_all (by decide +kernel)
theorem witness_Branches :
    (∀ i ∈ [Instr.br { s := true, v1 := false, off := 0x100000 }, .call { s := true, v1 := false, off := 0xFFFFF }, .jmp (gr 0 6 0), .jmp (gr 0 7 0), .jmp (gr 0 8 0),
        .bz { s := true, v1 := false, a := 0, off := 0x4000 }, .bnz { s := true, v1 := false, a := 3, off := 0x3FFF }, .bneg { s := true, v1 := false, a := 1, off := 1 }], Issues i uniS uniV run) ∧
    ((uniV.sreg 6).toNat % 4 = 0 ∧ (uniV.sreg 6).toNat < 2 ^ 48) ∧ (uniV.sreg 7).toNat % 4 ≠ 0 ∧ 2 ^ 48 ≤ (uniV.sreg 8).toNat :=
  ⟨issues_all (by decide +kernel), by decide +kernel⟩
/-- No free lane in a wave of three; lanes 3 and 1 free in waves of sixteen, the latter with a run of lanes 0 and 2. -/
theorem witness_Fibres :
    let g : GC := { s := true, v1 := false, a := 63, off := 0x7FFF }
    let full := { uniV with width := 3 }
    let gap := { uniV with fibres := [(0, { pc := 0x1000, thread := 0 }), (2, { pc := 0x1000, thread := 2 })], run := some { run with mask := 5 } }
    (Issues (.fibSpawn g) (on full) full run ∧ (∀ l < full.width, (full.fibre? l).isSome = true)) ∧
    (Issues (.fibSpawn g) uniS uniV run ∧ 3 < uniV.width ∧ uniV.fibre? 3 = none ∧ (∀ m < 3, (uniV.fibre? m).isSome = true) ∧ uniS.crew? uniV.crew = some crew) ∧
    (Issues (.fibSpawn g) (on gap) gap { run with mask := 5 } ∧ gap.fibre? 1 = none ∧ (∀ m < 1, (gap.fibre? m).isSome = true)) ∧
    Issues (.fibEnd (gr 0 0 0)) uniS uniV run :=
  ⟨⟨issues_of (by decide +kernel), by decide +kernel⟩, ⟨issues_of (by decide +kernel), by decide +kernel⟩, ⟨issues_of (by decide +kernel), by decide +kernel⟩, issues_of (by decide +kernel)⟩
theorem witness_Masks : ∀ i ∈ [Instr.mkJoin (gr 11 0 0), .mkLeave (gr 0 0 0), .mkMovToMask (gr 11 63 0x100), .mkMovFromMask (gr 63 11 0x101), .mkWait (gr 11 0 0), .mkCur (gr 63 0 0)],
    Issues i uniS uniV run := issues_all (by decide +kernel)
/-- A wave whose batch is to be held: barrier 2 pending, or no barrier; token 7 counting; lanes 0 to 2 held on mask 11, or lane 2 not. -/
theorem witness_Holds :
    let h : Held := { lanes := 3, site := {}, on := .maskWait 11 }
    let hV := { uniV with held := [h, { h with lanes := 4 }], masks := [(11, 7)] }
    let pV := { uniV with pend := [(2, 1)], tokens := [(7, { count := 255 })] }
    ((on pV).wave? 7 = some pV ∧ Tab.getD pV.pend 2 0 ≠ 0 ∧ (∃ i < 8, (128).testBit i = true ∧ (pV.token i).count ≠ 0) ∧ Tab.getD pV.pend 3 0 = 0 ∧ pV.arriving = [] ∧ pV.held = []) ∧
    ((on hV).wave? 7 = some hV ∧ (∃ h ∈ hV.held, h.on = .maskWait 11 ∧ h.lanes ≠ 0#64) ∧
      (∀ l < 64, (hV.mask 11).getLsbD l = true → hV.live.getLsbD l = true → ∃ h ∈ hV.held, h.on = .maskWait 11 ∧ h.lanes.getLsbD l = true)) ∧
    ¬ (∀ l < 64, ({ hV with held := [h] }.mask 11).getLsbD l = true → { hV with held := [h] }.live.getLsbD l = true → ∃ x ∈ [h], x.on = .maskWait 11 ∧ x.lanes.getLsbD l = true) ∧
    (uniS.wave? 7 = some uniV ∧ uniV.held = [] ∧ uniV.instances = [] ∧ uniV.inTrap = false ∧ uniV.dbg = none ∧ (∀ k, uniS.crew? uniV.crew = some k → k.regions = []) ∧
      (∃ e ∈ uniV.fibres, (3#64).getLsbD e.1 = false)) := by
  refine ⟨by decide +kernel, by decide +kernel, by decide +kernel, by decide +kernel, rfl, rfl, rfl, rfl, fun k hk => ?_, by decide +kernel⟩
  have : uniS.crew? uniV.crew = some crew := by decide +kernel
  rw [this] at hk
  cases hk
  rfl
def nopV : Wave := { uniV with run := some { run with issued := 23, pending := [{ res1 with left := some 2 }] } }
theorem witness_NopAndCurrentMask :
    (Issues (.nop (gr 0 0 0)) uniS uniV run ∧ Issues (.mkCur (gr 1 0 0)) uniS uniV run) ∧
    (Issues (.nop (gr 0 0 0)) (on nopV) nopV { run with issued := 23, pending := [{ res1 with left := some 2 }] } ∧ (on nopV).wave? (on nopV).turn = some nopV ∧ res1.left = some (0 + 2)) :=
  ⟨⟨issues_of (by decide +kernel), issues_of (by decide +kernel)⟩, issues_of (by decide +kernel), by decide +kernel⟩
theorem witness_SpecialRegisters : ∀ i ∈ ([0, 1, 2, 3, 4, 5, 6, 7, 8, 0x10, 0x11, 0x12, 0x13, 0x14, 0x15, 0x16, 0x17, 0x18, 0x19, 0x1A, 0x1B, 0x1C].flatMap
    (fun n => [Instr.srRd (gr 63 0 (0x100 + n)), .srWr (gr 0 63 (0x100 + n))])), Issues i uniS uniV run := issues_all (by decide +kernel)
theorem witness_LaneGenerators : 15 < wave.width ∧ mach.wave? 7 = some wave ∧ ((drewAll (mach.ctx wave run (.mov (lr 1 2 0x3F))) true 2 mach).wave? 7).isSome = true ∧ (1#32 ≠ 0#32) := by
  decide +kernel
/-- A core with debug enabled, with another wave of the core in debug mode, and with debug disabled. -/
def brkS (v : Wave) (en other : Bool) : State :=
  { mach with
    waves := [(7, v)] ++ (if other then [(8, { wave with run := none, dbg := some { mask := 1, retPc := 0, s60 := 0, s61 := 0, s62 := 0, s63 := 0 } })] else [])
    cores := [(3, { dreg := [(1, if en then 1 else 0)] })] }
def brkV : Wave := { wave with dbg := some { mask := 7, retPc := 0x2000, s60 := 0, s61 := 0, s62 := 0, s63 := 0 } }
theorem witness_SystemInstructions :
    (∀ i ∈ [Instr.trap (gr 0 0 0x17F), .brk (gr 0 0 0x100), .rfe (gr 0 0 0)], Issues i (brkS wave true false) wave run ∧ Issues i (brkS wave true true) wave run ∧ Issues i (brkS wave false false) wave run ∧
      Issues i (brkS brkV true false) brkV run) ∧
    ((Tab.getD ((brkS wave true true).core ((brkS wave true true).coreOf wave)).dreg 1 0).getLsbD 0 = true ∧ otherInDebug (brkS wave true true) (brkS wave true true).turn ((brkS wave true true).coreOf wave) = true) ∧
    ((Tab.getD ((brkS wave true false).core ((brkS wave true false).coreOf wave)).dreg 1 0).getLsbD 0 = true ∧ otherInDebug (brkS wave true false) 7 ((brkS wave true false).coreOf wave) = false) ∧
    (Tab.getD ((brkS wave false false).core ((brkS wave false false).coreOf wave)).dreg 1 0).getLsbD 0 = false ∧ wave.dbg = none ∧ wave.inTrap = false ∧ brkV.dbg.isSome = true :=
  ⟨fun i hi => ⟨issues_all (l := [Instr.trap (gr 0 0 0x17F), .brk (gr 0 0 0x100), .rfe (gr 0 0 0)]) (by decide +kernel) i hi, issues_all (l := [Instr.trap (gr 0 0 0x17F), .brk (gr 0 0 0x100), .rfe (gr 0 0 0)]) (by decide +kernel) i hi,
      issues_all (l := [Instr.trap (gr 0 0 0x17F), .brk (gr 0 0 0x100), .rfe (gr 0 0 0)]) (by decide +kernel) i hi, issues_all (l := [Instr.trap (gr 0 0 0x17F), .brk (gr 0 0 0x100), .rfe (gr 0 0 0)]) (by decide +kernel) i hi⟩,
    by decide +kernel⟩

/-! ## Results -/

/-- R127, R128 of 2^63, all ones, 5, 63 and 64; R129, R130. -/
theorem test_uniform : ([
   (.sAdd (gr 9 1 2), 0x7FFFFFFFFFFFFFFF), (.sSub (gr 9 3 2), 6), (.sMul (gr 9 1 3), 0x8000000000000000), (.sAnd (gr 9 3 0x1FE), 4), (.sOr (gr 9 3 0x108), 13), (.sXor (gr 9 3 2), 0xFFFFFFFFFFFFFFFA),
   (.sShl (gr 9 3 4), 0x8000000000000000), (.sShl (gr 9 3 5), 0), (.sShr (gr 9 1 4), 1), (.sShr (gr 9 1 5), 0), (.sSra (gr 9 1 5), 0xFFFFFFFFFFFFFFFF), (.sMinI64 (gr 9 1 3), 0x8000000000000000),
   (.sMinN64 (gr 9 1 3), 5), (.sMaxI64 (gr 9 1 3), 5), (.sMaxN64 (gr 9 1 3), 0x8000000000000000), (.sMov (gr 9 0 0x080 0 0x80000000), 0xFFFFFFFF80000000), (.sCmpI64 (gr 9 1 3 2), 1), (.sCmpN64 (gr 9 1 3 2), 0),
   (.sSel (gr 9 1 3 0), 5), (.sSel (gr 9 1 3 3), 0x8000000000000000), (.mkCur (gr 9 0 0), 7), (.mkMovFromMask (gr 9 0 0x101), 0xFFF8)] : List (Instr × Nat)).all
    (fun p => decide (writes p.1 uniS = [(30009, p.2)])) = true := by decide +kernel
/-- R136, R137: lanes 0 to 2 join k11 (5) and leave it; s2 to k0. -/
theorem test_masks : writes (.mkJoin (gr 11 0 0)) uniS = [(40011, 7)] ∧ writes (.mkLeave (gr 11 0 0)) uniS = [(40011, 0)] ∧ writes (.mkMovToMask (gr 0 4 0x100)) uniS = [(40000, 63)] := by decide +kernel
/-- The PC to which a branch at 0x1000 sends its batch. -/
def goes (i : Instr) (s : State) : Option Nat := match exec i s with | .next t => ((t.wave? 7).bind (·.run)).map (·.pc.toNat) | _ => none
/-- R48, R131, R132, R133. -/
theorem test_branches :
    goes (.br { s := true, v1 := false, off := 3 }) uniS = some 0x100C ∧ goes (.call { s := true, v1 := false, off := 0x1FFFFF }) uniS = some 0xFFC ∧
    writes (.call { s := true, v1 := false, off := 3 }) uniS = [(30059, 0x1004)] ∧ goes (.bz { s := true, v1 := false, a := 10, off := 2 }) uniS = some 0x1008 ∧
    goes (.bz { s := true, v1 := false, a := 3, off := 2 }) uniS = some 0x1004 ∧ goes (.bnz { s := true, v1 := false, a := 3, off := 2 }) uniS = some 0x1008 ∧
    goes (.bneg { s := true, v1 := false, a := 1, off := 0x7FFF }) uniS = some 0xFFC ∧ goes (.jmp (gr 0 6 0)) uniS = some 0x1000 ∧ traps (.jmp (gr 0 7 0)) uniS = some (4, 7) := by decide +kernel
/-- R134: lane 3 is free and the spawn number is 0: the value is 3, and lane 3 stands at the target. -/
theorem test_spawn : writes (.fibSpawn { s := true, v1 := false, a := 9, off := 4 }) uniS = [(30009, 3)] ∧
    nextIs (exec (.fibSpawn { s := true, v1 := false, a := 9, off := 4 }) uniS) (fun t => ((t.wave? 7).bind (·.fibre? 3)).any (fun f => f.pc == 0x1010)) = true := by decide +kernel
/-- R141, R145, R365, R417. -/
theorem test_system :
    writes (.srRd (gr 9 0 0x101)) (on { uniV with srseed := 77 }) = [(30009, 77)] ∧
    nextIs (exec (.srWr (gr 0 2 0x100)) uniS) (fun t => (t.wave? 7).any (fun v => v.fpflags == 0x1F)) = true ∧
    traps (.rfe (gr 0 0 0)) uniS = some (6, 2) ∧ traps (.brk (gr 0 0 0x105)) uniS = some (6, 4) ∧ traps (.dbgRd (gr 1 2 0)) uniS = some (6, 1) := by decide +kernel

/-- B as a register, an operand word and an immediate; the ends of the lane codes. -/
theorem witness_OperandForms : (gr 0 0 63).b.toNat < 64 ∧ (gr 0 0 0x080).b = 0x080#9 ∧ 256 ≤ (gr 0 0 0x100).b.toNat ∧ 256 ≤ (gr 0 0 0x1FF).b.toNat ∧ 0x2F < 0x30 ∧ 0x2E < 0x2F ∧ 0x37 < 0x38 := by decide

end Sys2Proof.Tests
end

section
/-!
Joining and leaving crews, and the placement and pre-emption of crews (R12, R42, R43, R227-R229, R298, R299, R340, R343, R464). First what the
operations on memory, holds, traps and queues leave alone of the crews; then one lemma per move of a crew; then the two halves of the statement.
-/

namespace Sys2Proof.Machine

/-! ## Frames: what an operation leaves alone -/

/-- What every step of a fold leaves alone, the fold leaves alone. -/
theorem foldl_kept {σ α β : Type} (g : σ → β) (f : σ → α → σ) (l : List α) (s : σ) (h : ∀ s a, g (f s a) = g s) : g (l.foldl f s) = g s := by
  induction l generalizing s with
  | nil => rfl
  | cons a l ih => rw [List.foldl_cons, ih, h]

/-- A property that every step of a fold keeps holds after the fold. -/
theorem foldl_keeps {σ α : Type} (p : σ → Prop) (f : σ → α → σ) (h : ∀ s a, p s → p (f s a)) (l : List α) (s : σ) (hs : p s) : p (l.foldl f s) := by
  induction l generalizing s with
  | nil => exact hs
  | cons a l ih => exact ih _ (h s a hs)

theorem Tab.mem_set {α : Type} {t : Tab α} {n : Nat} {a : α} {e : Nat × α} (h : e ∈ Tab.set t n a) : e ∈ t ∨ e = (n, a) := by
  induction t with
  | nil => exact .inr (by simpa [Tab.set] using h)
  | cons x t ih =>
    obtain ⟨k, b⟩ := x
    by_cases hk : k = n
    · simp only [Tab.set, hk, if_true, List.mem_cons] at h
      exact h.elim .inr (fun h => .inl (List.mem_cons_of_mem _ h))
    · simp only [Tab.set, hk, if_false, List.mem_cons] at h
      rcases h with h | h
      · exact .inl (h ▸ List.mem_cons_self)
      · exact (ih h).imp_left (List.mem_cons_of_mem _)

theorem Tab.mem_of_get? {α : Type} {t : Tab α} {n : Nat} {a : α} (h : Tab.get? t n = some a) : (n, a) ∈ t := by
  induction t with
  | nil => cases h
  | cons x t ih =>
    obtain ⟨k, b⟩ := x
    rw [Tab.get?_cons] at h
    split at h
    · rename_i hk; cases h; exact hk ▸ List.mem_cons_self
    · exact List.mem_cons_of_mem _ (ih h)

/-! ### Memory leaves the crews alone -/

@[simp] theorem State.applyBytes_crews (s : State) (l : Tab Byte) : (s.applyBytes l).crews = s.crews := by
  unfold State.applyBytes
  exact foldl_kept State.crews _ l s (fun t e => by simp)
@[simp] theorem State.setDir_crews (s : State) (line : Nat) (e : DirEntry) : (s.setDir line e).crews = s.crews := rfl
@[simp] theorem State.invalSharers_crews (s : State) (line keep : Nat) : (s.invalSharers line keep).crews = s.crews := rfl
@[simp] theorem State.recallFrom_crews (s : State) (d line : Nat) : (s.recallFrom d line).crews = s.crews := by
  unfold State.recallFrom
  split
  · simp
  · split <;> simp
@[simp] theorem State.rdcEvict_crews (s : State) (d line : Nat) : (s.rdcEvict d line).crews = s.crews := by
  unfold State.rdcEvict
  split
  · rfl
  · dsimp only; split
    · simp
    · split <;> rfl
@[simp] theorem State.rdcPut_crews (s : State) (d line : Nat) (r : RdcLine) : (s.rdcPut d line r).crews = s.crews := by
  unfold State.rdcPut
  dsimp only; split <;> simp
@[simp] theorem State.readShared_crews (s : State) (d line : Nat) : (s.readShared d line).crews = s.crews := by
  unfold State.readShared
  dsimp only; split <;> simp
@[simp] theorem State.readOwn_crews (s : State) (d line : Nat) : (s.readOwn d line).crews = s.crews := by
  unfold State.readOwn
  dsimp only; split <;> simp
@[simp] theorem State.acceptWb_crews (s : State) (d line : Nat) (r : RdcLine) : (s.acceptWb d line r).crews = s.crews := by
  unfold State.acceptWb
  dsimp only; split <;> simp
@[simp] theorem State.settleWb_crews (s : State) (d line : Nat) : (s.settleWb d line).crews = s.crews := by
  unfold State.settleWb
  split <;> simp
@[simp] theorem State.hostGone_crews (s : State) (line : Nat) : (s.hostGone line).crews = s.crews := by
  unfold State.hostGone
  refine (foldl_kept State.crews _ _ _ (fun t r => ?_)).trans rfl
  split
  · simp
  · split <;> simp
@[simp] theorem State.settleHost_crews (s : State) (line : Nat) : (s.settleHost line).crews = s.crews := by
  unfold State.settleHost
  dsimp only; split <;> simp
@[simp] theorem State.farTake_crews (s : State) (d line : Nat) (own : Bool) : (s.farTake d line own).crews = s.crews := by
  unfold State.farTake
  extract_lets others s1
  have h : s1.crews = s.crews := foldl_kept State.crews _ others s (fun t e => by simp)
  split
  · split <;> simp [h]
  · simp [h]
@[simp] theorem State.farBack_crews (s : State) (sel : Nat → Bool) : (s.farBack sel).crews = s.crews := by
  unfold State.farBack
  exact foldl_kept State.crews _ _ s (fun t e => by simp)
@[simp] theorem State.setPageDir_crews (s : State) (g : Nat) (f : DirEntry → DirEntry) : (s.setPageDir g f).crews = s.crews := by
  unfold State.setPageDir
  exact foldl_kept State.crews _ _ s (fun t i => by simp)
@[simp] theorem State.modPage_crews (s : State) (g : Nat) (f : PageState → PageState) : (s.modPage g f).crews = s.crews := rfl
@[simp] theorem State.pageHome_crews (s : State) (g : Nat) : (s.pageHome g).crews = s.crews := by simp [State.pageHome]
@[simp] theorem State.countTransfers_crews (s : State) (g n : Nat) : (s.countTransfers g n).crews = s.crews := by
  unfold State.countTransfers
  extract_lets p now p1
  split <;> simp
@[simp] theorem State.pageBack_crews (s : State) (g : Nat) : (s.pageBack g).crews = s.crews := by
  unfold State.pageBack
  dsimp only
  exact foldl_kept State.crews _ _ s (fun t i => by simp)
@[simp] theorem State.pageTouch_crews (s : State) (g : Nat) (w : Bool) : (s.pageTouch g w).crews = s.crews := by
  unfold State.pageTouch
  split
  · rfl
  · split
    · simp
    · split <;> simp
@[simp] theorem State.homeRecall_crews (s : State) (line : Nat) (w : Bool) : (s.homeRecall line w).crews = s.crews := by
  unfold State.homeRecall
  dsimp only; split
  · simp
  · split <;> simp
@[simp] theorem State.farHome_crews (s : State) (k : Nat) : (s.farHome k).crews = s.crews := by simp [State.farHome]
@[simp] theorem State.homeWrite_crews (s : State) (k : Nat) (b : Byte) : (s.homeWrite k b).crews = s.crews := by
  unfold State.homeWrite
  split <;> simp
@[simp] theorem State.dieWrite_crews (s : State) (d k : Nat) (b : Byte) : (s.dieWrite d k b).crews = s.crews := by
  unfold State.dieWrite
  split
  · simp
  · dsimp only; split
    · simp
    · split <;> simp
@[simp] theorem State.wbByte_crews (s : State) (c k : Nat) (b : L1Byte) : (s.wbByte c k b).crews = s.crews := by
  unfold State.wbByte
  split <;> simp
@[simp] theorem State.addAck_crews (s : State) (w node die key : Nat) (a : Bool) : (s.addAck w node die key a).crews = s.crews := rfl
@[simp] theorem State.flushL1_crews (s : State) (c : Nat) (sel : Nat → Bool) (inval : Bool) : (s.flushL1 c sel inval).crews = s.crews := by
  unfold State.flushL1
  extract_lets pairs held stays part s1 s2
  have h1 : s1.crews = s.crews := foldl_kept State.crews _ part s (fun t e => by simp)
  have h2 : s2.crews = s.crews := (foldl_kept State.crews _ _ s1 (fun t p => by simp)).trans h1
  split <;> simp [h2]
@[simp] theorem State.acqObj_crews (s : State) (v : Wave) (scope : Nat) (o : SyncObj) : (s.acqObj v scope o).crews = s.crews := by
  unfold State.acqObj
  split
  · rfl
  · split <;> simp
@[simp] theorem State.wakeAddr_crews (s : State) (crew off size : Nat) : (s.wakeAddr crew off size).crews = s.crews := by
  unfold State.wakeAddr
  split
  · rfl
  · refine foldl_kept State.crews _ _ _ (fun t e => ?_)
    split
    · rfl
    · split
      · rfl
      · refine (foldl_kept State.crews _ _ _ (fun u h => ?_)).trans rfl
        split <;> simp

/-! ### Records and traps leave the crews alone -/

@[simp] theorem State.sendRecord_crews (s : State) (d p : Nat) (r : RecInfo) : (s.sendRecord d p r).crews = s.crews := by
  unfold State.sendRecord State.sendRecordSeq
  dsimp only; split <;> rfl
@[simp] theorem State.sendRecord_waves (s : State) (d p : Nat) (r : RecInfo) : (s.sendRecord d p r).waves = s.waves := by
  unfold State.sendRecord State.sendRecordSeq
  dsimp only; split <;> rfl
@[simp] theorem State.deliverTrap_crews (s : State) (w : Nat) (v : Wave) (t : Trap) (lanes : W64) (site : Site) (tepc : BitVec 48)
    (frozen : Option Run) (issued : Nat) (isOpen : Bool) : (s.deliverTrap w v t lanes site tepc frozen issued isOpen).crews = s.crews := by
  unfold State.deliverTrap
  dsimp only; split
  · rfl
  · split
    · simp
    · split
      · split
        · rw [State.sendRecord_crews]; rfl
        · simp
      · rfl
@[simp] theorem State.deadTest_crews (s : State) (w : Nat) : (s.deadTest w).crews = s.crews := by
  unfold State.deadTest
  split
  · rfl
  · split
    · rfl
    · split
      · split
        · rfl
        · dsimp only; split <;> simp
      · split
        · rfl
        · dsimp only; split <;> simp

@[simp] theorem State.claimsChanged_crews (s : State) : s.claimsChanged.crews = s.crews := rfl

/-! ## A crew that stands at a place -/

theorem State.crew?_congr {s t : State} (h : t.crews = s.crews) (c : Nat) : t.crew? c = s.crew? c := by simp [State.crew?, h]

/-- Crew c is at a place with a scratchpad, and no step region of it can move words of that scratchpad (R236). -/
def State.Stands (c : Nat) (pl : Place) (x : Tab W32) (s : State) : Prop :=
  ∃ k, s.crew? c = some k ∧ k.place = pl ∧ k.scratch = x ∧ k.regions = []

/-- A change of a crew that leaves its place, scratchpad and regions. -/
def KeepsStand (f : Crew → Crew) : Prop := ∀ k, (f k).place = k.place ∧ (f k).scratch = k.scratch ∧ (f k).regions = k.regions

section
variable {c : Nat} {pl : Place} {x : Tab W32} {s t : State}

theorem State.Stands.of_crew? (h : t.crew? c = s.crew? c) (hs : s.Stands c pl x) : t.Stands c pl x := by
  unfold State.Stands
  rw [h]
  exact hs

theorem State.Stands.of_crews (h : t.crews = s.crews) (hs : s.Stands c pl x) : t.Stands c pl x := hs.of_crew? (State.crew?_congr h c)

theorem State.Stands.modCrew {f : Crew → Crew} (hf : KeepsStand f) (d : Nat) (hs : s.Stands c pl x) : (s.modCrew d f).Stands c pl x := by
  obtain ⟨k, hk, hp, hx, hr⟩ := hs
  by_cases h : d = c
  · obtain ⟨ep, ex, er⟩ := hf k
    exact ⟨f k, by simp [State.crew?_modCrew, h, hk], ep.trans hp, ex.trans hx, er.trans hr⟩
  · exact ⟨k, by simp [State.crew?_modCrew, h, hk], hp, hx, hr⟩

/-- A grant changes what storage crews hold (R245). -/
theorem State.Stands.grantStore (d : Nat) (ns na : List Nat) (hs : s.Stands c pl x) : (s.grantStore d ns na).Stands c pl x := by
  unfold State.grantStore
  refine foldl_keeps (State.Stands c pl x) _ (fun t n ht => ?_) _ _ (foldl_keeps (State.Stands c pl x) _ (fun t n ht => ?_) _ _ hs)
  · refine State.Stands.of_crews (s := t.modCrew d _) rfl (ht.modCrew (fun k => ?_) d)
    exact ⟨rfl, rfl, rfl⟩
  · refine State.Stands.of_crews (s := t.modCrew d _) rfl (ht.modCrew (fun k => ?_) d)
    exact ⟨rfl, rfl, rfl⟩

theorem State.acqTokens_crews (s : State) (w : Nat) (v : Wave) (m : Nat) : (s.acqTokens w v m).crews = s.crews := by
  unfold State.acqTokens
  refine foldl_kept State.crews _ _ s (fun t k => ?_)
  split <;> simp

/-- A hold that is released leaves the crews alone, but for the storage that a claim is granted (R246). -/
theorem State.Stands.tryRelease {w : Nat} {h : Held} (hs : s.Stands c pl x) (ht : s.tryRelease w h = some t) : t.Stands c pl x := by
  unfold State.tryRelease at ht
  split at ht
  · cases ht
  · split at ht
    case h_1 => -- a barrier
      split at ht <;> cases ht
      exact hs.of_crews rfl
    case h_2 => -- tokens
      split at ht <;> cases ht
      exact hs.of_crews (State.acqTokens_crews _ _ _ _)
    case h_3 => -- an address
      split at ht
      · cases ht
      · split at ht <;> cases ht
        exact hs.of_crews (State.acqObj_crews _ _ _ _)
    case h_4 => -- a tile
      split at ht
      · cases ht
      · cases ht
        refine hs.of_crews ?_
        split
        · exact State.acqObj_crews _ _ _ _
        · rfl
    case h_5 => -- a claim
      split at ht
      · split at ht <;> cases ht
        exact State.Stands.of_crews rfl (foldl_keeps (State.Stands c pl x) _ (fun t d hd => hd.grantStore d _ _) _ _ hs)
      · cases ht
    case h_6 => -- a gang
      split at ht
      · split at ht <;> cases ht
        exact hs.of_crews rfl
      · cases ht
    case h_7 => cases ht

theorem State.Stands.recheck (w : Nat) (hs : s.Stands c pl x) : (s.recheck w).Stands c pl x := by
  unfold State.recheck
  refine foldl_keeps (State.Stands c pl x) _ (fun t h ht => ?_) _ _ hs
  cases e : t.tryRelease w h with
  | none => exact ht
  | some u => exact ht.tryRelease e

/-- A step of another crew commits into its own scratchpad; a crew without regions has none to commit (R236). -/
theorem State.Stands.stepTest (d k : Nat) (hs : s.Stands c pl x) : (s.stepTest d k).Stands c pl x := by
  unfold State.stepTest
  split
  · exact hs
  · rename_i y hy
    split
    · exact hs
    · rename_i r hr
      have hd : d ≠ c := by
        rintro rfl
        obtain ⟨k', hk, _, _, hn⟩ := hs
        cases hy.symm.trans hk
        rw [hn] at hr
        cases hr
      extract_lets at_ s1 s2
      split
      · refine State.Stands.of_crews (foldl_kept State.crews _ _ s2 (fun t e => by simp)) ?_
        refine State.Stands.of_crews (foldl_kept State.crews _ at_ s1 (fun t e => by simp)) ?_
        exact hs.of_crew? (by simp [s1, State.crew?, State.setCrew, Tab.get?_set_ne _ _ hd])
      · exact hs

theorem State.Stands.settleWave (w : Nat) (hs : s.Stands c pl x) : (s.settleWave w).Stands c pl x := by
  unfold State.settleWave
  split
  · exact hs
  · unfold State.stepTests
    exact foldl_keeps (State.Stands c pl x) _ (fun t k ht => ht.stepTest _ k) _ _ (hs.of_crews rfl)

end

/-! ## Crews that nothing groups -/

/-- A crew in no gang goes alone (R262). -/
theorem State.together_alone {s : State} {c : Nat} {k : Crew} (hk : s.crew? c = some k) (hg : k.gang = none) : s.together c = [c] := by
  simp [State.together, State.holderCrews, State.gangOf, hk, hg]

/-! ## The end of a transfer (R12, R299) -/

theorem State.restoreCmds_nothing {s : State} {c : Nat} {k : Crew} (hk : s.crew? c = some k) (hs : k.saved = []) : s.restoreCmds c = s := by
  simp [State.restoreCmds, hk, hs]

/-- A crew with nothing saved arrives: it is resident with its scratchpad. -/
theorem State.arriveCrew_stands {s : State} {c : Nat} {k : Crew} (hk : s.crew? c = some k) (hs : k.saved = []) (hr : k.regions = []) :
    (s.arriveCrew c).Stands c .resident k.scratch := by
  have h1 : (s.modCrew c (fun k => { k with place := .resident })).crew? c = some { k with place := .resident } := by simp [State.crew?_modCrew, hk]
  unfold State.arriveCrew
  rw [State.restoreCmds_nothing h1 hs]
  extract_lets s1 s2
  have h2 : s1.Stands c .resident k.scratch := ⟨_, h1, rfl, rfl, hr⟩
  have h3 : s2.Stands c .resident k.scratch := foldl_keeps (State.Stands c .resident k.scratch) _ (fun t e ht => (ht.recheck e.1).settleWave e.1) _ _ h2
  refine State.Stands.of_crews (State.claimsChanged_crews _) ?_
  exact h3.of_crews (foldl_kept State.crews _ _ s2 (fun t e => by simp))

/-- The context of a crew in no gang has come in. -/
theorem State.contextIn_stands {s : State} {c : Nat} {k : Crew} (hk : s.crew? c = some k) (hg : k.gang = none) (hs : k.saved = []) (hr : k.regions = []) :
    (s.contextIn c).Stands c .resident k.scratch := by
  have h1 : (s.modCrew c (fun k => { k with place := .arrived })).crew? c = some { k with place := .arrived } := by simp [State.crew?_modCrew, hk]
  have e : s.contextIn c = (s.modCrew c (fun k => { k with place := .arrived })).arriveCrew c := by
    simp [State.contextIn, State.together_alone h1 hg, h1]
  rw [e]
  exact State.arriveCrew_stands (k := { k with place := .arrived }) h1 hs hr

/-- The end of a crew's transfer: without one nothing changes, and a crew in no gang with nothing saved is resident. -/
theorem transferDone {s : State} {c : Nat} {k : Crew} {pl : Place} {o : Host.Outcome State Fault Refusal} (hk : s.crew? c = some k)
    (ho : o = if k.place == pl then .next (s.contextIn c) else .next s) :
    (k.place ≠ pl → o = .next s) ∧
    (k.place = pl → k.gang = none → k.saved = [] → k.regions = [] → ∃ t k', o = .next t ∧ t.crew? c = some k' ∧ k'.place = .resident ∧ k'.scratch = k.scratch) := by
  refine ⟨fun hp => by simp [ho, hp], fun hp hg hs hr => ?_⟩
  obtain ⟨k', hk', hplace, hscr, _⟩ := State.contextIn_stands hk hg hs hr
  exact ⟨_, k', by simp [ho, hp], hk', hplace, hscr⟩

theorem execShadowSwapDone_eq {s : State} {c : Nat} {k : Crew} (hk : s.crew? c = some k) :
    execShadowSwapDone c s = if k.place == .swapping then .next (s.contextIn c) else .next s := by
  simp only [execShadowSwapDone, hk]

theorem execCaveRestoreDone_eq {s : State} {c : Nat} {k : Crew} (hk : s.crew? c = some k) :
    execCaveRestoreDone c s = if k.place == .restoring then .next (s.contextIn c) else .next s := by
  simp only [execCaveRestoreDone, hk]

/-! ## Placement (R298, R299) -/

/-- A lone crew of the cluster, at one of the eight levels, is the whole search order (R298). -/
theorem State.runOrder_alone {s : State} {c : Nat} {k : Crew} (hq : s.runq = [c]) (hk : s.crew? c = some k) (hp : s.crewPrio c < 8) :
    s.runOrder (coreCluster k.core) = [c] := by
  have e : s.runOrder (coreCluster k.core) = (List.range 8).reverse.flatMap (fun p => if s.crewPrio c = p then [c] else []) := by
    simp [State.runOrder, hq, hk, List.filter_cons]
  rw [e]
  generalize s.crewPrio c = p at hp ⊢
  have h : p = 0 ∨ p = 1 ∨ p = 2 ∨ p = 3 ∨ p = 4 ∨ p = 5 ∨ p = 6 ∨ p = 7 := by omega
  rcases h with rfl | rfl | rfl | rfl | rfl | rfl | rfl | rfl <;> rfl

theorem State.runOrder_nil {s : State} (hq : s.runq = []) (cl : Nat) : s.runOrder cl = [] := by simp [State.runOrder, hq]

/-- A lone runnable crew, in no gang and off its core, that fits there comes in. -/
theorem State.placeOn_alone {s : State} {c : Nat} {k : Crew} (hq : s.runq = [c]) (hk : s.crew? c = some k) (hg : k.gang = none)
    (hf : k.floating = false) (hm : k.moved = false) (hpl : k.place.onCore = false) (hfit : (s.fitCrew c []).isSome = true) (hp : s.crewPrio c < 8) :
    s.placeOn k.core = some (s.bringIn c) := by
  have hplace : s.placeCrew c = some (s.bringIn c) := by
    simp [State.placeCrew, hk, hf, State.together_alone hk hg, hpl, State.fenceDone, hm, State.bringAll, hfit]
  have hcomes : s.comesTo k.core c = true := by simp [State.comesTo, hk, hf]
  simp [State.placeOn, State.runOrder_alone hq hk hp, hcomes, hplace]

theorem execCrewPlacement_alone {s : State} {c : Nat} {k : Crew} (hq : s.runq = [c]) (hk : s.crew? c = some k) (hg : k.gang = none)
    (hf : k.floating = false) (hm : k.moved = false) (hpl : k.place.onCore = false) (hfit : (s.fitCrew c []).isSome = true) (hp : s.crewPrio c < 8) :
    execCrewPlacement k.core s = .next (s.bringIn c) := by
  rw [execCrewPlacement, State.placeOn_alone hq hk hg hf hm hpl hfit hp, Option.getD_some]

/-- The waves' slots and rows that a placement gives change waves alone. -/
theorem State.foldl_modWave_eq {α : Type} (l : List α) (w : α → Nat) (f : α → Wave → Wave) (s : State) :
    l.foldl (fun s e => s.modWave (w e) (f e)) s = { s with waves := (l.foldl (fun s e => s.modWave (w e) (f e)) s).waves } := by
  induction l generalizing s with
  | nil => rfl
  | cons a l ih => rw [List.foldl_cons, ih]; rfl

/-- What bringing in a crew that has no saved context, no answer and no move to finish makes of the state (R298, R299). -/
theorem State.bringIn_eq {s : State} {c : Nat} {k : Crew} {l : List (Nat × Nat × RowUse)} {b : Nat} (hk : s.crew? c = some k)
    (hfit : s.fitCrew c [] = some (l, b)) (hm : k.moved = false) (ha : k.answer = none) :
    ∃ ws, s.bringIn c =
      let pl := match k.place with | .shadow => Place.swapping | .cave => Place.restoring | _ => Place.resident
      let t : State := { (s.setCrew c { k with place := pl, base := b, newBase := false, swapIn := false, starved := 0 }) with
        waves := ws, runq := s.runq.filter (· != c) }
      match pl with
      | .swapping => t.send [.shadowSwapDone c]
      | .restoring => t.send [.caveRestoreDone c]
      | _ => t := by
  have hk' : ({ k with answer := none, moved := false } : Crew) = k := by rw [← hm, ← ha]
  refine ⟨(l.foldl (fun s e => s.modWave e.1 (fun v => { v with wslot := e.2.1, firstQuad := e.2.2.quad, firstRow := e.2.2.row, boost := false })) s).waves, ?_⟩
  unfold State.bringIn
  rw [hk, hfit]
  dsimp only
  rw [State.foldl_modWave_eq, hm, ha]
  simp only [Bool.false_eq_true, if_false]
  rfl

/-! ## Ageing (R464) -/

theorem State.crew?_foldl_modWave (f : Wave → Wave) (l : List (Nat × Wave)) (s : State) (c : Nat) :
    (l.foldl (fun s e => s.modWave e.1 f) s).crew? c = s.crew? c := foldl_kept (State.crew? · c) _ l s (fun _ _ => by simp)

/-- A change that may be made twice reaches each wave of a list, however often it is listed. -/
theorem State.wave?_foldl_modWave {f : Wave → Wave} (hf : ∀ v, f (f v) = f v) (l : List (Nat × Wave)) (s : State) (w : Nat) :
    (l.foldl (fun s e => s.modWave e.1 f) s).wave? w = if w ∈ l.map (·.1) then (s.wave? w).map f else s.wave? w := by
  induction l generalizing s with
  | nil => simp
  | cons e l ih =>
    rw [List.foldl_cons, ih, State.wave?_modWave]
    by_cases h : e.1 = w
    · subst h; cases s.wave? e.1 <;> simp [hf]
    · have h' : ¬ w = e.1 := fun x => h x.symm
      simp only [List.map_cons, List.mem_cons, h, h', if_false, false_or]

/-- A live wave of a crew is one of its members. -/
theorem State.mem_membersOf {s : State} {w c : Nat} {v : Wave} (hv : s.wave? w = some v) (hc : v.crew = c) (hd : v.dead = false) :
    (w, v) ∈ s.membersOf c := by
  simp [State.membersOf, Tab.mem_of_get? hv, hc, hd]

/-- A crew that is not runnable, whose limit is off, or that has not passed it, does not age. -/
theorem execStarveAging_stays {s : State} {c : Nat} {k : Crew} (hk : s.crew? c = some k)
    (h : c ∉ s.runq ∨ s.reg (coreDie k.core) 0xC0020 = 0 ∨
      s.tickOf (coreDie k.core) - k.runnableAt < s.reg (coreDie k.core) 0xC0020 * (k.starved + 1)) : execStarveAging c s = .next s := by
  simp only [execStarveAging, hk]
  rw [if_neg]
  simp only [Bool.and_eq_true, List.contains_iff_mem, decide_eq_true_eq]
  rintro ⟨⟨hq, hlim⟩, hle⟩
  rcases h with h | h | h
  · exact h hq
  · exact hlim h
  · exact Nat.not_lt_of_le hle h

/-- A crew that ages is recorded, counts one more period, and its members are boosted (R464). -/
theorem execStarveAging_ages {s : State} {c : Nat} {k : Crew} (hk : s.crew? c = some k) (hq : c ∈ s.runq) (hlim : s.reg (coreDie k.core) 0xC0020 ≠ 0)
    (hle : s.reg (coreDie k.core) 0xC0020 * (k.starved + 1) ≤ s.tickOf (coreDie k.core) - k.runnableAt) :
    ∃ t, execStarveAging c s = .next t ∧ t.crew? c = some { k with starved := k.starved + 1 } ∧
      ∀ w v, s.wave? w = some v → v.crew = c → v.dead = false → t.wave? w = some { v with boost := true } := by
  simp only [execStarveAging, hk]
  rw [if_pos (by simp [hq, hlim, hle])]
  generalize hrec : s.sendRecord (coreDie k.core) k.proc _ = s1
  have hc : s1.crews = s.crews := by rw [← hrec, State.sendRecord_crews]
  have hw : s1.waves = s.waves := by rw [← hrec, State.sendRecord_waves]
  refine ⟨_, rfl, ?_, fun w v hv hvc hd => ?_⟩
  · rw [State.crew?_foldl_modWave, State.crew?_modCrew, if_pos rfl, State.crew?_congr hc, hk]
    rfl
  · have hv1 : (s1.modCrew c (fun x => { x with starved := x.starved + 1 })).wave? w = some v := by rw [← hv]; simp [State.wave?, hw]
    rw [State.wave?_foldl_modWave, if_pos (List.mem_map.mpr ⟨_, State.mem_membersOf hv1 hvc hd, rfl⟩), hv1]
    · rfl
    · exact fun _ => rfl

/-! ## Descheduling (R42, R299, R343) -/

/-- No crew is to be brought in when its partition's other crews have left (R340). -/
def State.noSwapIn (s : State) : Prop := ∀ e ∈ s.crews, e.2.swapIn = false

theorem State.noSwapIn.modCrew {s : State} (h : s.noSwapIn) (c : Nat) {f : Crew → Crew} (hf : ∀ k, (f k).swapIn = k.swapIn) : (s.modCrew c f).noSwapIn := by
  intro e he
  rw [State.modCrew_crews] at he
  unfold Tab.mod at he
  split at he
  · exact h e he
  · rename_i k hk
    rcases Tab.mem_set he with he | rfl
    · exact h e he
    · exact (hf k).trans (h _ (Tab.mem_of_get? hk))

theorem State.partitionIn_of_noSwapIn {s : State} (h : s.noSwapIn) (cl : Nat) : s.partitionIn cl = s := by
  unfold State.partitionIn
  split
  · rfl
  · rw [List.filter_eq_nil_iff.mpr (fun e he => by simp [h e he])]
    rfl

/-- State s differs from o neither in memory, nor in the run queue, nor in the waves; crew c is k, and no crew is to be brought in. -/
structure State.Beside (o : State) (c : Nat) (k : Crew) (s : State) : Prop where
  mem : s.mem = o.mem
  runq : s.runq = o.runq
  waves : s.waves = o.waves
  crew : s.crew? c = some k
  calm : s.noSwapIn

section
variable {o s : State} {c : Nat} {k : Crew}

theorem State.Beside.keep {t : State} (h : o.Beside c k s) (hm : t.mem = s.mem) (hq : t.runq = s.runq) (hw : t.waves = s.waves) (hc : t.crews = s.crews) :
    o.Beside c k t where
  mem := hm.trans h.mem
  runq := hq.trans h.runq
  waves := hw.trans h.waves
  crew := (State.crew?_congr hc c).trans h.crew
  calm := fun e he => h.calm e (hc ▸ he)

theorem State.Beside.modSelf {f : Crew → Crew} (h : o.Beside c k s) (hf : ∀ k, (f k).swapIn = k.swapIn) : o.Beside c (f k) (s.modCrew c f) :=
  { h with crew := by simp [State.crew?_modCrew, h.crew], calm := h.calm.modCrew c hf }

theorem State.Beside.modOther {f : Crew → Crew} (h : o.Beside c k s) {d : Nat} (hd : d ≠ c) (hf : ∀ k, (f k).swapIn = k.swapIn) : o.Beside c k (s.modCrew d f) :=
  { h with crew := by simp [State.crew?_modCrew, hd, h.crew], calm := h.calm.modCrew d hf }

theorem State.Beside.dropStore (h : o.Beside c k s) (core st : Nat) (acc : Bool) : o.Beside c k (s.dropStore core st acc) := by
  unfold State.dropStore
  split
  · exact h.keep rfl rfl rfl rfl
  · split <;> exact h.keep rfl rfl rfl rfl

theorem State.Beside.leavePlace (h : o.Beside c k s) (d key : Nat) (g : Gang) : o.Beside c k (s.leavePlace d key g) := by
  unfold State.leavePlace
  dsimp only
  split
  · refine State.Beside.keep (foldl_keeps (o.Beside c k) _ (fun t x ht => ht.dropStore _ _ _) g.kept _ ?_) rfl rfl rfl rfl
    exact h.keep rfl rfl rfl rfl
  · exact h.keep rfl rfl rfl rfl

/-- A crew that leaves its gang is another one than a crew in no gang (R261). -/
theorem State.Beside.leaveGang (h : o.Beside c k s) (hg : k.gang = none) (d : Nat) : o.Beside c k (s.leaveGang d) := by
  unfold State.leaveGang
  split
  · exact h
  · rename_i key g hgang
    have hd : d ≠ c := by
      rintro rfl
      simp [State.gangOf, h.crew, hg] at hgang
    split
    · refine State.Beside.leavePlace ?_ _ _ _
      refine State.Beside.modOther ?_ hd (fun x => by split <;> rfl)
      exact h.keep rfl rfl rfl rfl
    · exact h.leavePlace _ _ _

/-- The marks that pass are a fence, which leaves its queues, or a crew's departure from its gang (R261, R279). -/
theorem State.passOne_cases {t : State} {core : Nat} (h : s.passOne core = some t) :
    (∃ qs : List Nat, t = qs.foldl (fun s j => s.setQueue core j ((s.queue core j).drop 1)) s) ∨
    (∃ q l d, t = (s.setQueue core q l).leaveGang d) := by
  obtain ⟨q, _, hq⟩ := List.exists_of_findSome?_eq_some h
  split at hq
  · dsimp only at hq
    split at hq <;> cases hq
    exact .inl ⟨_, rfl⟩
  · split at hq
    · dsimp only at hq
      split at hq <;> cases hq
      exact .inr ⟨_, _, _, rfl⟩
    · cases hq
  · cases hq

theorem State.Beside.passMarks (h : o.Beside c k s) (hg : k.gang = none) (core n : Nat) : o.Beside c k (s.passMarks core n) := by
  induction n generalizing s with
  | zero => exact h
  | succ n ih =>
    unfold State.passMarks
    split
    · rename_i t ht
      refine ih ?_
      rcases State.passOne_cases ht with ⟨qs, rfl⟩ | ⟨q, l, d, rfl⟩
      · refine foldl_keeps (o.Beside c k) _ (fun u j hu => ?_) qs s h
        exact hu.keep rfl rfl rfl rfl
      · refine State.Beside.leaveGang ?_ hg d
        exact h.keep rfl rfl rfl rfl
    · exact h

/-- The commands of a crew that have not started leave its core's queues and are saved with it; then marks pass (R264, R279). -/
theorem State.saveCmds_eq (hk : s.crew? c = some k) :
    ∃ l f, s.saveCmds c = ((s.modCore k.core f).modCrew c (fun x => { x with saved := x.saved ++ l })).passAll k.core := by
  unfold State.saveCmds
  rw [hk]
  exact ⟨_, _, rfl⟩

theorem State.saveCmds_beside (hk : s.crew? c = some k) (hg : k.gang = none) (hs : s.noSwapIn) :
    ∃ l, s.Beside c { k with saved := l } (s.saveCmds c) := by
  obtain ⟨l, f, e⟩ := State.saveCmds_eq hk
  have h0 : s.Beside c k (s.modCore k.core f) := ⟨rfl, rfl, rfl, hk, hs⟩
  have h1 := h0.modSelf (f := fun x => { x with saved := x.saved ++ l }) (fun _ => rfl)
  exact ⟨k.saved ++ l, e ▸ h1.passMarks hg _ _⟩

/-! ### A crew that becomes runnable (R298, R300) -/

/-- Only the run queue and the crew's own times change, and both only where it enters the queue. -/
theorem State.makeRunnable_cases (s : State) (c : Nat) : s.makeRunnable c = s ∨
    ∃ n, s.makeRunnable c = { (s.modCrew c (fun x => { x with runnableAt := n, starved := 0 })) with runq := s.runq ++ [c] } := by
  unfold State.makeRunnable
  split
  · exact .inl rfl
  · split
    · unfold State.enqueue
      split
      · exact .inl rfl
      · split
        · exact .inl rfl
        · exact .inr ⟨_, rfl⟩
    · exact .inl rfl

/-- A crew off its core with an active member enters the run queue at its tail. -/
theorem State.makeRunnable_runq (hk : s.crew? c = some k) (hp : k.place = .shadow ∨ k.place = .cave ∨ k.place = .queued)
    (ha : (s.membersOf c).any (fun e => e.2.active) = true) (hq : c ∉ s.runq) : (s.makeRunnable c).runq = s.runq ++ [c] := by
  have hp' : (k.place == .shadow || k.place == .cave || k.place == .queued) = true := by rcases hp with h | h | h <;> simp [h]
  simp only [State.makeRunnable, hk, hp', ha, Bool.and_self, if_true]
  simp [State.enqueue, hq, hk]

/-! ### A crew leaves its core -/

/-- Where a crew goes that leaves its core (R42). -/
def State.wayOut (s : State) (k : Crew) : Place := if k.part = true ∨ s.bankFree k.core = true then .shadow else .cave

/-- A crew in no gang leaves its core: it stands in the shadow bank or in the cave with its scratchpad and base, its pre-emption has ended, and
it is runnable where a member is active. -/
theorem State.takeOut_spec (hk : s.crew? c = some k) (hg : k.gang = none) (hs : s.noSwapIn) :
    (∃ k', (s.takeOut c).crew? c = some k' ∧ k'.place = s.wayOut k ∧ k'.preempt = none ∧ k'.base = k.base ∧ k'.scratch = k.scratch) ∧
    (s.takeOut c).mem = s.mem ∧ (s.takeOut c).noSwapIn ∧
    ((s.membersOf c).any (fun e => e.2.active) = true → c ∉ s.runq → (s.takeOut c).runq = s.runq ++ [c]) := by
  obtain ⟨l, hsave⟩ := State.saveCmds_beside hk hg hs
  have hb := hsave.modSelf (f := fun x => { x with place := s.wayOut k, preempt := none, part := false }) (fun _ => rfl)
  have ht : s.takeOut c = (((s.saveCmds c).modCrew c (fun x => { x with place := s.wayOut k, preempt := none, part := false })).makeRunnable c).distEvent
      (coreDie k.core) 1 (k.core % 256) 1 := by
    simp [State.takeOut, hk, State.wayOut]
  rw [ht]
  generalize (s.saveCmds c).modCrew c (fun x => { x with place := s.wayOut k, preempt := none, part := false }) = s1 at hb ⊢
  have hrun : (s.membersOf c).any (fun e => e.2.active) = true → c ∉ s.runq → (s1.makeRunnable c).runq = s.runq ++ [c] := fun ha hq => by
    have hp : s.wayOut k = .shadow ∨ s.wayOut k = .cave ∨ s.wayOut k = .queued := by unfold State.wayOut; split <;> simp
    rw [State.makeRunnable_runq hb.crew hp (by rw [State.membersOf, hb.waves]; exact ha) (by rw [hb.runq]; exact hq), hb.runq]
  rcases State.makeRunnable_cases s1 c with e | ⟨n, e⟩
  · rw [e] at hrun ⊢
    exact ⟨⟨_, hb.crew, rfl, rfl, rfl, rfl⟩, hb.mem, hb.calm, hrun⟩
  · rw [e] at hrun ⊢
    have hn := hb.modSelf (f := fun x => { x with runnableAt := n, starved := 0 }) (fun _ => rfl)
    exact ⟨⟨_, hn.crew, rfl, rfl, rfl, rfl⟩, hn.mem, hn.calm, hrun⟩

end

/-- A crew in no gang, of no task, that is to leave and stays on its core's queue, leaves. -/
theorem execCrewDeschedule_alone {s : State} {c : Nat} {k : Crew} (hk : s.crew? c = some k) (hg : k.gang = none) (hp : k.preempt = some 0)
    (hm : k.moveTo = none) (ht : k.task = none) (hl : s.canLeave c = true) (hs : s.noSwapIn) :
    execCrewDeschedule c s = .next (s.takeOut c).claimsChanged := by
  have hcount : s.countPreempted k = s := by simp [State.countPreempted, ht]
  have hleft : s.deschedule c = (s.takeOut c).claimsChanged := by simp [State.deschedule, State.together_alone hk hg]
  obtain ⟨_, _, hcalm, _⟩ := State.takeOut_spec hk hg hs
  have hin : (s.takeOut c).claimsChanged.partitionIn (coreCluster k.core) = (s.takeOut c).claimsChanged :=
    State.partitionIn_of_noSwapIn (s := (s.takeOut c).claimsChanged) hcalm _
  simp [execCrewDeschedule, hk, hl, hp, State.together_alone hk hg, hcount, hm, hleft, hin]

/-! ## Joining a crew (R227, R228) -/

/-- The result word of a wave of crew k, field by field (R228). -/
theorem State.joinWord_eq {s : State} {w : Nat} {v : Wave} {k : Crew} (hv : s.wave? w = some v) (hk : s.crew? v.crew = some k) (st slot : Nat) :
    s.joinWord w st slot =
      BitVec.ofNat 64 (st % 256 + v.member % 32 * 256 + k.base % 64 * 2 ^ 16 + k.grans % 128 * 2 ^ 23 + slot % 4096 * 2 ^ 32) := by
  simp only [State.joinWord, hv, hk, packFields]
  congr 1
  omega

/-- The statuses with which a handle slot fails its checks fill no more than the status field (R426). -/
theorem State.checkSlot_error_lt {s : State} {p n right e : Nat} {kinds : List Nat} {foreign : Bool}
    (h : s.checkSlot p n kinds right foreign = .error e) : e < 256 := by
  have hst : stEMPTY < 256 ∧ stBADDESC < 256 ∧ stNORIGHT < 256 ∧ stSTALE < 256 := by decide
  obtain ⟨h1, h2, h3, h4⟩ := hst
  unfold State.checkSlot at h
  split at h
  · cases h; exact h1
  · split at h
    · cases h; exact h1
    · split at h
      · cases h; exact h2
      · split at h
        · cases h; exact h2
        · split at h
          · cases h; exact h3
          · split at h <;> cases h
            exact h4

/-- What crew.join does where it issues (R227, R228). -/
def joinIssue (f : GR) (c : Ctx) (st : State) : Iss :=
  let b := (readB c f).toNat
  let slot := bits (readA c f).toNat 11 0
  let out := fun (x : W64) => Iss.ok { s := st, writes := [{ loc := .s f.d.toNat, val := x }] }
  if bitOf b 7 then out (st.joinWord c.w stOK 0)
  else if slot = 0 then .ok { s := st, onEnd := .crewJoin none (bits b 5 0 + 1) (bitOf b 6) f.d.toNat }
  else match st.checkSlot c.v.proc slot [kCREW] rtCTRL with
    | .error e => out (st.joinWord c.w e 0)
    | .ok h =>
      if (st.crew? (hId h)).isNone then out (st.joinWord c.w stSTALE 0)
      else .ok { s := st, onEnd := .crewJoin (some (hId h, slot)) 1 false f.d.toNat }

theorem exec_crewJoin (f : GR) (s : State) : exec (.crewJoin f) s = issue (.crewJoin f) (joinIssue f) s := rfl

theorem exec_crewLeave (f : GR) (s : State) :
    exec (.crewLeave f) s = issue (.crewLeave f) (fun _ st => .ok { s := st, onEnd := .crewLeave }) s := rfl

end Sys2Proof.Machine

namespace Sys2Proof.Proofs

open Sys2Proof.Machine

theorem crewJoin_done {f : GR} {s : State} {v : Wave} {r : Run} {e : Eff} (hi : Issues (.crewJoin f) s v r)
    (h : joinIssue f (s.ctx v r (.crewJoin f)) s = .ok e) : exec (.crewJoin f) s = Spec.done (.crewJoin f) s v r e := by
  rw [exec_crewJoin]
  exact issue_ok hi h

/-- Joining and leaving: each join is one branch of `joinIssue`, each move one branch of `moveCrew` (R227-R229). -/
theorem crewMoves : Spec.CrewMoves := by
  intro f s v r k hv hk c b slot word
  have hw : ∀ st, st < 256 → s.joinWord s.turn st 0 = word st k := fun st h => by
    rw [State.joinWord_eq hv hk, Nat.mod_eq_of_lt h, Nat.zero_mod, Nat.zero_mul, Nat.add_zero]
  have hb : bits b 5 0 = b % 64 := by simp [bits]
  have hslot : bits (readA c f).toNat 11 0 = slot := by simp [bits, slot, Spec.uA]
  refine ⟨fun hi h7 => crewJoin_done hi ?_, fun hi h7 h0 => crewJoin_done hi ?_, fun h hi h7 h0 hok hsome => crewJoin_done hi ?_,
    fun e hi h7 h0 herr => crewJoin_done hi ?_, fun hi => ?_, fun n vt g d => ?_, fun t x n vt g d ht hne hfull => ?_, fun n vt d hempty => ?_⟩
  case refine_1 => -- a report of the wave's crew
    rw [← hw 0 (by decide)]
    exact if_pos h7
  case refine_2 => -- slot 0: a new crew
    rw [← hb]
    exact (if_neg (Bool.eq_false_iff.mp h7)).trans (if_pos (hslot.trans h0))
  case refine_3 => -- a crew that a handle names
    refine (if_neg (Bool.eq_false_iff.mp h7)).trans ((if_neg (by rw [hslot]; exact h0)).trans ?_)
    rw [hslot, show s.checkSlot c.v.proc slot [kCREW] rtCTRL = .ok h from hok]
    exact if_neg (by simp [Option.isSome_iff_ne_none.mp hsome])
  case refine_4 => -- a slot that fails its checks
    refine (if_neg (Bool.eq_false_iff.mp h7)).trans ((if_neg (by rw [hslot]; exact h0)).trans ?_)
    rw [hslot, show s.checkSlot c.v.proc slot [kCREW] rtCTRL = .error e from herr, ← hw e (State.checkSlot_error_lt herr)]
    rfl
  case refine_5 =>
    rw [exec_crewLeave]
    exact issue_ok hi rfl
  case refine_6 => -- the wave's own crew
    have e : s.joinWord s.turn stOK n = word 0 k + BitVec.ofNat 64 (n % 4096 * 2 ^ 32) := by
      rw [State.joinWord_eq hv hk, BitVec.ofNat_add]
      rfl
    simp only [moveCrew, hv, State.joinOldCrew, hk, if_true, e]
  case refine_7 => -- a full crew
    simp only [moveCrew, hv, State.joinOldCrew, ht, hne, if_false, ge_iff_le, hfull, if_true]
    rw [← hw 4 (by decide)]
    rfl
  case refine_8 => -- no slot for the handle
    simp only [moveCrew, hv, State.joinNewCrew, hempty]
    rw [← hw 4 (by decide)]
    rfl

/-- What the Muhan unit does with crews: placement, leaving a core, the end of a transfer, ageing (R298, R299, R343, R464). -/
theorem crewEvents : Spec.CrewEvents := by
  intro s
  refine ⟨fun core hq => ?_, fun c k core l b hq hk hcore hg hf hm ha hpl hfit hp => ?_, fun c k core l b hq hk hcore hg hf hm ha hpl hfit hp => ?_,
    fun c hl => ?_, fun c k hk hg hp hm ht hl hs _ => ?_, fun q hq c k hk => ?_, fun c k hk => ?_⟩
  case refine_1 => -- nothing is runnable
    show execCrewPlacement core s = .next s
    simp [execCrewPlacement, State.placeOn, State.runOrder_nil hq]
  case refine_2 => -- a crew without a saved context
    subst hcore
    refine ⟨s.bringIn c, execCrewPlacement_alone hq hk hg hf hm (by rw [hpl]; rfl) (by rw [hfit]; rfl) hp, ?_⟩
    obtain ⟨ws, e⟩ := State.bringIn_eq hk hfit hm ha
    rw [e, hpl]
    exact ⟨by simp [hq], by simp [State.crew?, State.setCrew], rfl⟩
  case refine_3 => -- a crew whose context is in the cave
    subst hcore
    refine ⟨s.bringIn c, execCrewPlacement_alone hq hk hg hf hm (by rw [hpl]; rfl) (by rw [hfit]; rfl) hp, ?_⟩
    obtain ⟨ws, e⟩ := State.bringIn_eq hk hfit hm ha
    rw [e, hpl]
    exact ⟨by simp [hq], by simp [State.crew?, State.setCrew, State.send], rfl⟩
  case refine_4 => -- a crew that may not leave
    show execCrewDeschedule c s = .next s
    unfold execCrewDeschedule
    split
    · rfl
    · simp [hl]
  case refine_5 => -- a crew that leaves
    obtain ⟨⟨k', hk', hplace, hpre, hbase, hscr⟩, hmem, _, hrun⟩ := State.takeOut_spec hk hg hs
    exact ⟨_, k', execCrewDeschedule_alone hk hg hp hm ht hl hs, hk', hplace, hpre, hbase, hscr, hmem, hrun⟩
  case refine_6 => -- the end of a transfer
    simp only [List.mem_cons, List.not_mem_nil, or_false] at hq
    rcases hq with rfl | rfl
    · obtain ⟨hstay, hdone⟩ := transferDone hk (execShadowSwapDone_eq hk)
      exact ⟨hstay, fun hp hg hs _ hr => hdone hp hg hs hr⟩
    · obtain ⟨hstay, hdone⟩ := transferDone hk (execCaveRestoreDone_eq hk)
      exact ⟨hstay, fun hp hg hs _ hr => hdone hp hg hs hr⟩
  case refine_7 => -- ageing
    exact ⟨execStarveAging_stays hk, fun hq hlim hle _ => execStarveAging_ages hk hq hlim hle⟩

/-- Settles O34, clause by clause from the lemmas about single moves of a crew. -/
theorem crews : Obligations.Crews := ⟨crewMoves, crewEvents⟩

end Sys2Proof.Proofs
end

section
/-!
Uniform arithmetic, compare and select (R51, R125, R127-R130). The words of an instruction that the statements name, the value of
each operation on integers, and the statements.
-/

namespace Sys2Proof.Machine

/-! ## Opcode and opcode word -/

theorem opcode_gr {i : Instr} {op : Nat} {f : GR} (h : op < 128) (e : i.raw = .gr op f) : Spec.opcode i = op := by
  have e0 : (encode i).getD 0 0 = f.pack op := by simp [encode, e, Raw.words]
  rw [Spec.opcode, e0]
  exact GR.pack_op f op h

theorem xWord_gr {i : Instr} {op : Nat} {f : GR} (h : uniHasX op = true) (e : i.raw = .gr op f) : Spec.xWord i = f.x := by
  simp [Spec.xWord, encode, e, Raw.words, h]

/-! ## Machine words as the integers of the tables -/

theorem natCast_two_pow (w : Nat) : ((2 ^ w : Nat) : Int) = 2 ^ w := Int.natCast_pow 2 w

theorem signed_toNat {w : Nat} (x : BitVec w) : Spec.signed w x.toNat = x.toInt := by
  cases w with
  | zero => simp [Spec.signed, BitVec.of_length_zero (x := x)]
  | succ n =>
    have hhalf : 2 * x.toNat < 2 ^ (n + 1) ↔ x.toNat < 2 ^ n := by rw [Nat.pow_succ]; omega
    simp only [Spec.signed, BitVec.toInt_eq_toNat_cond, Nat.add_sub_cancel, hhalf, natCast_two_pow]

theorem wrap_eq_toNat (w : Nat) (z : Int) : Spec.wrap w z = (BitVec.ofInt w z).toNat := by
  rw [Spec.wrap, BitVec.toNat_ofInt, natCast_two_pow]

/-- A condition on the order of two integers is the condition of R51 on them. -/
theorem condOrd_compare (n : Nat) (x y : Int) : condOrd n (compare x y) = Spec.intCond n x y := by
  rw [Bool.eq_iff_iff]
  unfold condOrd Spec.intCond
  split <;> simp only [beq_iff_eq, bne_iff_ne, decide_eq_true_eq, ne_eq, gt_iff_lt, ge_iff_le, Int.compare_eq_lt, Int.compare_eq_eq, Int.compare_eq_gt,
    Int.not_lt]

theorem compare_natCast (x y : Nat) : compare (x : Int) (y : Int) = compare x y := by
  show compareOfLessAndEq (x : Int) y = compareOfLessAndEq x y
  simp only [compareOfLessAndEq, Int.ofNat_lt, Int.ofNat_inj]

/-! ## The value of each operation (R127, R128) -/

/-- An operation on machine words has the value that a function of the table gives on n64. -/
def Computes (op : W64 → W64 → W64) (g : Nat → Nat → Nat) : Prop := ∀ a b : W64, op a b = BitVec.ofNat 64 (g a.toNat b.toNat)

/-- It is enough to compare numbers. -/
theorem computes_of_toNat {op : W64 → W64 → W64} {g : Nat → Nat → Nat}
    (h : ∀ a b : W64, (op a b).toNat = g a.toNat b.toNat) : Computes op g := fun a b => by
  rw [← h, BitVec.ofNat_toNat, BitVec.setWidth_eq]

theorem add_computes : Computes (· + ·) (fun a b => (a + b) % 2 ^ 64) := computes_of_toNat BitVec.toNat_add

theorem sub_computes : Computes (· - ·) (fun a b => Spec.wrap 64 ((a : Int) - b)) := computes_of_toNat fun a b => by
  simp only [BitVec.toNat_sub, Spec.wrap]
  omega

theorem mul_computes : Computes (· * ·) (fun a b => a * b % 2 ^ 64) := computes_of_toNat BitVec.toNat_mul
theorem and_computes : Computes (· &&& ·) (· &&& ·) := computes_of_toNat BitVec.toNat_and
theorem or_computes : Computes (· ||| ·) (· ||| ·) := computes_of_toNat BitVec.toNat_or
theorem xor_computes : Computes (· ^^^ ·) (· ^^^ ·) := computes_of_toNat BitVec.toNat_xor

theorem shl64_computes : Computes shl64 (fun a b => if b < 64 then a * 2 ^ b % 2 ^ 64 else 0) := computes_of_toNat fun a b => by
  unfold shl64
  split
  · rw [BitVec.toNat_shiftLeft, Nat.shiftLeft_eq]
  · rfl

theorem shr64_computes : Computes shr64 (fun a b => if b < 64 then a / 2 ^ b else 0) := computes_of_toNat fun a b => by
  unfold shr64
  split
  · rw [BitVec.toNat_ushiftRight, Nat.shiftRight_eq_div_pow]
  · rfl

theorem sra64_computes : Computes sra64
    (fun a b => if b < 64 then Spec.wrap 64 (Spec.signed 64 a / 2 ^ b) else if a < 2 ^ 63 then 0 else 2 ^ 64 - 1) :=
  computes_of_toNat fun a b => by
    have hsign : a.getLsbD 63 = decide (2 ^ 63 ≤ a.toNat) := (BitVec.msb_eq_getLsbD_last a).symm.trans (BitVec.msb_eq_decide a)
    unfold sra64
    split
    · rw [BitVec.sshiftRight_eq, Int.shiftRight_eq_div_pow, wrap_eq_toNat, signed_toNat, natCast_two_pow]
    · rw [hsign]
      by_cases h : a.toNat < 2 ^ 63
      · rw [if_pos h, if_neg (by simpa using h)]
        rfl
      · rw [if_neg h, if_pos (by simpa using h)]
        rfl

/-- Where equal numbers make no difference, a choice by ≤ is a choice by <. -/
theorem toNat_ite_toInt_le {a b x y : W64} (h : a = b → x = y) :
    (if a.toInt ≤ b.toInt then x else y).toNat = if a.toInt < b.toInt then x.toNat else y.toNat := by
  rcases Int.lt_trichotomy a.toInt b.toInt with hlt | heq | hgt
  · rw [if_pos (Int.le_of_lt hlt), if_pos hlt]
  · rw [if_pos (Int.le_of_eq heq), if_neg (by omega), h (BitVec.eq_of_toInt_eq heq)]
  · rw [if_neg (by omega), if_neg (by omega)]

theorem minI64_computes : Computes minI64 (fun a b => if Spec.signed 64 a < Spec.signed 64 b then a else b) := computes_of_toNat fun a b => by
  simp only [minI64, signed_toNat]
  exact toNat_ite_toInt_le id

theorem maxI64_computes : Computes maxI64 (fun a b => if Spec.signed 64 a < Spec.signed 64 b then b else a) := computes_of_toNat fun a b => by
  simp only [maxI64, signed_toNat]
  exact toNat_ite_toInt_le Eq.symm

theorem minN64_computes : Computes minN64 min := computes_of_toNat fun a b => by
  rw [minN64, Nat.min_def, apply_ite BitVec.toNat]

theorem maxN64_computes : Computes maxN64 max := computes_of_toNat fun a b => by
  rw [maxN64, Nat.max_def, apply_ite BitVec.toNat]

theorem mov_computes : Computes (fun _ b => b) (fun _ b => b) := computes_of_toNat fun _ _ => rfl

theorem cmpI64_computes (n : Nat) : Computes (fun a b => if condOrd n (compare a.toInt b.toInt) then 1 else 0)
    (fun a b => if Spec.intCond n (Spec.signed 64 a) (Spec.signed 64 b) then 1 else 0) := fun a b => by
  simp only [signed_toNat, condOrd_compare]
  split <;> rfl

theorem cmpN64_computes (n : Nat) : Computes (fun a b => if condOrd n (compare a.toNat b.toNat) then 1 else 0)
    (fun a b => if Spec.intCond n a b then 1 else 0) := fun a b => by
  simp only [← condOrd_compare, compare_natCast]
  split <;> rfl

/-- s.sel takes A where its third register is not 0, else B (R130). -/
theorem sSel_value (f : GR) (c : Ctx) : (if c.v.sreg (f.x.toNat % 64) != 0 then readA c f else readB c f) =
    BitVec.ofNat 64 (if c.v.sreg (f.x.toNat % 64) = 0#64 then Spec.uB f c else Spec.uA f c) := by
  by_cases h : c.v.sreg (f.x.toNat % 64) = 0#64
  · simp [h, Spec.uB]
  · simp [h, Spec.uA]

/-! ## Instructions that write one uniform register -/

section
variable {i : Instr} {f : GR} {s : State} {v : Wave} {r : Run}

/-- An instruction whose body gives one value writes it to D. -/
theorem uniOut_done {val : Ctx → State → W64} {n : Nat} (he : exec i s = issue i (fun c st => uniOut f (val c st) st) s)
    (hn : val (s.ctx v r i) s = BitVec.ofNat 64 n) (h : Issues i s v r) : exec i s = Spec.uniDone i f.d.toNat n s v r := by
  rw [he, issue_ok (body := fun c st => uniOut f (val c st) st) h rfl, Spec.uniDone, ← hn]
  rfl

/-- A uniform operation writes the value of its table. -/
theorem uni_done {op : W64 → W64 → W64} {g : Nat → Nat → Nat} (hg : Computes op g) (he : exec i s = uni i f op s) (h : Issues i s v r) :
    exec i s = Spec.uniDone i f.d.toNat (g (Spec.uA f (s.ctx v r i)) (Spec.uB f (s.ctx v r i))) s v r :=
  uniOut_done (val := fun c _ => op (readA c f) (readB c f)) he (hg _ _) h

end

end Sys2Proof.Machine

namespace Sys2Proof.Proofs

open Sys2Proof.Machine

/-- Settles O19: every row of the tables is an operation that computes the row's value. -/
theorem uniformArithmetic : Obligations.UniformArithmetic := by
  intro f s v r p hp
  simp only [Spec.uni2, List.mem_cons, List.not_mem_nil, or_false] at hp
  rcases hp with rfl | rfl | rfl | rfl | rfl | rfl | rfl | rfl | rfl | rfl | rfl | rfl | rfl | rfl
  · exact uni_done add_computes rfl
  · exact uni_done sub_computes rfl
  · exact uni_done mul_computes rfl
  · exact uni_done and_computes rfl
  · exact uni_done or_computes rfl
  · exact uni_done xor_computes rfl
  · exact uni_done shl64_computes rfl
  · exact uni_done shr64_computes rfl
  · exact uni_done sra64_computes rfl
  · exact uni_done minI64_computes rfl
  · exact uni_done maxI64_computes rfl
  · exact uni_done minN64_computes rfl
  · exact uni_done maxN64_computes rfl
  · exact uni_done mov_computes rfl

/-- Settles O20: the compares compute their condition of R51, and s.sel its choice, from the sources at issue. -/
theorem uniformSelect : Obligations.UniformSelect := by
  intro f s v r
  refine ⟨⟨opcode_gr (by decide) rfl, opcode_gr (by decide) rfl, opcode_gr (by decide) rfl⟩,
    ⟨xWord_gr (op := 0x0E) (by decide) rfl, xWord_gr (op := 0x0F) (by decide) rfl, xWord_gr (op := 0x10) (by decide) rfl⟩, fun hi => ?_, fun hi => ?_, fun hi => ?_⟩
  · exact uni_done (cmpI64_computes _) rfl hi
  · exact uni_done (cmpN64_computes _) rfl hi
  · exact uniOut_done (val := fun c _ => if c.v.sreg (f.x.toNat % 64) != 0 then readA c f else readB c f) rfl (sSel_value f _) hi

end Sys2Proof.Proofs
end

section
/-!
nop and mk.cur (R28, R138, R146): what an issue leaves of a result that is not yet due, and of a wave where the instruction has no effect of its own.
-/

namespace Sys2Proof.Machine

/-- A result with two or more counts left loses one at an issue, and nothing commits (R28). -/
theorem countIssue_waits {v : Wave} {r : Run} {x : Res} {n : Nat} (hp : r.pending = [x]) (hx : x.left = some (n + 2)) :
    countIssue v r = (v, { r with pending := [{ x with left := some (n + 1) }] }) := by
  have ht : x.tick = { x with left := some (n + 1) } := by rw [Res.tick, hx]; rfl
  have hd : Res.due { x with left := some (n + 1) } = false := by simp [Res.due]
  simp only [countIssue, hp, List.map_cons, List.map_nil, ht]
  simp [hd]

/-- An instruction without a register result that has no effect of its own leaves registers and masks to the results that its issue commits. -/
theorem retireWave_idle {c : Ctx} {v : Wave} {v1 b : Bool} (s : State) (hr : resultClass c.raw = .none) :
    ∃ r1, (retireWave c v v1 b { s := s }).run = some r1 ∧ r1.pending = (countIssue v c.run).2.pending ∧
      r1.issued = (countIssue v c.run).2.issued + 1 ∧
      (retireWave c v v1 b { s := s }).sregs = (countIssue v c.run).1.sregs ∧
      (retireWave c v v1 b { s := s }).vregs = (countIssue v c.run).1.vregs ∧
      (retireWave c v v1 b { s := s }).masks = (countIssue v c.run).1.masks := by
  refine ⟨_, rfl, ?_, rfl, rfl, rfl, rfl⟩
  simp only [hr]
  exact List.append_nil _

/-- A field that an instruction does not use is 0 (R411). -/
theorem checkG_unused {role mask lo c : Nat} (h : checkG .unused role mask lo c = []) : c = 0 := by
  simpa [checkG, when] using h

theorem checkB_unused {b : BitVec 9} (h : checkB .unused b = []) : b = 0 := by
  simpa [checkB, when] using h

/-- Fields of a GR instruction pass the checks of their shape. -/
theorem checkGR_fields {op : Nat} {f : GR} (h : checkGR op f = []) :
    checkG (uniShape op f.b f.x).d 0 0x1F8000 15 f.d.toNat = [] ∧ checkG (uniShape op f.b f.x).a 1 0x7E00 9 f.a.toNat = [] ∧
    checkB (uniShape op f.b f.x).b f.b = [] := by
  simp only [checkGR, List.append_eq_nil_iff] at h
  obtain ⟨⟨⟨⟨⟨⟨hd, ha⟩, hb⟩, -⟩, -⟩, -⟩, -⟩ := h
  exact ⟨hd, ha, hb⟩

end Sys2Proof.Machine

namespace Sys2Proof.Proofs

open Sys2Proof.Machine

theorem nop_fields {f : GR} (h : WellFormed (.nop f)) : f.d = 0 ∧ f.a = 0 ∧ f.b = 0 := by
  obtain ⟨-, hc, -, -⟩ := h
  obtain ⟨hd, ha, hb⟩ := checkGR_fields hc
  exact ⟨BitVec.eq_of_toNat_eq (checkG_unused hd), BitVec.eq_of_toNat_eq (checkG_unused ha), checkB_unused hb⟩

theorem mkCur_fields {f : GR} (h : WellFormed (.mkCur f)) : f.a = 0 ∧ f.b = 0 := by
  obtain ⟨-, hc, -, -⟩ := h
  obtain ⟨-, ha, hb⟩ := checkGR_fields hc
  exact ⟨BitVec.eq_of_toNat_eq (checkG_unused ha), checkB_unused hb⟩

theorem nop_done {f : GR} {s : State} {v : Wave} {r : Run} (h : Issues (.nop f) s v r) :
    exec (.nop f) s = Spec.done (.nop f) s v r { s := s } :=
  issue_ok (body := fun _ st => .ok { s := st }) h rfl

/-- A nop counts a pending result down and changes nothing that a program reads. -/
theorem nop_counts {f : GR} {s : State} {v : Wave} {r : Run} {x : Res} {n : Nat} (h : Issues (.nop f) s v r) (hv : s.wave? s.turn = some v)
    (hp : r.pending = [x]) (hx : x.left = some (n + 2)) :
    ∃ t v1 r1, exec (.nop f) s = .next t ∧ t.wave? s.turn = some v1 ∧ v1.run = some r1 ∧ r1.pending = [{ x with left := some (n + 1) }] ∧
      r1.issued = r.issued + 1 ∧ v1.sregs = v.sregs ∧ v1.vregs = v.vregs ∧ v1.masks = v.masks := by
  have hcount : countIssue v (s.ctx v r (.nop f)).run = _ := countIssue_waits hp hx
  obtain ⟨r1, hrun, hpend, hissued, hregs⟩ := retireWave_idle (c := s.ctx v r (.nop f)) (v := v) (v1 := (Instr.nop f).v1) (b := (Instr.nop f).sBit) s rfl
  rw [hcount] at hpend hissued hregs
  refine ⟨_, _, r1, nop_done h, ?_, hrun, hpend, hissued, hregs⟩
  rw [show s.turn = (s.ctx v r (.nop f)).w from rfl, retire_wave]
  exact congrArg _ hv

/-- Settles O23: nop has no effect of its own, so a pending result only counts down; mk.cur writes one uniform register. -/
theorem nopAndCurrentMask : Obligations.NopAndCurrentMask := by
  refine ⟨⟨by decide, by decide⟩, fun f s v r => ⟨⟨opcode_gr (by decide) rfl, nop_fields⟩, nop_done, fun x n => nop_counts,
    ⟨opcode_gr (by decide) rfl, mkCur_fields, rfl⟩, ?_⟩⟩
  exact uniOut_done (val := fun c _ => maskOf c.lanes) rfl (by simp)

end Sys2Proof.Proofs
end

section
/-!
trap, brk and rfe, traps at the end of a run, and debug entry (R147-R149, R365, R366, R392, R395, R417).
-/

namespace Sys2Proof.Machine

/-! ## Issue traps with one cause -/

/-- The one cause that fails is the one reported; its lanes are those that raised it (R393, R405). -/
theorem pickTrap_single {t : Trap} (h : t.cause ≠ cRESERVED) : ∃ low, pickTrap [t] = some { t with low := low } :=
  ⟨_, by simp [pickTrap, minBy, h]; rfl⟩

/-- An instruction whose body fails one check takes a trap with that check's cause, SUB, TVAL and lanes. -/
theorem issue_trap_single {i : Instr} {s : State} {v : Wave} {r : Run} {body : Ctx → State → Iss} {t : Trap} (h : Issues i s v r)
    (hb : body (s.ctx v r i) s = .trap [t]) (hc : t.cause ≠ cRESERVED) :
    ∃ t', issue i body s = .next (s.issueTrap s.turn v r t' (s.ctx v r i).site) ∧ t'.cause = t.cause ∧ t'.sub = t.sub ∧ t'.tval = t.tval ∧
      t'.lanes = t.lanes := by
  obtain ⟨low, hp⟩ := pickTrap_single hc
  refine ⟨{ t with low := low }, ?_, rfl, rfl, rfl, rfl⟩
  rw [issue_trap h hb, hp]
  rfl

/-! ## Entering an address -/

section
variable (v : Wave) (m : W64) (pc : BitVec 48)
@[simp] theorem Wave.enterAt_sregs : (v.enterAt m pc).sregs = v.sregs := by rw [Wave.enterAt_eq]
@[simp] theorem Wave.enterAt_vregs : (v.enterAt m pc).vregs = v.vregs := by rw [Wave.enterAt_eq]
@[simp] theorem Wave.enterAt_masks : (v.enterAt m pc).masks = v.masks := by rw [Wave.enterAt_eq]
@[simp] theorem Wave.enterAt_frame : (v.enterAt m pc).frame = v.frame := by rw [Wave.enterAt_eq]
@[simp] theorem Wave.enterAt_frozen : (v.enterAt m pc).frozen = v.frozen := by rw [Wave.enterAt_eq]
end

/-- A trap of a wave in neither mode whose process has a handler changes the wave alone: the frame is saved, the batch enters in trap mode, and
no register changes (R394, R395). -/
theorem State.deliverTrap_enters {s : State} {w : Nat} {v : Wave} {t : Trap} {m : W64} {site : Site} {tepc : BitVec 48} {fr : Option Run} {n : Nat}
    {o : Bool} {p : Proc} (hi : v.inTrap = false) (hd : v.dbg = none) (hp : s.proc? v.proc = some p) (hb : p.trapbase ≠ 0#48)
    (h1 : t.cause ≠ cHBMUE) (h2 : t.cause ≠ cACKLOST) :
    ∃ v', s.deliverTrap w v t m site tepc fr n o = s.setWave w v' ∧ v'.inTrap = true ∧ v'.trapMask = m ∧ v'.frozen = fr ∧
      v'.frame = v.makeFrame t m site tepc n o ∧ v'.sregs = v.sregs ∧ v'.vregs = v.vregs := by
  refine ⟨{ ({ v with frame := v.makeFrame t m site tepc n o, frozen := fr } : Wave).enterAt m p.trapbase with inTrap := true, trapMask := m, rfeMask := 0 },
    ?_, rfl, rfl, by simp, by simp, by simp, by simp⟩
  simp [State.deliverTrap, h1, h2, hi, hd, hp, hb]

/-! ## Debug registers -/

theorem State.dreg_setDreg (s : State) (c i : Nat) (x : W64) (d j : Nat) :
    (s.setDreg c i x).dreg d j = if c = d ∧ i = j then x else s.dreg d j := by
  simp only [State.dreg, State.setDreg, State.core_modCore]
  by_cases h : c = d
  · subst h
    simp [Tab.getD_set]
  · simp [h]

@[simp] theorem State.setDreg_mem (s : State) (c i : Nat) (x : W64) : (s.setDreg c i x).mem = s.mem := rfl

/-- What a debug entry leaves to be read: the waves, memory and the debug registers of every core. -/
def State.debugView (s : State) : Tab Wave × List Host.Cell × (Nat → Nat → W64) := (s.waves, s.mem, s.dreg)

/-- Asking for a stop changes no wave, no memory and no debug register (R369). -/
theorem State.askStop_view (s : State) (core : Nat) (crew : Option Nat) (limit : Nat) (here : Bool) :
    (s.askStop core crew limit here).debugView = s.debugView := by
  refine congrArg (fun g => (s.waves, s.mem, g)) (funext fun c => funext fun i => ?_)
  simp only [State.askStop, State.dreg, State.core_send, State.core_modCore]
  split
  · subst c
    rfl
  · rfl

theorem State.askStops_view (s : State) (v : Wave) (cluster : Bool) : (s.askStops v cluster).debugView = s.debugView := by
  unfold State.askStops
  dsimp only
  split
  · refine (foldl_kept State.debugView _ _ _ (fun t c => ?_)).trans (State.askStop_view ..)
    split
    · rfl
    · exact State.askStop_view ..
  · exact State.askStop_view ..

theorem State.askStops_waves (s : State) (v : Wave) (cluster : Bool) : (s.askStops v cluster).waves = s.waves :=
  congrArg Prod.fst (State.askStops_view s v cluster)
theorem State.askStops_mem (s : State) (v : Wave) (cluster : Bool) : (s.askStops v cluster).mem = s.mem :=
  congrArg (fun x => x.2.1) (State.askStops_view s v cluster)
theorem State.askStops_dreg (s : State) (v : Wave) (cluster : Bool) : (s.askStops v cluster).dreg = s.dreg :=
  congrArg (fun x => x.2.2) (State.askStops_view s v cluster)

@[simp] theorem State.takeSeq_mem (s : State) (d : Nat) : (s.takeSeq d).2.mem = s.mem := rfl

section
variable (s : State) (w : Nat) (v : Wave) (m : W64) (pc : BitVec 48) (fr : Option Run) (held : Bool) (rep : Report) (cl : Bool)

/-- The wave that has entered the debug handler (R366). -/
def State.debugWave : Wave :=
  { v.enterAt m (va (bits (s.dreg (s.coreOf v) 1).toNat 47 2 * 4)) with
    dbg := some { mask := m, retPc := pc, held := held, frozen := fr, s60 := v.sreg 60, s61 := v.sreg 61, s62 := v.sreg 62, s63 := v.sreg 63 }
    run := none, stepState := 0 }

theorem State.enterDebug_waves : (s.enterDebug w v m pc fr held rep cl).waves = Tab.set s.waves w (s.debugWave v m pc fr held) := by
  rw [State.enterDebug, State.askStops_waves]
  rfl

theorem State.enterDebug_mem : (s.enterDebug w v m pc fr held rep cl).mem = s.mem := by
  rw [State.enterDebug, State.askStops_mem]
  exact (foldl_kept State.mem _ _ _ (fun _ _ => State.setDreg_mem ..)).trans (State.takeSeq_mem s (s.dieOf v))

/-- The words of the report that name the trigger, the return PC and the entering batch (R366). -/
theorem State.enterDebug_report :
    (s.enterDebug w v m pc fr held rep cl).dreg (s.coreOf v) 0x30 =
      BitVec.ofNat 64 (packFields [(rep.cause, 0, 4), (b2n held, 4, 1), (rep.index, 8, 8), (rep.matched, 16, 8)]) ∧
    (s.enterDebug w v m pc fr held rep cl).dreg (s.coreOf v) 0x31 = BitVec.ofNat 64 pc.toNat ∧
    (s.enterDebug w v m pc fr held rep cl).dreg (s.coreOf v) 0x32 = BitVec.ofNat 64 (packFields [(v.launch.toNat, 0, 32), (v.block.toNat, 32, 32)]) := by
  simp only [State.enterDebug, State.askStops_dreg, List.foldl_cons, List.foldl_nil, State.dreg_setDreg]
  simp

end

theorem pack_name (v : Wave) : BitVec.ofNat 64 (packFields [(v.launch.toNat, 0, 32), (v.block.toNat, 32, 32)]) = v.block ++ v.launch := by
  have hl := v.launch.isLt
  have hb := v.block.isLt
  apply BitVec.eq_of_toNat_eq
  rw [BitVec.toNat_append, ← Nat.shiftLeft_add_eq_or_of_lt hl, Nat.shiftLeft_eq, BitVec.toNat_ofNat]
  simp only [packFields]
  omega

theorem pack_trigger_toNat (rep : Report) (held : Bool) :
    (BitVec.ofNat 64 (packFields [(rep.cause, 0, 4), (b2n held, 4, 1), (rep.index, 8, 8), (rep.matched, 16, 8)])).toNat =
      rep.cause % 16 + (if held then 16 else 0) + rep.index % 256 * 256 + rep.matched % 256 * 65536 := by
  simp only [packFields, BitVec.toNat_ofNat, b2n]
  split <;> omega

/-! ## What trap, brk and rfe do where they issue (R147-R149, R365, R417) -/

theorem exec_trap (f : GR) (s : State) : exec (.trap f) s = issue (.trap f) (fun _ st => .ok { s := st, onEnd := .swTrap (f.b.toNat % 128) }) s := rfl

/-- What brk does where it issues: it is not allowed in debug mode, nor where debug is not enabled, and waits for another wave's debug mode. -/
def brkIssue (f : GR) (c : Ctx) (st : State) : Iss :=
  if c.v.dbg.isSome then .trap [{ cause := cMODE, sub := 3, lanes := maskOf c.lanes }]
  else if !(st.dreg (st.coreOf c.v) 1).getLsbD 0 then
    .trap [{ cause := cMODE, sub := 4, tval := BitVec.ofNat 64 (f.b.toNat % 128), lanes := maskOf c.lanes }]
  else if otherInDebug st c.w (st.coreOf c.v) then .stall st
  else .ok { s := st, onEnd := .brk (f.b.toNat % 128) }

theorem exec_brk (f : GR) (s : State) : exec (.brk f) s = issue (.brk f) (brkIssue f) s := rfl

/-- What rfe does where it issues. -/
def rfeIssue (c : Ctx) (st : State) : Iss :=
  if c.v.inTrap || c.v.dbg.isSome then .ok { s := st, onEnd := .rfe } else .trap [{ cause := cMODE, sub := 2, lanes := maskOf c.lanes }]

theorem exec_rfe (f : GR) (s : State) : exec (.rfe f) s = issue (.rfe f) rfeIssue s := rfl

section
variable {f : GR} {c : Ctx} {st : State}

theorem brkIssue_inDebug (hd : c.v.dbg.isSome = true) : brkIssue f c st = .trap [{ cause := cMODE, sub := 3, lanes := maskOf c.lanes }] :=
  if_pos hd

theorem brkIssue_disabled (hd : c.v.dbg = none) (he : (st.dreg (st.coreOf c.v) 1).getLsbD 0 = false) :
    brkIssue f c st = .trap [{ cause := cMODE, sub := 4, tval := BitVec.ofNat 64 (f.b.toNat % 128), lanes := maskOf c.lanes }] := by
  simp only [brkIssue, hd, he, Option.isSome_none, Bool.not_false, Bool.false_eq_true, if_false, if_true]

theorem brkIssue_waits (hd : c.v.dbg = none) (he : (st.dreg (st.coreOf c.v) 1).getLsbD 0 = true) (ho : otherInDebug st c.w (st.coreOf c.v) = true) :
    brkIssue f c st = .stall st := by
  simp only [brkIssue, hd, he, ho, Option.isSome_none, Bool.not_true, Bool.false_eq_true, if_false, if_true]

theorem brkIssue_enters (hd : c.v.dbg = none) (he : (st.dreg (st.coreOf c.v) 1).getLsbD 0 = true) (ho : otherInDebug st c.w (st.coreOf c.v) = false) :
    brkIssue f c st = .ok { s := st, onEnd := .brk (f.b.toNat % 128) } := by
  simp only [brkIssue, hd, he, ho, Option.isSome_none, Bool.not_true, Bool.false_eq_true, if_false]

theorem rfeIssue_returns (h : c.v.inTrap = true ∨ c.v.dbg.isSome = true) : rfeIssue c st = .ok { s := st, onEnd := .rfe } :=
  if_pos (by simpa using h)

theorem rfeIssue_outside (ht : c.v.inTrap = false) (hd : c.v.dbg = none) :
    rfeIssue c st = .trap [{ cause := cMODE, sub := 2, lanes := maskOf c.lanes }] := by
  simp [rfeIssue, ht, hd]

end

end Sys2Proof.Machine

namespace Sys2Proof.Proofs

open Sys2Proof.Machine

/-- brk and rfe where they are not allowed: each case is one failing branch of the instruction (R417). -/
theorem notAllowed_traps {f : GR} {s : State} {v : Wave} {r : Run} {i : Instr} {n : Nat}
    (hn : (i = Instr.brk f ∧ v.dbg.isSome = true ∧ n = 3) ∨
      (i = Instr.brk f ∧ v.dbg = none ∧ (s.dreg (s.coreOf v) 1).getLsbD 0 = false ∧ n = 4) ∨
      (i = Instr.rfe f ∧ v.inTrap = false ∧ v.dbg = none ∧ n = 2)) (hi : Issues i s v r) :
    ∃ t, exec i s = .next (s.issueTrap s.turn v r t (s.ctx v r i).site) ∧ t.cause = 6 ∧ t.sub = n ∧
      t.tval = (if n = 4 then BitVec.ofNat 64 (f.b.toNat % 128) else 0#64) ∧ t.lanes = maskOf (s.ctx v r i).lanes := by
  have hmode : cMODE ≠ cRESERVED := by decide
  rcases hn with ⟨rfl, hd, rfl⟩ | ⟨rfl, hd, he, rfl⟩ | ⟨rfl, ht, hd, rfl⟩
  · rw [exec_brk]
    exact issue_trap_single hi (brkIssue_inDebug hd) hmode
  · rw [exec_brk]
    exact issue_trap_single hi (brkIssue_disabled hd he) hmode
  · rw [exec_rfe]
    exact issue_trap_single hi (rfeIssue_outside ht hd) hmode

theorem systemInstructions_issue : Spec.SystemInstructions := by
  intro f s v r
  refine ⟨fun hi => ?_, fun hi hd he ho => ?_, fun hi hd he ho => ?_, fun hi hm => ?_, fun i n hn hi => notAllowed_traps hn hi⟩
  · rw [exec_trap]
    exact issue_ok hi rfl
  · rw [exec_brk]
    exact issue_ok hi (brkIssue_enters hd he ho)
  · rw [exec_brk]
    exact issue_stall hi (brkIssue_waits hd he ho)
  · rw [exec_rfe]
    exact issue_ok hi (rfeIssue_returns hm)

/-- A trap at the end of a run is one delivery with no frozen run; a completion fault has a cause of its own. -/
theorem endTraps : Spec.EndTraps := by
  intro s w v m p hi hd hp hb
  refine ⟨fun n site => ?_, fun lf pc h1 h2 => ?_⟩
  · obtain ⟨v', e, hin, hm, hfr, hframe, hs, hv⟩ := State.deliverTrap_enters (s := s) (w := w) (t := { cause := cSWTRAP, sub := n, lanes := m }) (m := m)
      (site := site) (tepc := site.pc + 4#48) (fr := none) (n := 0) (o := false) hi hd hp hb (show cSWTRAP ≠ cHBMUE by decide) (show cSWTRAP ≠ cACKLOST by decide)
    refine ⟨v', e, hin, hm, hfr, ?_⟩
    rw [hframe]
    exact ⟨rfl, rfl, rfl, rfl, rfl, rfl, rfl, rfl, hs, hv⟩
  · obtain ⟨v', e, hin, hm, hfr, hframe, hs, hv⟩ := State.deliverTrap_enters (s := s) (w := w) (t := lf.trap) (m := m)
      (site := { pc := lf.pc, word := lf.word, x1 := lf.x1, x2 := lf.x2 }) (tepc := pc) (fr := none) (n := 0) (o := false) hi hd hp hb h1 h2
    refine ⟨v', e, hin, hm, hfr, ?_⟩
    rw [hframe]
    exact ⟨rfl, rfl, rfl, rfl, rfl, rfl, rfl, rfl, hs, hv⟩

theorem debugEntry : Spec.DebugEntry := by
  intro s w v m pc fr held rep cl hv
  obtain ⟨htrigger, hpc, hname⟩ := State.enterDebug_report s w v m pc fr held rep cl
  refine ⟨s.debugWave v m pc fr held, ?_, ⟨_, rfl, rfl, rfl, rfl, rfl, rfl, rfl, rfl, rfl⟩, rfl, v.enterAt_sregs .., v.enterAt_vregs .., v.enterAt_masks ..,
    fun l f hl => ?_, hpc.trans ?_, ?_, hname.trans (pack_name v), State.enterDebug_mem ..⟩
  · rw [State.wave?, State.enterDebug_waves]
    exact Tab.get?_set_self ..
  · refine (v.enterAt_fibre? ..).trans ?_
    rw [hl]
    split <;> rfl
  · exact BitVec.ofNat_toNat ..
  · rw [htrigger]
    exact pack_trigger_toNat rep held

/-- Settles O25, part by part: the issue of the three instructions, the traps at a run's end, and the entry into debug mode. -/
theorem systemInstructions : Obligations.SystemInstructions := ⟨systemInstructions_issue, endTraps, debugEntry⟩

end Sys2Proof.Proofs
end
